-- ==== Sys2Proof/Word.lean ====
section
/-! DEFINITION. The byte, and the four-fold family: the part has four lanes, four slots a lane, four layout
pages, four mark sets and four tone tables (spec 00_scope.md section 6). -/

namespace Sys2Proof

/-- One byte on a wire, in a message or in the DRAM. -/
abbrev Byte := BitVec 8

/-- A camera lane, 0 to 3 (00_scope.md section 4.3). -/
abbrev Lane := Fin 4

/-- Four like things numbered 0 to 3. -/
structure Four (α : Type) where
  e0 : α
  e1 : α
  e2 : α
  e3 : α
deriving DecidableEq, Repr

/-- The thing of number `i`. -/
def Four.get {α : Type} (v : Four α) (i : Fin 4) : α :=
  match i with
  | 0 => v.e0
  | 1 => v.e1
  | 2 => v.e2
  | 3 => v.e3

/-- `v` with `a` as number `i`. -/
def Four.set {α : Type} (v : Four α) (i : Fin 4) (a : α) : Four α :=
  match i with
  | 0 => { v with e0 := a }
  | 1 => { v with e1 := a }
  | 2 => { v with e2 := a }
  | 3 => { v with e3 := a }

/-- `v` with `f` applied to number `i`. -/
def Four.modify {α : Type} (v : Four α) (i : Fin 4) (f : α → α) : Four α := v.set i (f (v.get i))

/-- `f` applied to all four. -/
def Four.map {α β : Type} (f : α → β) (v : Four α) : Four β := ⟨f v.e0, f v.e1, f v.e2, f v.e3⟩

/-- Four copies of `a`. -/
def Four.const {α : Type} (a : α) : Four α := ⟨a, a, a, a⟩

/-- The four in number order. -/
def Four.toList {α : Type} (v : Four α) : List α := [v.e0, v.e1, v.e2, v.e3]

/-- The four numbers in ascending order. -/
def fourNumbers : List (Fin 4) := [0, 1, 2, 3]

end Sys2Proof
end

