-- ==== Sys2Proof/Machine/Arith.lean ====
section
/-! DEFINITION. The arithmetic words of 00_scope.md sections 4.5 to 4.7 (round, floor, truncate, clamp, saturate,
ticks), the coding of numbers as bytes and bits (R179), and the CRC-16. -/

namespace Sys2Proof.Machine

/-- Ticks of REFCLK in `n` ms (a tick is 25 ns). -/
def msTicks (n : Nat) : Nat := n * 40000

/-- Ticks of REFCLK in `n` µs. -/
def usTicks (n : Nat) : Nat := n * 40

/-- `a / b` to nearest, a tie away from zero (section 4.7). -/
def roundDiv (a : Int) (b : Nat) : Int :=
  if 0 ≤ a then ((2 * a.toNat + b) / (2 * b) : Nat) else -(((2 * (-a).toNat + b) / (2 * b) : Nat) : Int)

/-- `a / b` toward zero (section 4.7). -/
def truncDiv (a : Int) (b : Nat) : Int :=
  if 0 ≤ a then (a.toNat / b : Nat) else -(((-a).toNat / b : Nat) : Int)

/-- The least whole number not below `a / b`. -/
def ceilDiv (a b : Nat) : Nat := (a + b - 1) / b

/-- Clamp a number to `lo..hi` (section 4.7). -/
def clampNat (lo hi x : Nat) : Nat := if x < lo then lo else if hi < x then hi else x

/-- Clamp a signed number to `lo..hi` (section 4.7). -/
def clampInt (lo hi x : Int) : Int := if x < lo then lo else if hi < x then hi else x

/-- A count raised by `k`, saturating at `limit` (section 4.6). -/
def satAdd (limit x k : Nat) : Nat := min limit (x + k)

/-- The limit of every 32-bit counter (R21, R82, R162, section 6.1). -/
def counterMax : Nat := 4294967295

/-- A 32-bit counter raised by `k`. -/
def count (x k : Nat) : Nat := satAdd counterMax x k

/-- `x` rounded down to even. -/
def evenDown (x : Nat) : Nat := x / 2 * 2

/-- `x` rounded down to a multiple of `k`. -/
def multipleDown (k x : Nat) : Nat := x / k * k

/-- A moving average in 1/16 units: moved one eighth of the way toward `16m`, toward zero (R11, R94, R142). -/
def foldEighth (avg sample16 : Nat) : Nat := ((avg : Int) + truncDiv ((sample16 : Int) - (avg : Int)) 8).toNat

/-! ### Bytes (R179) -/

/-- A one-byte number. -/
def byte1 (n : Nat) : List Byte := [BitVec.ofNat 8 n]

/-- A two-byte number, most significant byte first. -/
def byte2 (n : Nat) : List Byte := [BitVec.ofNat 8 (n / 256), BitVec.ofNat 8 n]

/-- A four-byte number, most significant byte first. -/
def byte4 (n : Nat) : List Byte :=
  [BitVec.ofNat 8 (n / 16777216), BitVec.ofNat 8 (n / 65536), BitVec.ofNat 8 (n / 256), BitVec.ofNat 8 n]

/-- A three-byte number, most significant byte first. -/
def byte3 (n : Nat) : List Byte := [BitVec.ofNat 8 (n / 65536), BitVec.ofNat 8 (n / 256), BitVec.ofNat 8 n]

/-- A signed one-byte number, two's complement. -/
def signed1 (i : Int) : List Byte := [BitVec.ofInt 8 i]

/-- A signed two-byte number, two's complement, most significant byte first. -/
def signed2 (i : Int) : List Byte := byte2 (BitVec.ofInt 16 i).toNat

/-- An on/off value: 0 for off, 1 for on. -/
def byteBool (b : Bool) : List Byte := if b then [1] else [0]

/-- Byte `i` of a run of bytes as a number. -/
def byteAt (p : List Byte) (i : Nat) : Nat := (p.getD i 0).toNat

/-- The two-byte number at byte `i` of a run of bytes. -/
def wordAt (p : List Byte) (i : Nat) : Nat := byteAt p i * 256 + byteAt p (i + 1)

/-- The three-byte number at byte `i` of a run of bytes. -/
def tripleAt (p : List Byte) (i : Nat) : Nat := byteAt p i * 65536 + wordAt p (i + 1)

/-- Bit `i` of a byte, bit 0 the least significant. -/
def bitOf (b : Byte) (i : Nat) : Bool := b.getLsbD i

/-- A flag byte from its bits 7, 6, 5 and 4. -/
def flagByte (b7 b6 b5 b4 : Bool) : Byte :=
  (if b7 then 0x80 else 0) ||| (if b6 then 0x40 else 0) ||| (if b5 then 0x20 else 0) ||| (if b4 then 0x10 else 0)

/-- The bits of a byte, most significant first (R173). -/
def byteBits (b : Byte) : List Bool :=
  [bitOf b 7, bitOf b 6, bitOf b 5, bitOf b 4, bitOf b 3, bitOf b 2, bitOf b 1, bitOf b 0]

/-- Eight bits, most significant first, as a byte; missing bits read as 0. -/
def bitsByte (l : List Bool) : Byte :=
  BitVec.ofNat 8 ((l.take 8).foldl (fun acc b => acc * 2 + b.toNat) 0 * 2 ^ (8 - (l.take 8).length))

/-- The bits of a run of bytes, most significant bit first (R173). -/
def bitsOf (p : List Byte) : List Bool := p.flatMap byteBits

/-! ### The CRC-16 (R179) -/

/-- One bit into the CRC register: polynomial x^16 + x^12 + x^5 + 1, most significant bit first. -/
def crcBit (crc : BitVec 16) (b : Bool) : BitVec 16 :=
  if crc.getLsbD 15 != b then (crc <<< 1) ^^^ 0x1021 else crc <<< 1

/-- The CRC-16 of a run of bytes: the register starts at all ones, with no final inversion. -/
def crc16 (p : List Byte) : BitVec 16 := (bitsOf p).foldl crcBit 0xFFFF

/-- The two bytes of the CRC-16, high byte first. -/
def crcBytes (p : List Byte) : List Byte := byte2 (crc16 p).toNat

/-- A run of bytes followed by its CRC. -/
def withCrc (p : List Byte) : List Byte := p ++ crcBytes p

end Sys2Proof.Machine
end

