-- ==== Sys2Proof/Machine/Types.lean ====
section
/-! DEFINITION. The types of the blocks' state, block by block as 00_scope.md section 3 lists them. Timers are kept
as the tick of REFCLK at which they expire, or none when stopped. -/

namespace Sys2Proof.Machine

/-! ### Lane Receiver (01_camera_lanes.md section 1.2) -/

/-- A frame's width and height in pixels (00_scope.md section 4.4). -/
structure Geometry where
  w : Nat
  h : Nat
deriving DecidableEq, Repr

/-- Where the lane stands with its camera (section 1.3). -/
inductive LaneState where
  | off | searching | acquiring | locked | faulted | silent | lockedOut
deriving DecidableEq, Repr

/-- Whether the lane carries video or a test pattern (10_link_test.md). -/
inductive LaneMode where
  | normal | check | internal
deriving DecidableEq, Repr

/-- Whether the announced geometry is adopted or must match the configured one (R4). -/
inductive GeometryMode where
  | auto | fixed
deriving DecidableEq, Repr

/-- The lane state in which a frame was opened (R6). -/
inductive OpenedIn where
  | acquiring | locked
deriving DecidableEq, Repr

/-- The frame now being received (section 1.2). -/
structure OpenFrame where
  number : Nat
  openedIn : OpenedIn
deriving DecidableEq, Repr

/-- The last LINE taken in the open frame (R11). -/
structure LineMark where
  line : Nat
  tick : Nat
deriving DecidableEq, Repr

/-- The seventeen lane counters, in the order of R21's table. -/
structure LaneCounters where
  packetsReceived : Nat
  headerErrors : Nat
  payloadErrors : Nat
  sequenceErrors : Nat
  frameNumberErrors : Nat
  geometryErrors : Nat
  periodErrors : Nat
  bufferOverflows : Nat
  damagedLines : Nat
  framesStarted : Nat
  framesDiscarded : Nat
  framesSkipped : Nat
  framesDropped : Nat
  locks : Nat
  faults : Nat
  silences : Nat
  lockouts : Nat
deriving DecidableEq, Repr

/-- What a Lane Receiver holds (section 1.2). -/
structure Receiver where
  state : LaneState
  mode : LaneMode
  geometryMode : GeometryMode
  configured : Geometry
  acquisition : Option Geometry
  geometry : Geometry
  health : Nat
  attempts : Nat
  average : Option Nat
  periods : Nat
  mark : Option LineMark
  openFrame : Option OpenFrame
  damagedCount : Nat
  periodError : Bool
  expectedFrame : Option Nat
  expectedLine : Nat
  cleanFrames : Nat
  lockedRun : Nat
  silenceDue : Option Nat
  recoveryDue : Option Nat
  silenceTimeout : Nat
  recoveryDelay : Nat
  dmax : Nat
  counters : LaneCounters
deriving DecidableEq, Repr

/-! ### Relay Unit (02_camera_relay.md section 2.1) -/

/-- A message accepted by CAMERA_MESSAGE and not yet finished. -/
structure RelayMessage where
  tag : Byte
  bytes : List Byte
deriving DecidableEq, Repr

/-- What the in-flight message is waiting for. -/
inductive RelayPhase where
  | sending | awaitingReply
deriving DecidableEq, Repr

/-- The relay fields of the previous good header, kept for the double look (R32). -/
structure Candidate where
  toggle : Bool
  byte : Byte
  last : Bool
deriving DecidableEq, Repr

/-- A relay context. `inFlight` is the phase of the head message, or none when no message is in flight.
`forwardWord` is the word last put on the camera lane (the model's view of the wire, log 32). -/
structure Relay where
  queue : List RelayMessage
  inFlight : Option RelayPhase
  byteIndex : Nat
  offered : Bool
  taken : Nat
  sendToggle : Bool
  reply : List Byte
  acceptedToggle : Bool
  candidate : Option Candidate
  abortSeen : Bool
  abortOwed : Nat
  progressDue : Option Nat
  doubleLook : Bool
  timeout : Nat
  forwardWord : Option (List Byte)
deriving DecidableEq, Repr

/-! ### Frame Store Controller (03_frame_store.md) -/

/-- VALID or VOID (R79). -/
inductive MeasureResult where
  | valid | void
deriving DecidableEq, Repr

/-- The fields of a frame record that a job's completion writes, all at once (section 3.4, R46, R68). -/
structure Conditioned where
  result : MeasureResult
  accepted : Nat
  shiftX : Int
  shiftY : Int
  corrX : Int
  corrY : Int
  level : Nat
  band : Nat
  gains : List Nat
  frozen : Bool
deriving DecidableEq, Repr

/-- A frame record (section 3.4). -/
structure FrameRecord where
  number : Nat
  geometry : Geometry
  damaged : List Nat
  conditioned : Option Conditioned
deriving DecidableEq, Repr

/-- The roles of a slot that is not FREE (section 3.3). -/
inductive Role where
  | filling | conditioning | ready | showing
deriving DecidableEq, Repr

/-- A slot that is not FREE: its role and its frame record. -/
structure HeldSlot where
  role : Role
  record : FrameRecord
deriving DecidableEq, Repr

/-- Which of the lane's frames a buffered line belongs to: the closed one that waits for its commit, or the one now
open (R47, R48). -/
inductive FrameTag where
  | committing | current
deriving DecidableEq, Repr

/-- A line of the line write buffer, with the number of its segments written so far (R48). -/
structure BufferedLine where
  tag : FrameTag
  line : Nat
  payload : List Byte
  written : Nat
deriving DecidableEq, Repr

/-- The pending-commit marker (R49). -/
structure PendingCommit where
  slot : Fin 4
  damaged : Nat
  dmax : Nat
  openedIn : OpenedIn
deriving DecidableEq, Repr

/-- Where the frame now open is stored: nowhere (none open for the store), in its FILLING slot, deferred behind a
pending commit, or in no slot because none was FREE (R47). -/
inductive Opening where
  | closed
  | stored (slot : Fin 4)
  | deferred (number : Nat) (geometry : Geometry) (damaged : List Nat)
  | unstored
deriving DecidableEq, Repr

/-- One lane's part of the Frame Store Controller; a slot is none when FREE. -/
structure LaneStore where
  ring : Four (Option HeldSlot)
  buffer : List BufferedLine
  pendingCommit : Option PendingCommit
  opening : Opening
deriving DecidableEq, Repr

/-! ### Conditioning Engine (04_conditioning_jobs_and_motion_tracking.md) -/

/-- An anchor: a tile on which motion is measured (section 4.5). -/
structure Anchor where
  col : Nat
  row : Nat
  enabled : Bool
deriving DecidableEq, Repr

/-- The stabilizer settings (R84). -/
structure Stabilizer where
  enabled : Bool
  sx : Nat
  sy : Nat
  nmin : Nat
  sadCeiling : Nat
  contrastFloor : Nat
  factor : Nat
  jmax : Nat
  mx : Nat
  my : Nat
deriving DecidableEq, Repr

/-- An anchor's outcome (R82). -/
inductive AnchorOutcome where
  | accepted | disabled | outside | notClear | damaged | lowContrast | highSad | notEvaluated
deriving DecidableEq, Repr

/-- What the search of an evaluated anchor found (R76, R77). -/
structure AnchorMeasure where
  dx : Int
  dy : Int
  sad : Nat
  contrast : Nat
deriving DecidableEq, Repr

/-- An anchor of a job: waiting to be searched, or with its outcome (R73, R78). -/
inductive AnchorVerdict where
  | toSearch
  | done (outcome : AnchorOutcome) (measure : Option AnchorMeasure)
deriving DecidableEq, Repr

/-- One entry of the summary's anchor outcomes (R82). -/
structure AnchorResult where
  col : Nat
  row : Nat
  outcome : AnchorOutcome
  measure : Option AnchorMeasure
deriving DecidableEq, Repr

/-- The last measurement summary (R82). -/
structure Summary where
  number : Nat
  frozen : Bool
  referenceUsed : Bool
  stabilizerEnabled : Bool
  result : MeasureResult
  accepted : Nat
  shiftX : Int
  shiftY : Int
  jitterX : Int
  jitterY : Int
  corrX : Int
  corrY : Int
  anchors : List AnchorResult
deriving DecidableEq, Repr

/-- The five motion counters (R82). -/
structure MotionCounters where
  jobsCompleted : Nat
  validResults : Nat
  voidResults : Nat
  frozenJobs : Nat
  jobsAbandoned : Nat
deriving DecidableEq, Repr

/-- A lane's conditioning context (section 4.3). -/
structure Motion where
  jitterX : Int
  jitterY : Int
  referenceValid : Bool
  anchors : List Anchor
  settings : Stabilizer
  summary : Option Summary
  counters : MotionCounters
deriving DecidableEq, Repr

/-! ### Dust Monitor (05_dust_classification_and_tone.md section 5.1) -/

/-- A statistics set: one frame's sums (section 5.1). `valid` has one entry a tile row, the sums one a tile. -/
structure StatSet where
  number : Nat
  geometry : Geometry
  valid : List Nat
  luma : List Nat
  detail : List Nat
deriving DecidableEq, Repr

/-- CLEAR or DUSTY. -/
inductive TileState where
  | clear | dusty
deriving DecidableEq, Repr

/-- A tile record (section 5.1). -/
structure TileRecord where
  initialised : Bool
  state : TileState
  mean : Nat
  activity : Nat
  age : Nat
  gain : Nat
  lastMean : Nat
deriving DecidableEq, Repr

/-- What stage 2 gives a tile: its new record, with the gain still as it was, and its target gain (R67, R96). -/
structure TileClass where
  record : TileRecord
  target : Nat
deriving DecidableEq, Repr

/-- The dust settings (R105). -/
structure DustSettings where
  trise : Nat
  kdrop : Nat
  gmax : Nat
  b1 : Nat
  b2 : Nat
  b3 : Nat
deriving DecidableEq, Repr

/-- One lane's part of the Dust Monitor. -/
structure Dust where
  gathering : Option StatSet
  closedSet : Option StatSet
  jobSet : Option StatSet
  table : List TileRecord
  level : Nat
  band : Nat
  settings : DustSettings
deriving DecidableEq, Repr

/-- The four tone tables in both images, 256 entries each (R103). -/
structure ToneTables where
  active : Four (List Byte)
  pending : Four (List Byte)
deriving DecidableEq, Repr

/-- What a running job holds (section 4.1, R65): the settings it latched, frozen or not, its reference slot, its
classification, the anchors' outcomes so far, and the segments read for the anchor now being searched. -/
structure RunningJob where
  anchors : List Anchor
  settings : Stabilizer
  dust : DustSettings
  asoil : Nat
  frozen : Bool
  reference : Option (Fin 4)
  classes : Option (List TileClass)
  verdicts : List AnchorVerdict
  got : List (List Byte)
deriving DecidableEq, Repr

/-- A job of the queue; `run` is present while it runs (R63). -/
structure Job where
  lane : Lane
  slot : Fin 4
  number : Nat
  run : Option RunningJob
deriving DecidableEq, Repr

/-! ### Purge Controller (06_lens_purge.md section 6.1) -/

inductive PurgeState where
  | idle | pulse | settle | cooldown | halted
deriving DecidableEq, Repr

/-- The purge settings (R115): pulse time in ms, cooldown in s. -/
structure PurgeSettings where
  pulse : Nat
  cooldown : Nat
  asoil : Nat
  nsoil : Nat
  kmax : Nat
  auto : Bool
deriving DecidableEq, Repr

structure Purge where
  state : PurgeState
  pulseDue : Option Nat
  settleJobs : Nat
  settleDue : Option Nat
  cooldownDue : Option Nat
  consecutive : Nat
  lastSoiled : Option Nat
  returnHalted : Bool
  settings : PurgeSettings
  autoPurges : Nat
  manualPurges : Nat
  halts : Nat
deriving DecidableEq, Repr

/-! ### Link Test Unit (10_link_test.md section 10.1) -/

inductive Pattern where
  | short | long
deriving DecidableEq, Repr

/-- Where the generator stands within its frame (R173): the tick the frame starts, its line time and geometry, and
how many of its packets have been made (0: the FRAME_START is next). The line time and geometry are fixed when
the FRAME_START is made. -/
structure GeneratorRun where
  frameStart : Nat
  lineTime : Nat
  geometry : Geometry
  made : Nat
deriving DecidableEq, Repr

inductive CheckerState where
  | hunt | sync
deriving DecidableEq, Repr

/-- A Link Test Unit. Shift states hold their bits oldest first; the error window holds true for an error, oldest
first. -/
structure LinkTest where
  pattern : Pattern
  genShift : List Bool
  genFrame : Nat
  genRun : Option GeneratorRun
  injectPending : Bool
  checker : CheckerState
  inverted : Bool
  chkShift : List Bool
  seedCount : Nat
  run : Nat
  runCorrect : Bool
  window : List Bool
  errorCount : Nat
deriving DecidableEq, Repr

/-- All the per-lane state of the part: one instance of each per-lane block, and the Compositor's stale age. -/
structure LaneBlocks where
  rx : Receiver
  relay : Relay
  store : LaneStore
  motion : Motion
  dust : Dust
  purge : Purge
  test : LinkTest
  staleAge : Nat
deriving DecidableEq, Repr

/-! ### Compositor (07_composition.md section 7.1) -/

inductive Scale where
  | one | down | up
deriving DecidableEq, Repr

inductive Anchoring where
  | view | camera
deriving DecidableEq, Repr

/-- A window record (section 7.1). -/
structure WindowRecord where
  enabled : Bool
  lane : Lane
  x : Nat
  y : Nat
  w : Nat
  h : Nat
  cx : Nat
  cy : Nat
  scale : Scale
  stabilize : Bool
  markSet : Option (Fin 4)
  anchoring : Anchoring
deriving DecidableEq, Repr

structure Colour where
  y : Byte
  cb : Byte
  cr : Byte
deriving DecidableEq, Repr

inductive MarkMode where
  | opaqueMark | half
deriving DecidableEq, Repr

structure Mark where
  x : Int
  y : Int
  w : Nat
  h : Nat
  colour : Fin 4
  mode : MarkMode
deriving DecidableEq, Repr

structure MarkSet where
  palette : Four Colour
  marks : List Mark
deriving DecidableEq, Repr

/-- A page: six window records, numbered 0 to 5. -/
abbrev Page := List WindowRecord

inductive ShownPage where
  | page (n : Fin 4) | fallback
deriving DecidableEq, Repr

/-- The three contents of a window (section 7.4). -/
inductive Content where
  | normal | stale | lost
deriving DecidableEq, Repr

/-- What a window with content NORMAL or STALE takes from its lane's SHOWING frame, as it stands at the output
frame start: the slot, the frame's record fields the drawing uses, and the last means of the lane's tile table
(R104). -/
structure FrameView where
  slot : Fin 4
  geometry : Geometry
  damaged : List Nat
  gains : List Nat
  band : Nat
  means : List Nat
deriving DecidableEq, Repr

/-- One window of the frame plan (section 7.1). -/
structure PlanWindow where
  window : Nat
  record : WindowRecord
  content : Content
  ox : Nat
  oy : Nat
  sw : Nat
  sh : Nat
  shiftX : Int
  shiftY : Int
  view : Option FrameView
deriving DecidableEq, Repr

structure Compositor where
  pagesActive : Four Page
  pagesPending : Four Page
  marksActive : Four MarkSet
  marksPending : Four MarkSet
  commitRequested : Bool
  selectedPage : Fin 4
  debouncedReverse : Bool
  lastReverse : Bool
  shownPage : ShownPage
  holdLimit : Nat
  plan : List PlanWindow
deriving DecidableEq, Repr

/-! ### Compositor read buffer and store arbiter (sections 3.8, 3.9) -/

/-- One segment of an output line's fetch list (R57, R58): the window it is for, where it is read, and how many
bytes it has. -/
structure FetchItem where
  window : Nat
  lane : Lane
  slot : Fin 4
  line : Nat
  segment : Nat
  bytes : Nat
deriving DecidableEq, Repr

/-- A fetched segment held for an output line. -/
structure Fetched where
  window : Nat
  segment : Nat
  data : List Byte
deriving DecidableEq, Repr

/-- A line place of the read buffer: empty, filling, or complete with the line's bytes (R58). -/
inductive LinePlace where
  | empty
  | filling (line : Nat) (got : List Fetched)
  | complete (line : Nat) (pixels : List Byte)
deriving DecidableEq, Repr

/-- The two line places. Output line k takes place k mod 2 (log 28). -/
structure ReadBuffer where
  place0 : LinePlace
  place1 : LinePlace
deriving DecidableEq, Repr

/-- What a granted transfer moves (section 3.9). A write carries its bytes. -/
inductive TransferKind where
  | refresh
  | fetch (line : Nat) (item : FetchItem)
  | write (lane : Lane) (slot : Fin 4) (line segment : Nat) (data : List Byte)
  | read (lane : Lane) (slot : Fin 4) (line segment bytes : Nat)
deriving DecidableEq, Repr

/-- A transfer that holds the port: when it completes (R60), and whether its data still counts (`live`; a transfer
whose data a rule discards completes on the port with no effect). -/
structure Transfer where
  kind : TransferKind
  due : Nat
  live : Bool
deriving DecidableEq, Repr

structure Arbiter where
  lastGranted : Lane
  port : Option Transfer
  interval : Nat
  owed : Nat
  refreshDue : Option Nat
  storeReady : Bool
  initDue : Option Nat
deriving DecidableEq, Repr

/-! ### Output Timing Generator and Cab Link Transmitter (08_output_timing_and_the_status_line.md) -/

inductive Raster where
  | r1280x800 | r1024x600 | r800x480
deriving DecidableEq, Repr

inductive TimingMode where
  | auto | fixed (lane : Lane) | free
deriving DecidableEq, Repr

/-- What will make the next output frame start if the master's line does not, with its expiry tick. -/
inductive Watch where
  | deadline (due : Nat) | timer (due : Nat)
deriving DecidableEq, Repr

inductive FramePhase where
  | picture | statusLine | blanking
deriving DecidableEq, Repr

/-- The last offset line taken from the present master (R142). -/
structure OffsetMark where
  frame : Nat
  tick : Nat
deriving DecidableEq, Repr

/-- The generator's state (section 8.1). `syncInForce` is the sync offset in force at the last output frame start
(R142, R153); `lastStart` the tick of that start; `nextLine` the active line that begins next (R140). -/
structure Timing where
  raster : Raster
  pendingRaster : Option Raster
  mode : TimingMode
  priority : Four Lane
  syncOffset : Nat
  syncInForce : Nat
  freeRun : Nat
  master : Option Lane
  average : Option Nat
  offsetMark : Option OffsetMark
  flywheel : Nat
  holdover : Bool
  holdoverPeriod : Option Nat
  watch : Option Watch
  phase : FramePhase
  frameNumber : Nat
  firstPending : Bool
  lastStart : Nat
  nextLine : Nat
deriving DecidableEq, Repr

/-- What the cab video lane carries. -/
inductive Video where
  | blanking | activeLine (bytes : List Byte) | statusLine (bytes : List Byte)
deriving DecidableEq, Repr

/-- The Cab Link Transmitter: what it sends now, and the output line it sent last (R59). -/
structure Transmitter where
  video : Video
  lastLine : List Byte
deriving DecidableEq, Repr

/-! ### Command Channel (09_command_channel_and_supervision.md section 9.1) -/

/-- A well-formed command message in the command queue. -/
structure CmdMessage where
  number : Byte
  tag : Byte
  payload : List Byte
deriving DecidableEq, Repr

/-- The back-lane receiver: idle, or a message in progress with the bytes taken so far, start byte first, and the
tick at which its gap timer expires (R181). -/
inductive BackLane where
  | idle
  | inProgress (bytes : List Byte) (gapDue : Nat)
deriving DecidableEq, Repr

inductive NoticeKind where
  | reply | laneState | relayDone | relayFailed | purge | windowDisabled | supervision | timing
deriving DecidableEq, Repr

/-- The reply codes, in coding order (section 11.5). -/
inductive ReplyCode where
  | ok | clamped | busy | badArg | badLength | unknown | wrongState | laneDown | full
deriving DecidableEq, Repr

/-- The command a notice follows from, if any: its number and tag (section 11.5, notice bytes 1 to 3). -/
abbrev Origin := Option (Nat × Byte)

/-- A notice: a reply or a report. A report's code is OK, which is coded 0 (section 11.5, notice byte 4). -/
structure Notice where
  kind : NoticeKind
  origin : Origin
  code : ReplyCode
  data : List Byte
deriving DecidableEq, Repr

inductive Supervision where
  | startup | active | limp
deriving DecidableEq, Repr

inductive ResetCause where
  | powerOn | pin | restartCommand
deriving DecidableEq, Repr

/-- The six device counters, in the order of R162's table. -/
structure DeviceCounters where
  accepted : Nat
  checkErrors : Nat
  overruns : Nat
  reportsDropped : Nat
  underruns : Nat
  heartbeatLosses : Nat
deriving DecidableEq, Repr

/-- The Command Channel. `flags` and `reported` number the event flags as R179 does. -/
structure CommandChannel where
  receiver : BackLane
  queue : List CmdMessage
  hold : Bool
  notices : List Notice
  supervision : Supervision
  heartbeatPeriod : Nat
  heartbeatDue : Option Nat
  flags : BitVec 24
  reported : BitVec 24
  counters : DeviceCounters
  resetCause : ResetCause
  restartCount : Nat
  restartTag : Option Byte
deriving DecidableEq, Repr

end Sys2Proof.Machine
end

