-- ==== Sys2Proof/Machine/ResetValues.lean ====
section
/-! DEFINITION. The value each block takes at a reset: R1, R27, R42, R64, R86, R108, R118, R139, R154, R170. The three
resets give the same values but where the rules say otherwise; the functions that take a reset (Resets.lean) say
where. -/

namespace Sys2Proof.Machine

def LaneCounters.zero : LaneCounters := ⟨0, 0, 0, 0, 0, 0, 0, 0, 0, 0, 0, 0, 0, 0, 0, 0, 0⟩

/-- R1. -/
def Receiver.reset : Receiver where
  state := .searching
  mode := .normal
  geometryMode := .auto
  configured := ⟨1280, 800⟩
  acquisition := none
  geometry := ⟨1280, 800⟩
  health := 0
  attempts := 0
  average := none
  periods := 0
  mark := none
  openFrame := none
  damagedCount := 0
  periodError := false
  expectedFrame := none
  expectedLine := 0
  cleanFrames := 0
  lockedRun := 0
  silenceDue := none
  recoveryDue := none
  silenceTimeout := 100
  recoveryDelay := 500
  dmax := 4
  counters := .zero

/-- R27. No forward word has been sent (log 32). -/
def Relay.reset : Relay where
  queue := []
  inFlight := none
  byteIndex := 0
  offered := false
  taken := 0
  sendToggle := true
  reply := []
  acceptedToggle := false
  candidate := none
  abortSeen := false
  abortOwed := 2
  progressDue := none
  doubleLook := true
  timeout := 50
  forwardWord := none

/-- R42, one lane's part. -/
def LaneStore.reset : LaneStore where
  ring := Four.const none
  buffer := []
  pendingCommit := none
  opening := .closed

/-- The defaults of R84. -/
def Stabilizer.reset : Stabilizer where
  enabled := true
  sx := 12
  sy := 6
  nmin := 3
  sadCeiling := 2048
  contrastFloor := 480
  factor := 8
  jmax := 32
  mx := 24
  my := 16

def MotionCounters.zero : MotionCounters := ⟨0, 0, 0, 0, 0⟩

/-- R64, one lane's part. -/
def Motion.reset : Motion where
  jitterX := 0
  jitterY := 0
  referenceValid := false
  anchors := []
  settings := .reset
  summary := none
  counters := .zero

/-- A tile record of a table just laid out (R86, R102). -/
def TileRecord.fresh : TileRecord where
  initialised := false
  state := .clear
  mean := 0
  activity := 0
  age := 0
  gain := 16
  lastMean := 0

/-- How many tiles a frame of geometry `g` has (00_scope.md section 4.4). -/
def Geometry.tiles (g : Geometry) : Nat := g.w / 64 * (g.h / 32)

/-- The defaults of R105. -/
def DustSettings.reset : DustSettings := ⟨12, 8, 40, 32, 96, 160⟩

/-- R86, one lane's part: the table is laid out for 1280 x 800. -/
def Dust.reset : Dust where
  gathering := none
  closedSet := none
  jobSet := none
  table := List.replicate 500 .fresh
  level := 0
  band := 0
  settings := .reset

/-- The identity tone table (R86). -/
def toneIdentity : List Byte := (List.range 256).map (BitVec.ofNat 8)

/-- R86. -/
def ToneTables.reset : ToneTables := ⟨Four.const toneIdentity, Four.const toneIdentity⟩

/-- R108. -/
def PurgeSettings.reset : PurgeSettings where
  pulse := 300
  cooldown := 30
  asoil := 90
  nsoil := 10
  kmax := 3
  auto := true

/-- R108. -/
def Purge.reset : Purge where
  state := .idle
  pulseDue := none
  settleJobs := 0
  settleDue := none
  cooldownDue := none
  consecutive := 0
  lastSoiled := none
  returnHalted := false
  settings := .reset
  autoPurges := 0
  manualPurges := 0
  halts := 0

/-- How many bits the pattern's shift state holds (R173). -/
def Pattern.seedLength : Pattern → Nat
  | .short => 9
  | .long => 15

/-- R170. The run's kind is of no effect while the run is 0 (log 32). -/
def LinkTest.reset : LinkTest where
  pattern := .short
  genShift := List.replicate 9 true
  genFrame := 0
  genRun := none
  injectPending := false
  checker := .hunt
  inverted := false
  chkShift := []
  seedCount := 0
  run := 0
  runCorrect := true
  window := []
  errorCount := 0

/-- One lane's blocks after a reset; the stale age is R118's. -/
def LaneBlocks.reset : LaneBlocks where
  rx := .reset
  relay := .reset
  store := .reset
  motion := .reset
  dust := .reset
  purge := .reset
  test := .reset
  staleAge := 255

/-- R118: a window record after reset. -/
def WindowRecord.reset : WindowRecord where
  enabled := false
  lane := 0
  x := 0
  y := 0
  w := 2
  h := 2
  cx := 0
  cy := 0
  scale := .one
  stabilize := false
  markSet := none
  anchoring := .view

/-- R118: a mark set after reset, no marks and four black colours. -/
def MarkSet.reset : MarkSet := ⟨Four.const ⟨16, 128, 128⟩, []⟩

/-- R118. -/
def Compositor.reset : Compositor where
  pagesActive := Four.const (List.replicate 6 .reset)
  pagesPending := Four.const (List.replicate 6 .reset)
  marksActive := Four.const .reset
  marksPending := Four.const .reset
  commitRequested := false
  selectedPage := 0
  debouncedReverse := false
  lastReverse := false
  shownPage := .fallback
  holdLimit := 15
  plan := []

/-- R42. -/
def ReadBuffer.reset : ReadBuffer := ⟨.empty, .empty⟩

/-- R42 after power-on and pin reset, with no transfer on the port and initialisation not running. -/
def Arbiter.reset : Arbiter where
  lastGranted := 3
  port := none
  interval := 312
  owed := 0
  refreshDue := none
  storeReady := false
  initDue := none

/-- How long DRAM initialisation takes: 200 µs (R43). -/
def initTicks : Nat := usTicks 200

/-- R139, with no start watch (as while RESET_N is asserted) and the reset at tick `t`. -/
def Timing.reset (t : Nat) : Timing where
  raster := .r1280x800
  pendingRaster := none
  mode := .auto
  priority := ⟨0, 1, 2, 3⟩
  syncOffset := 8
  syncInForce := 8
  freeRun := 33333
  master := none
  average := none
  offsetMark := none
  flywheel := 0
  holdover := false
  holdoverPeriod := none
  watch := none
  phase := .blanking
  frameNumber := 0
  firstPending := true
  lastStart := t
  nextLine := 0

/-- R139: the same with the timer started at the reset, to expire one free-run period after it. -/
def Timing.started (t : Nat) : Timing :=
  { Timing.reset t with watch := some (.timer (t + usTicks (Timing.reset t).freeRun)) }

/-- R139: blanking is sent. No output line has been sent (log 32). -/
def Transmitter.reset : Transmitter := ⟨.blanking, []⟩

def DeviceCounters.zero : DeviceCounters := ⟨0, 0, 0, 0, 0, 0⟩

/-- R154, with the reset's own cause, restart count and last restart tag (R163). -/
def CommandChannel.reset (cause : ResetCause) (restarts : Nat) (tag : Option Byte) : CommandChannel where
  receiver := .idle
  queue := []
  hold := false
  notices := []
  supervision := .startup
  heartbeatPeriod := 1000
  heartbeatDue := none
  flags := 0
  reported := 0
  counters := .zero
  resetCause := cause
  restartCount := restarts
  restartTag := tag

end Sys2Proof.Machine
end

