-- ==== Sys2Proof/Syntax.lean ====
section
/-! DEFINITION. The commands of the block: one constructor for each row of spec/opcode_table.json, in the table's
order. The rows give no bits. What a row's event takes from the world stands in its operands; a command
execution takes its tag and payload from the head of the command queue (R156), so it has no operand of its own
beyond the moment. -/

namespace Sys2Proof

/-- What the world fixes for every event: the tick of REFCLK (25 ns) at which it falls, and the level of the
REVERSE line then, which an output frame start samples (R121). See log 1. -/
structure Moment where
  tick : Nat
  reverse : Bool
deriving DecidableEq, Repr

/-- The commands: one constructor a row of the table. -/
inductive Instr where
  /-- POWER_ON (R154). Power is applied: every block takes its reset values, the reset cause becomes POWER_ON, and DRAM initialisation and the output timer begin when the reference clock runs. -/
  | powerOn (m : Moment)
  /-- PIN_RESET_ASSERT (R42). RESET_N is asserted: transfers, refresh, output frames, PURGEn drive and back-lane reception stop, and the frame in progress is cut off. -/
  | pinResetAssert (m : Moment)
  /-- PIN_RESET_RELEASE (R163). RESET_N is released: every block holds its reset values with reset cause PIN, and DRAM initialisation and the output timer start. -/
  | pinResetRelease (m : Moment)
  /-- DRAM_INIT_COMPLETE (R43). DRAM initialisation completes 200 µs after release or clock start: store-ready is set and the refresh timer starts. -/
  | dramInitComplete (m : Moment)
  /-- CAMERA_PACKET (R2). A whole packet arrives on a camera lane and is counted, relayed and judged by the lane's state and mode. -/
  | cameraPacket (m : Moment) (lane : Lane) (bytes : List Byte)
  /-- GENERATOR_PACKET (R173). At its scheduled time the INTERNAL-mode generator makes a FRAME_START, LINE or FRAME_END; the lane takes it and the checker takes a LINE's payload bits. -/
  | generatorPacket (m : Moment) (lane : Lane)
  /-- SILENCE_TIMER_EXPIRY (R3). No good packet has arrived for the silence timeout, and the lane goes down to SILENT. -/
  | silenceTimerExpiry (m : Moment) (lane : Lane)
  /-- RECOVERY_TIMER_EXPIRY (R18). The recovery delay ends in FAULTED or SILENT, and a channel restart with cause RECOVERY follows. -/
  | recoveryTimerExpiry (m : Moment) (lane : Lane)
  /-- PROGRESS_TIMER_EXPIRY (R34). The relay progress timer expires, the in-flight message fails with TIMEOUT, and two abort words are owed. -/
  | progressTimerExpiry (m : Moment) (lane : Lane)
  /-- REFRESH_TIMER_EXPIRY (R61). A refresh falls due, the owed count increments up to 8, and the refresh timer restarts. -/
  | refreshTimerExpiry (m : Moment)
  /-- LANE_WRITE_COMPLETE (R48). A lane write segment transfer completes; a finished line leaves the write buffer and a pending commit may be made, then the arbiter grants again. -/
  | laneWriteComplete (m : Moment)
  /-- COMPOSITOR_FETCH_COMPLETE (R58). A compositor fetch segment completes, possibly completing an output line, and the arbiter grants again. -/
  | compositorFetchComplete (m : Moment)
  /-- CONDITIONING_READ_COMPLETE (R66). A conditioning read completes; an anchor search may finish, and the job's last read completes the job. -/
  | conditioningReadComplete (m : Moment)
  /-- REFRESH_COMPLETE (R61). A granted refresh completes 16 ticks after its grant, decrements the owed count, and the arbiter grants again. -/
  | refreshComplete (m : Moment)
  /-- FLYWHEEL_DEADLINE_EXPIRY (R143). The master's offset line is late, so an output frame start is forced and the flywheel count increments. -/
  | flywheelDeadlineExpiry (m : Moment)
  /-- OUTPUT_TIMER_EXPIRY (R144). With no master, the free-run or holdover timer expires and an output frame starts. -/
  | outputTimerExpiry (m : Moment)
  /-- ACTIVE_LINE_BEGIN (R140). Transmission of the next active output line begins at its line time; the previous line's buffer place is freed. -/
  | activeLineBegin (m : Moment)
  /-- STATUS_LINE_EVENT (R150). The status line begins: the status record is built, set flags are marked reported, up to four notices leave the queue, and the CRC is computed. -/
  | statusLineEvent (m : Moment)
  /-- STATUS_LINE_END (R140). The status line ends and the frame phase becomes BLANKING. -/
  | statusLineEnd (m : Moment)
  /-- PULSE_TIMER_EXPIRY (R111). The blow ends: PURGEn is deasserted and the purge enters SETTLE with the settle timer started. -/
  | pulseTimerExpiry (m : Moment) (lane : Lane)
  /-- SETTLE_TIMER_EXPIRY (R112). SETTLE ends after 500 ms and the purge enters COOLDOWN with the cooldown timer started. -/
  | settleTimerExpiry (m : Moment) (lane : Lane)
  /-- COOLDOWN_TIMER_EXPIRY (R113). The rest ends and the purge goes to HALTED, a repeat PULSE or IDLE. -/
  | cooldownTimerExpiry (m : Moment) (lane : Lane)
  /-- HEARTBEAT_TIMER_EXPIRY (R160). The terminal has been silent for the heartbeat period: supervision becomes LIMP, HEARTBEAT_LOST is raised and a SUPERVISION report is offered. -/
  | heartbeatTimerExpiry (m : Moment)
  /-- COMMAND_MESSAGE_ARRIVAL (R155). A whole command message arrives on the cab command lane and is discarded for a check error, dropped for overrun, or appended to the command queue. -/
  | commandMessageArrival (m : Moment) (bytes : List Byte)
  /-- BACKLANE_GAP_TIMEOUT (R181). No byte arrives for 1 ms within a message in progress, so the message is discarded as a check error. -/
  | backlaneGapTimeout (m : Moment)
  /-- UNKNOWN_COMMAND (R157). Execution of a queued message whose command number is not 1 to 35, answered with UNKNOWN. -/
  | unknownCommand (m : Moment)
  /-- HEARTBEAT (R165). Execution of HEARTBEAT, which replies with the supervision state and the heartbeat period. -/
  | heartbeat (m : Moment)
  /-- RESUME (R165). Execution of RESUME, which moves STARTUP or LIMP to ACTIVE and starts the heartbeat timer. -/
  | resume (m : Moment)
  /-- RESTART (R166). Execution of RESTART, which resets every block except DRAM refresh, discards the queues and sends no reply. -/
  | restart (m : Moment)
  /-- SET_SUPERVISION (R167). Execution of SET_SUPERVISION, which sets the heartbeat period. -/
  | setSupervision (m : Moment)
  /-- CLEAR_FLAGS (R168). Execution of CLEAR_FLAGS, which clears the named flags that are set and reported. -/
  | clearFlags (m : Moment)
  /-- READ_COUNTERS (R169). Execution of READ_COUNTERS, which returns the device and purge counters and reset information, with an optional clear. -/
  | readCounters (m : Moment)
  /-- CAMERA_CONFIG (R22). Execution of CAMERA_CONFIG, which enables, disables or configures the geometry of a lane. -/
  | cameraConfig (m : Moment)
  /-- SET_LANE_LIMITS (R23). Execution of SET_LANE_LIMITS, which sets the silence timeout, recovery delay and Dmax. -/
  | setLaneLimits (m : Moment)
  /-- CAMERA_RESTART (R24). Execution of CAMERA_RESTART, which makes a channel restart of the lane. -/
  | cameraRestart (m : Moment)
  /-- CAMERA_REARM (R25). Execution of CAMERA_REARM, which clears the attempt count of a LOCKED_OUT lane and restarts the channel. -/
  | cameraRearm (m : Moment)
  /-- READ_LANE (R26). Execution of READ_LANE, which returns the lane's state, settings and counters, with an optional clear. -/
  | readLane (m : Moment)
  /-- CAMERA_MESSAGE (R38). Execution of CAMERA_MESSAGE, which appends a camera message to the lane's relay queue. -/
  | cameraMessage (m : Moment)
  /-- SET_RELAY (R39). Execution of SET_RELAY, which sets the double look and the relay timeout. -/
  | setRelay (m : Moment)
  /-- RELAY_FLUSH (R40). Execution of RELAY_FLUSH, which fails every queued relay message with FLUSHED. -/
  | relayFlush (m : Moment)
  /-- SET_REFRESH (R62). Execution of SET_REFRESH, which sets the refresh interval. -/
  | setRefresh (m : Moment)
  /-- LOAD_ANCHORS (R83). Execution of LOAD_ANCHORS, which replaces the lane's anchor table. -/
  | loadAnchors (m : Moment)
  /-- SET_STABILIZER (R84). Execution of SET_STABILIZER, which sets the lane's stabilizer settings. -/
  | setStabilizer (m : Moment)
  /-- READ_MOTION (R85). Execution of READ_MOTION, which returns the conditioning context or the anchor outcomes, with an optional counter clear. -/
  | readMotion (m : Moment)
  /-- SET_DUST (R105). Execution of SET_DUST, which sets the lane's dust settings. -/
  | setDust (m : Moment)
  /-- LOAD_TONE (R106). Execution of LOAD_TONE, which writes 64 entries of a pending tone table. -/
  | loadTone (m : Moment)
  /-- READ_DUST_MAP (R107). Execution of READ_DUST_MAP, which returns one tile row of the lane's tile table. -/
  | readDustMap (m : Moment)
  /-- SET_PURGE (R115). Execution of SET_PURGE, which sets the lane's purge settings. -/
  | setPurge (m : Moment)
  /-- PURGE_NOW (R116). Execution of PURGE_NOW, which starts a manual blow. -/
  | purgeNow (m : Moment)
  /-- PURGE_REARM (R117). Execution of PURGE_REARM, which returns a HALTED purge to IDLE. -/
  | purgeRearm (m : Moment)
  /-- LOAD_WINDOW (R132). Execution of LOAD_WINDOW, which writes a pending window record. -/
  | loadWindow (m : Moment)
  /-- CLEAR_WINDOW (R133). Execution of CLEAR_WINDOW, which disables a pending window record. -/
  | clearWindow (m : Moment)
  /-- LOAD_MARKS (R134). Execution of LOAD_MARKS, which replaces a pending mark set. -/
  | loadMarks (m : Moment)
  /-- COMMIT_TABLES (R135). Execution of COMMIT_TABLES, which requests the staged swap at the next output frame start. -/
  | commitTables (m : Moment)
  /-- SELECT_PAGE (R136). Execution of SELECT_PAGE, which sets the selected page. -/
  | selectPage (m : Moment)
  /-- SET_SUBSTITUTE (R137). Execution of SET_SUBSTITUTE, which sets the hold limit. -/
  | setSubstitute (m : Moment)
  /-- SET_RASTER (R152). Execution of SET_RASTER, which sets or withdraws the pending raster. -/
  | setRaster (m : Moment)
  /-- SET_TIMING (R153). Execution of SET_TIMING, which sets the timing mode, priority list, sync offset and free-run period. -/
  | setTiming (m : Moment)
  /-- SET_LANE_MODE (R176). Execution of SET_LANE_MODE, which sets the lane's mode and pattern. -/
  | setLaneMode (m : Moment)
  /-- INJECT_ERROR (R177). Execution of INJECT_ERROR, which sets the pending injected error of an INTERNAL lane. -/
  | injectError (m : Moment)
  /-- TEST_READ (R178). Execution of TEST_READ, which returns the checker status and clears the error count. -/
  | testRead (m : Moment)
deriving DecidableEq, Repr

end Sys2Proof
end

