-- ==== Sys2Proof/Machine/State.lean ====
section
/-! DEFINITION. The state of the part, as plain data, and the state right after power-on. -/

namespace Sys2Proof.Machine

/-- The state: the four lanes' blocks, the shared blocks, the DRAM, and the events that wait.
`now` is the tick of the last event (log 1), `resetAsserted` whether RESET_N is held asserted, `reverse` the level
of the REVERSE line at the last event, `jobs` the job queue whose head runs when its `run` is present, and
`pending` the queue of commands, first in, first out. -/
structure State where
  now : Nat
  resetAsserted : Bool
  reverse : Bool
  lanes : Four LaneBlocks
  jobs : List Job
  dram : List Host.Cell
  arb : Arbiter
  readBuffer : ReadBuffer
  tone : ToneTables
  comp : Compositor
  timing : Timing
  tx : Transmitter
  chan : CommandChannel
  pending : List Sys2Proof.Instr
deriving DecidableEq, Repr

/-- Why a step stops the machine. -/
inductive Fault where
  /-- A granted transfer reaches beyond the DRAM's 33,554,432 bytes (R41), an address the spec says does not exist.
  Raised by LANE_WRITE_COMPLETE, COMPOSITOR_FETCH_COMPLETE and CONDITIONING_READ_COMPLETE. Safe: the model stops
  where the part, in a state that no run reaches, would do something the spec does not say (log 18). -/
  | dramAddress
deriving DecidableEq, Repr

/-- Why a command is given no meaning. -/
inductive Refusal where
  /-- A row of the table that has no meaning yet, by its mnemonic. Raised by no arm: every row has its meaning.
  Safe. -/
  | notModelled (mnemonic : String)
deriving DecidableEq, Repr

/-- The machine right after power-on, with the reference clock running from tick 0: every block at its reset value
(R1, R27, R42, R64, R86, R108, R118, R139, R154, R170), the reset cause POWER_ON, DRAM initialisation running (R43)
and the output timer started (R139). Nothing waits. See log 5. -/
def State.reset : State where
  now := 0
  resetAsserted := false
  reverse := false
  lanes := Four.const .reset
  jobs := []
  dram := []
  arb := { Arbiter.reset with initDue := some initTicks }
  readBuffer := .reset
  tone := .reset
  comp := .reset
  timing := Timing.started 0
  tx := .reset
  chan := CommandChannel.reset .powerOn 0 none
  pending := []

end Sys2Proof.Machine
end

