-- ==== Sys2Proof/Machine/Flags.lean ====
section
/-! DEFINITION. The seventeen event flags and their reported marks (R161), numbered as R179 numbers them. -/

namespace Sys2Proof.Machine

/-- The event flags (09_command_channel_and_supervision.md section 9.5). -/
inductive EventFlag where
  | laneFault (n : Lane) | laneLockout (n : Lane) | lensSoiled (n : Lane)
  | cmdOverrun | cmdCheckError | reportDropped | outputUnderrun | heartbeatLost
deriving DecidableEq, Repr

/-- The flag's bit number in a set of event flags (R179). -/
def EventFlag.bit : EventFlag → Nat
  | .laneFault n => n.val
  | .laneLockout n => 4 + n.val
  | .lensSoiled n => 8 + n.val
  | .cmdOverrun => 12
  | .cmdCheckError => 13
  | .reportDropped => 14
  | .outputUnderrun => 15
  | .heartbeatLost => 16

/-- The set that holds this flag alone. -/
def EventFlag.mask (f : EventFlag) : BitVec 24 := BitVec.ofNat 24 (2 ^ f.bit)

/-- The set of all seventeen flags; bits 17 to 23 name none (R179). -/
def allFlags : BitVec 24 := 0x01FFFF

/-- Whether a flag is set. -/
def CommandChannel.isSet (c : CommandChannel) (f : EventFlag) : Bool := c.flags.getLsbD f.bit

/-- Whether a flag's reported mark is set. -/
def CommandChannel.isReported (c : CommandChannel) (f : EventFlag) : Bool := c.reported.getLsbD f.bit

/-- Raising a flag sets it and clears its reported mark, whether it was set before or not (R161). -/
def CommandChannel.raise (f : EventFlag) (c : CommandChannel) : CommandChannel :=
  { c with flags := c.flags ||| f.mask, reported := c.reported &&& ~~~f.mask }

/-- At a status line event every flag that is set is marked reported (R150, R161). -/
def CommandChannel.markReported (c : CommandChannel) : CommandChannel :=
  { c with reported := c.reported ||| c.flags }

/-- CLEAR_FLAGS clears the named flags that are set and reported (R161, R168). -/
def CommandChannel.clearNamed (named : BitVec 24) (c : CommandChannel) : CommandChannel :=
  { c with
    flags := c.flags &&& ~~~(named &&& c.reported)
    reported := c.reported &&& ~~~(named &&& c.reported) }

end Sys2Proof.Machine
end

