-- ==== Sys2Proof/Machine/Ops.lean ====
section
/-! DEFINITION. The named operations on the state that every block shares: the moment of an event, the reading and
changing of one block, the notice queue (R158) and the raising of flags. -/

namespace Sys2Proof.Machine

/-! ### The moment of an event -/

/-- An event falls at its moment: time does not run backwards, and the REVERSE line has the level it then has
(log 1). -/
def State.advance (m : Moment) (s : State) : State :=
  { s with now := max s.now m.tick, reverse := m.reverse }

/-- Whether a timer kept as its expiry tick has expired at tick `now` (00_scope.md section 4.5). A stopped timer never
has. -/
def expired (due : Option Nat) (now : Nat) : Bool :=
  match due with
  | some d => d ≤ now
  | none => false

/-- The answer of an event: every event of this part has a next state but where a transfer leaves the DRAM (log 18). -/
abbrev Result := Host.Outcome State Fault Refusal

/-- An event that the running part makes by itself or takes from a lane: time passes to its moment, and it acts when
RESET_N is not asserted and the event is due (log 2, log 6). -/
def State.onEvent (m : Moment) (due : State → Bool) (act : State → State) (s : State) : State :=
  if !(s.advance m).resetAsserted && due (s.advance m) then act (s.advance m) else s.advance m

/-! ### One block -/

/-- The blocks of lane `n`. -/
def State.lane (s : State) (n : Lane) : LaneBlocks := s.lanes.get n

/-- Change the blocks of lane `n`. -/
def State.modLane (n : Lane) (f : LaneBlocks → LaneBlocks) (s : State) : State :=
  { s with lanes := s.lanes.modify n f }

/-- Change lane `n`'s Lane Receiver. -/
def State.modRx (n : Lane) (f : Receiver → Receiver) (s : State) : State :=
  s.modLane n fun l => { l with rx := f l.rx }

/-- Change lane `n`'s relay context. -/
def State.modRelay (n : Lane) (f : Relay → Relay) (s : State) : State :=
  s.modLane n fun l => { l with relay := f l.relay }

/-- Change lane `n`'s slot ring and write path. -/
def State.modStore (n : Lane) (f : LaneStore → LaneStore) (s : State) : State :=
  s.modLane n fun l => { l with store := f l.store }

/-- Change lane `n`'s conditioning context. -/
def State.modMotion (n : Lane) (f : Motion → Motion) (s : State) : State :=
  s.modLane n fun l => { l with motion := f l.motion }

/-- Change lane `n`'s part of the Dust Monitor. -/
def State.modDust (n : Lane) (f : Dust → Dust) (s : State) : State :=
  s.modLane n fun l => { l with dust := f l.dust }

/-- Change lane `n`'s Purge Controller. -/
def State.modPurge (n : Lane) (f : Purge → Purge) (s : State) : State :=
  s.modLane n fun l => { l with purge := f l.purge }

/-- Change lane `n`'s Link Test Unit. -/
def State.modTest (n : Lane) (f : LinkTest → LinkTest) (s : State) : State :=
  s.modLane n fun l => { l with test := f l.test }

/-- Change the store arbiter. -/
def State.modArb (f : Arbiter → Arbiter) (s : State) : State := { s with arb := f s.arb }

/-- Change the Compositor. -/
def State.modComp (f : Compositor → Compositor) (s : State) : State := { s with comp := f s.comp }

/-- Change the Output Timing Generator. -/
def State.modTiming (f : Timing → Timing) (s : State) : State := { s with timing := f s.timing }

/-- Change the Command Channel. -/
def State.modChan (f : CommandChannel → CommandChannel) (s : State) : State := { s with chan := f s.chan }

/-- Change lane `n`'s lane counters. -/
def State.modCounters (n : Lane) (f : LaneCounters → LaneCounters) (s : State) : State :=
  s.modRx n fun r => { r with counters := f r.counters }

/-! ### Flags and notices -/

/-- Raise an event flag (R161). -/
def State.raise (f : EventFlag) (s : State) : State := s.modChan (CommandChannel.raise f)

/-- The entries of the notice queue (R154). -/
def noticeCapacity : Nat := 16

/-- The entries of the command queue (R155). -/
def commandCapacity : Nat := 16

/-- A reply enters the notice queue at the execution of its command (R156, R158). -/
def State.pushNotice (nt : Notice) (s : State) : State :=
  s.modChan fun c => { c with notices := c.notices ++ [nt] }

/-- A report is offered to the Command Channel: it enters at the tail when at least 4 entries are free, and is
otherwise dropped and counted, and REPORT_DROPPED is raised (R158). -/
def State.offer (nt : Notice) (s : State) : State :=
  if s.chan.notices.length + 4 ≤ noticeCapacity then s.pushNotice nt
  else (s.modChan fun c =>
    { c with counters := { c.counters with reportsDropped := count c.counters.reportsDropped 1 } }).raise .reportDropped

/-- Reports of one event are offered one by one in order (R37, R158). -/
def State.offerAll (l : List Notice) (s : State) : State := l.foldl (fun s nt => s.offer nt) s

/-! ### The execution that is due (R156) -/

/-- The row of a message's execution: that of its command number, UNKNOWN_COMMAND for a number that is none of 1 to 35
(R157, section 9.8). -/
def CmdMessage.execution (m : Moment) (c : CmdMessage) : Instr :=
  match c.number.toNat with
  | 1 => .heartbeat m
  | 2 => .resume m
  | 3 => .restart m
  | 4 => .setSupervision m
  | 5 => .clearFlags m
  | 6 => .readCounters m
  | 7 => .cameraConfig m
  | 8 => .setLaneLimits m
  | 9 => .cameraRestart m
  | 10 => .cameraRearm m
  | 11 => .readLane m
  | 12 => .cameraMessage m
  | 13 => .setRelay m
  | 14 => .relayFlush m
  | 15 => .setRefresh m
  | 16 => .loadAnchors m
  | 17 => .setStabilizer m
  | 18 => .readMotion m
  | 19 => .setDust m
  | 20 => .loadTone m
  | 21 => .readDustMap m
  | 22 => .setPurge m
  | 23 => .purgeNow m
  | 24 => .purgeRearm m
  | 25 => .loadWindow m
  | 26 => .clearWindow m
  | 27 => .loadMarks m
  | 28 => .commitTables m
  | 29 => .selectPage m
  | 30 => .setSubstitute m
  | 31 => .setRaster m
  | 32 => .setTiming m
  | 33 => .setLaneMode m
  | 34 => .injectError m
  | 35 => .testRead m
  | _ => .unknownCommand m

/-- The execution that is due with these messages queued and so many notices: that of the oldest message, when at least
one notice entry is free (R156). -/
def executionDue (m : Moment) (queue : List CmdMessage) (notices : Nat) : List Instr :=
  if notices < noticeCapacity then (queue.take 1).map (CmdMessage.execution m) else []

/-- The execution that is due comes next: its row takes the front of the queue of events, at this moment (R156; log 29).
An event that may make one due ends with it: an arrival, an execution, a status line event. -/
def State.bringExecution (s : State) : State :=
  { s with pending := executionDue ⟨s.now, s.reverse⟩ s.chan.queue s.chan.notices.length ++ s.pending }

/-! ### Pins that follow the state (log 31) -/

/-- PURGEn is asserted exactly while lane n's purge state is PULSE (R109). -/
def State.purgeLine (s : State) (n : Lane) : Bool := (s.lane n).purge.state == .pulse

/-- FAULT is asserted while supervision is LIMP or any lane is LOCKED_OUT (R164). -/
def State.faultLine (s : State) : Bool :=
  s.chan.supervision == .limp || s.lanes.toList.any fun l => l.rx.state == .lockedOut

end Sys2Proof.Machine
end

