-- ==== Sys2Proof/Machine/Operands.lean ====
section
/-! DEFINITION. The operands of commands and the data of notices: the codes of the enumerations (R179, section 11.5),
the reading of payload fields (R182), and the layout of a notice (R183). -/

namespace Sys2Proof.Machine

/-! ### Enumerations: codes by position from 0 -/

def LaneState.code : LaneState → Nat
  | .off => 0 | .searching => 1 | .acquiring => 2 | .locked => 3 | .faulted => 4 | .silent => 5 | .lockedOut => 6

def LaneMode.code : LaneMode → Nat
  | .normal => 0 | .check => 1 | .internal => 2

def LaneMode.ofCode : Nat → Option LaneMode
  | 0 => some .normal | 1 => some .check | 2 => some .internal | _ => none

def Pattern.code : Pattern → Nat
  | .short => 0 | .long => 1

def Pattern.ofCode : Nat → Option Pattern
  | 0 => some .short | 1 => some .long | _ => none

def GeometryMode.code : GeometryMode → Nat
  | .auto => 0 | .fixed => 1

def GeometryMode.ofCode : Nat → Option GeometryMode
  | 0 => some .auto | 1 => some .fixed | _ => none

def PurgeState.code : PurgeState → Nat
  | .idle => 0 | .pulse => 1 | .settle => 2 | .cooldown => 3 | .halted => 4

def Supervision.code : Supervision → Nat
  | .startup => 0 | .active => 1 | .limp => 2

def ResetCause.code : ResetCause → Nat
  | .powerOn => 0 | .pin => 1 | .restartCommand => 2

def TimingMode.code : TimingMode → Nat
  | .auto => 0 | .fixed _ => 1 | .free => 2

def Raster.code : Raster → Nat
  | .r1280x800 => 0 | .r1024x600 => 1 | .r800x480 => 2

def Raster.ofCode : Nat → Option Raster
  | 0 => some .r1280x800 | 1 => some .r1024x600 | 2 => some .r800x480 | _ => none

def Scale.ofCode : Nat → Option Scale
  | 0 => some .one | 1 => some .down | 2 => some .up | _ => none

def Anchoring.ofCode : Nat → Option Anchoring
  | 0 => some .view | 1 => some .camera | _ => none

def MarkMode.ofCode : Nat → Option MarkMode
  | 0 => some .opaqueMark | 1 => some .half | _ => none

/-- READ_MOTION's sections (R85). -/
inductive MotionSection where
  | context | anchorsLow | anchorsHigh
deriving DecidableEq, Repr

def MotionSection.ofCode : Nat → Option MotionSection
  | 0 => some .context | 1 => some .anchorsLow | 2 => some .anchorsHigh | _ => none

def ReplyCode.code : ReplyCode → Nat
  | .ok => 0 | .clamped => 1 | .busy => 2 | .badArg => 3 | .badLength => 4 | .unknown => 5 | .wrongState => 6
  | .laneDown => 7 | .full => 8

def NoticeKind.code : NoticeKind → Nat
  | .reply => 0 | .laneState => 1 | .relayDone => 2 | .relayFailed => 3 | .purge => 4 | .windowDisabled => 5
  | .supervision => 6 | .timing => 7

/-- Why a relay message failed (R37). -/
inductive RelayReason where
  | timeout | aborted | laneDown | overlong | flushed
deriving DecidableEq, Repr

def RelayReason.code : RelayReason → Nat
  | .timeout => 0 | .aborted => 1 | .laneDown => 2 | .overlong => 3 | .flushed => 4

/-- The causes of a LANE_STATE report (R19). -/
inductive LaneCause where
  | enabled | disabled | acquired | lock | health | silence | recovery | cameraRestart | cameraRearm | mode
deriving DecidableEq, Repr

def LaneCause.code : LaneCause → Nat
  | .enabled => 0 | .disabled => 1 | .acquired => 2 | .lock => 3 | .health => 4 | .silence => 5 | .recovery => 6
  | .cameraRestart => 7 | .cameraRearm => 8 | .mode => 9

/-- The causes of a STARTED report (R114). -/
inductive PurgeCause where
  | auto | repeated | manual
deriving DecidableEq, Repr

def PurgeCause.code : PurgeCause → Nat
  | .auto => 0 | .repeated => 1 | .manual => 2

/-- The causes of a TIMING report (R148). -/
inductive TimingCause where
  | selected | flywheel | laneLeft | settings
deriving DecidableEq, Repr

def TimingCause.code : TimingCause → Nat
  | .selected => 0 | .flywheel => 1 | .laneLeft => 2 | .settings => 3

def AnchorOutcome.code : AnchorOutcome → Nat
  | .accepted => 0 | .disabled => 1 | .outside => 2 | .notClear => 3 | .damaged => 4 | .lowContrast => 5
  | .highSad => 6 | .notEvaluated => 7

def MeasureResult.code : MeasureResult → Nat
  | .valid => 0 | .void => 1

def CheckerState.code : CheckerState → Nat
  | .hunt => 0 | .sync => 1

/-- A tile's condition in READ_DUST_MAP (R107): UNINIT, CLEAR or DUSTY. -/
def TileRecord.condition (t : TileRecord) : Nat :=
  if !t.initialised then 0 else match t.state with | .clear => 1 | .dusty => 2

/-- The bytes of a one-byte field that may be none: 255 for none (R179). -/
def optByte1 : Option Nat → List Byte
  | some n => byte1 n
  | none => [0xFF]

/-- The bytes of a two-byte field that may be none: 65535 for none (R179). -/
def optByte2 : Option Nat → List Byte
  | some n => byte2 n
  | none => [0xFF, 0xFF]

/-- The bytes of a four-byte field that may be none: all ones for none (R179). -/
def optByte4 : Option Nat → List Byte
  | some n => byte4 n
  | none => [0xFF, 0xFF, 0xFF, 0xFF]

/-- The bytes of a geometry: width and height (R183). -/
def Geometry.bytes (g : Geometry) : List Byte := byte2 g.w ++ byte2 g.h

/-- The bytes of a geometry that may be none. -/
def optGeometry : Option Geometry → List Byte
  | some g => g.bytes
  | none => [0xFF, 0xFF, 0xFF, 0xFF]

/-! ### Payload fields (R182) -/

/-- The lane a one-byte field names, none above 3. -/
def laneArg (p : List Byte) (i : Nat) : Option Lane :=
  if h : byteAt p i < 4 then some ⟨byteAt p i, h⟩ else none

/-- An on/off field: 0 off, 1 on, none otherwise. -/
def onOffArg (p : List Byte) (i : Nat) : Option Bool :=
  match byteAt p i with
  | 0 => some false
  | 1 => some true
  | _ => none

/-- A two-byte or one-byte number clamped to its range, and whether that changed it. -/
structure Clamped where
  value : Nat
  changed : Bool
deriving DecidableEq, Repr

def clampArg (lo hi x : Nat) : Clamped := ⟨clampNat lo hi x, clampNat lo hi x != x⟩

/-- CLAMPED when any value was clamped, OK otherwise (R157). -/
def clampCode (changed : List Bool) : ReplyCode := if changed.any id then .clamped else .ok

/-! ### Notices -/

/-- A report of this kind that follows from `origin`, with its data (R183). -/
def Notice.report (kind : NoticeKind) (origin : Origin) (data : List Byte) : Notice := ⟨kind, origin, .ok, data⟩

/-- A notice's bytes: kind, command number, tag, tag present, reply code, data length, data (section 11.5). -/
def Notice.bytes (nt : Notice) : List Byte :=
  byte1 nt.kind.code
    ++ (match nt.origin with
        | some (number, tag) => byte1 number ++ [tag, 1]
        | none => [0, 0, 0])
    ++ byte1 nt.code.code ++ byte1 nt.data.length ++ nt.data

/-- A LANE_STATE report (R19). -/
def laneStateReport (n : Lane) (previous new : LaneState) (cause : LaneCause) (health attempts : Nat)
    (origin : Origin) : Notice :=
  .report .laneState origin
    (byte1 n.val ++ byte1 previous.code ++ byte1 new.code ++ byte1 cause.code ++ byte1 health ++ byte1 attempts)

/-- The reply to command `c` (section 9.1). -/
def CmdMessage.reply (c : CmdMessage) (code : ReplyCode) (data : List Byte) : Notice :=
  ⟨.reply, some (c.number.toNat, c.tag), code, data⟩

/-- The origin of a report that follows from command `c`. -/
def CmdMessage.origin (c : CmdMessage) : Origin := some (c.number.toNat, c.tag)

/-- The bytes of the seventeen lane counters in R21's order. -/
def LaneCounters.bytes (k : LaneCounters) : List Byte :=
  [k.packetsReceived, k.headerErrors, k.payloadErrors, k.sequenceErrors, k.frameNumberErrors, k.geometryErrors,
    k.periodErrors, k.bufferOverflows, k.damagedLines, k.framesStarted, k.framesDiscarded, k.framesSkipped,
    k.framesDropped, k.locks, k.faults, k.silences, k.lockouts].flatMap byte4

/-- The bytes of the six device counters in R162's order. -/
def DeviceCounters.bytes (k : DeviceCounters) : List Byte :=
  [k.accepted, k.checkErrors, k.overruns, k.reportsDropped, k.underruns, k.heartbeatLosses].flatMap byte4

/-- The bytes of the five motion counters in R82's order. -/
def MotionCounters.bytes (k : MotionCounters) : List Byte :=
  [k.jobsCompleted, k.validResults, k.voidResults, k.frozenJobs, k.jobsAbandoned].flatMap byte4

end Sys2Proof.Machine
end

