-- ==== Sys2Proof/Machine/ChannelEvents.lean ====
section
/-! DEFINITION. The back-lane receiver and the command queue's tail (R155, R181), and the heartbeat timer (R160). -/

namespace Sys2Proof.Machine

/-! ### Judging a message (R155) -/

/-- The start byte of a command message (section 11.3). -/
def startByte : Byte := 0x7E

/-- The longest payload of a command message. -/
def payloadMax : Nat := 72

/-- How long the gap timer counts, in ticks (R181). -/
def gapTicks : Nat := msTicks 1

/-- A message discarded for a check error: counted, and CMD_CHECK_ERROR raised (R155). -/
def CommandChannel.checkError (c : CommandChannel) : CommandChannel :=
  { c with counters := { c.counters with checkErrors := count c.counters.checkErrors 1 } }.raise .cmdCheckError

/-- The arrival of a well-formed message restarts a running heartbeat timer (R155, R160). -/
def CommandChannel.restartHeartbeat (now : Nat) (c : CommandChannel) : CommandChannel :=
  { c with heartbeatDue := c.heartbeatDue.map fun _ => now + msTicks c.heartbeatPeriod }

/-- A well-formed message: dropped for overrun with 16 queued, otherwise appended, and HOLD is set at a depth of 12
(R155). -/
def CommandChannel.accept (now : Nat) (msg : CmdMessage) (c : CommandChannel) : CommandChannel :=
  let c := c.restartHeartbeat now
  if commandCapacity ≤ c.queue.length then
    { c with counters := { c.counters with overruns := count c.counters.overruns 1 } }.raise .cmdOverrun
  else
    { c with
      queue := c.queue ++ [msg], hold := c.hold || 12 ≤ c.queue.length + 1
      counters := { c.counters with accepted := count c.counters.accepted 1 } }

/-- A whole message, start byte first: its check covers the command number to the last payload byte (R179, R181). -/
def messageGood (bytes : List Byte) : Bool :=
  crcBytes ((bytes.drop 1).take (bytes.length - 3)) == bytes.drop (bytes.length - 2)

/-- The command number, tag and payload of a whole message (section 11.3). -/
def messageOf (bytes : List Byte) : CmdMessage :=
  ⟨bytes.getD 1 0, bytes.getD 2 0, (bytes.drop 4).take (bytes.length - 6)⟩

/-- A message that has arrived whole (R155, R181). -/
def CommandChannel.judge (now : Nat) (bytes : List Byte) (c : CommandChannel) : CommandChannel :=
  if messageGood bytes then c.accept now (messageOf bytes) else c.checkError

/-! ### Framing (R181) -/

/-- The back-lane receiver takes one byte (R181): in idle it hunts for a start byte; in a message it takes the length,
and judges the message when it is whole. -/
def CommandChannel.takeByte (now : Nat) (c : CommandChannel) (b : Byte) : CommandChannel :=
  match c.receiver with
  | .idle => if b = startByte then { c with receiver := .inProgress [b] (now + gapTicks) } else c
  | .inProgress bytes _ =>
    let taken := bytes ++ [b]
    if taken.length = 4 ∧ payloadMax < b.toNat then { c with receiver := .idle }.checkError
    else if 4 ≤ taken.length ∧ taken.length = 6 + byteAt taken 3 then { c with receiver := .idle }.judge now taken
    else { c with receiver := .inProgress taken (now + gapTicks) }

/-- A message is in progress (R181). -/
def BackLane.busy : BackLane → Bool
  | .inProgress _ _ => true
  | .idle => false

/-- A run of bytes arrives on the cab command lane, up to the last byte of its first message; the bytes after it are
answered with (log 9). -/
def CommandChannel.takeRun (now : Nat) : List Byte → CommandChannel → CommandChannel × List Byte
  | [], c => (c, [])
  | b :: rest, c =>
    let taken := c.takeByte now b
    if c.receiver.busy && !taken.receiver.busy then (taken, rest) else CommandChannel.takeRun now rest taken

/-- Bytes that arrived in one run with a message that has ended arrive next (log 9). -/
def State.bringBytes (bytes : List Byte) (s : State) : State :=
  match bytes with
  | [] => s
  | _ :: _ => { s with pending := .commandMessageArrival ⟨s.now, s.reverse⟩ bytes :: s.pending }

/-- A run of bytes arrives on the cab command lane: its first message is taken, and the execution that is then due comes
before the bytes that follow it (R155, R156, R181). -/
def State.takeArrival (bytes : List Byte) (s : State) : State :=
  let taken := CommandChannel.takeRun s.now bytes s.chan
  (({ s with chan := taken.1 }).bringBytes taken.2).bringExecution

/-- COMMAND_MESSAGE_ARRIVAL (R155, R156, R181). -/
def execCommandMessageArrival (m : Moment) (bytes : List Byte) (s : State) : Result :=
  .next (s.onEvent m (fun _ => true) (State.takeArrival bytes))

/-- Whether a message in progress has waited 1 ms for its next byte (R181). -/
def BackLane.gapOver (now : Nat) : BackLane → Bool
  | .inProgress _ due => due ≤ now
  | .idle => false

/-- BACKLANE_GAP_TIMEOUT: the message in progress is discarded as a check error (R181). -/
def execBacklaneGapTimeout (m : Moment) (s : State) : Result :=
  .next (s.onEvent m (fun s => s.chan.receiver.gapOver s.now) fun s =>
    s.modChan fun c => { c with receiver := .idle }.checkError)

/-! ### Heartbeat (R160) -/

/-- A SUPERVISION report: previous state, new state, heartbeat period, heartbeat loss count (R160). -/
def supervisionReport (previous : Supervision) (c : CommandChannel) : Notice :=
  .report .supervision none (byte1 previous.code ++ byte1 c.supervision.code ++ byte2 c.heartbeatPeriod
    ++ byte4 c.counters.heartbeatLosses)

/-- The terminal is judged silent (R160). -/
def State.loseTerminal (s : State) : State :=
  let previous := s.chan.supervision
  let s := (s.modChan fun c =>
    { c with
      supervision := .limp, heartbeatDue := none
      counters := { c.counters with heartbeatLosses := count c.counters.heartbeatLosses 1 } }).raise .heartbeatLost
  s.offer (supervisionReport previous s.chan)

/-- HEARTBEAT_TIMER_EXPIRY (R160). -/
def execHeartbeatTimerExpiry (m : Moment) (s : State) : Result :=
  .next (s.onEvent m (fun s => s.chan.supervision == .active && expired s.chan.heartbeatDue s.now) State.loseTerminal)

end Sys2Proof.Machine
end

