-- ==== Sys2Proof/Machine/Execution.lean ====
section
/-! DEFINITION. The execution of the oldest command message (R156, R157): when it may be taken, how it leaves the queue,
and its reply. -/

namespace Sys2Proof.Machine

/-- Whether the oldest message of the command queue is this one, and may be executed: at least one notice entry is free
(R156). -/
def State.executes (s : State) (named : CmdMessage → Bool) (c : CmdMessage) : Bool :=
  !s.resetAsserted && named c && s.chan.notices.length < noticeCapacity

/-- The message leaves the queue; HOLD is cleared when the depth is then 4 (R156). -/
def CommandChannel.dequeue (c : CommandChannel) : CommandChannel :=
  { c with queue := c.queue.drop 1, hold := c.hold && (c.queue.drop 1).length != 4 }

/-- One execution: the message at the head of the queue, when it is one that `named` names and may be executed, leaves the
queue and its command is carried out (R156; log 2, log 29). -/
def State.execute (m : Moment) (named : CmdMessage → Bool) (body : CmdMessage → State → State) (s : State) : State :=
  match (s.advance m).chan.queue with
  | [] => s.advance m
  | c :: _ =>
    if (s.advance m).executes named c then body c ((s.advance m).modChan CommandChannel.dequeue) else s.advance m

/-- The message carries command number `k` (section 9.8). -/
def CmdMessage.is (k : Nat) (c : CmdMessage) : Bool := c.number.toNat == k

/-- The command number is none of 1 to 35 (R157). -/
def CmdMessage.unnamed (c : CmdMessage) : Bool := c.number.toNat == 0 || 35 < c.number.toNat

/-- The reply enters the notice queue, and the execution of the next message is due while an entry is free (R156).
Reports that the event still offers leave one free, since they take none of the last three (R158). -/
def State.answer (c : CmdMessage) (code : ReplyCode) (data : List Byte) (s : State) : State :=
  (s.pushNotice (c.reply code data)).bringExecution

/-- A refused command writes nothing, and its reply carries only the code (R157). -/
def State.refuse (c : CmdMessage) (code : ReplyCode) (s : State) : State := s.answer c code []

/-- Check 2: the payload has this length (R157, R182). -/
def State.ofLength (k : Nat) (c : CmdMessage) (body : State → State) (s : State) : State :=
  if c.payload.length = k then body s else s.refuse c .badLength

/-- Check 3 on a lane in the first payload byte (R157). -/
def State.ofLane (c : CmdMessage) (body : Lane → State → State) (s : State) : State :=
  match laneArg c.payload 0 with
  | some n => body n s
  | none => s.refuse c .badArg

/-- Check 3 on a field that has a list of values (R157, R182). -/
def State.ofField {α : Type} (field : Option α) (c : CmdMessage) (body : α → State → State) (s : State) : State :=
  match field with
  | some a => body a s
  | none => s.refuse c .badArg

/-- A check that refuses with its code unless the condition holds (R157). -/
def State.unless (ok : Bool) (code : ReplyCode) (c : CmdMessage) (body : State → State) (s : State) : State :=
  if ok then body s else s.refuse c code

/-- UNKNOWN_COMMAND: answered with UNKNOWN (R157). -/
def execUnknownCommand (m : Moment) (s : State) : Result :=
  .next (s.execute m CmdMessage.unnamed fun c s => s.refuse c .unknown)

end Sys2Proof.Machine
end

