-- ==== Sys2Proof/Machine/Packet.lean ====
section
/-! DEFINITION. The camera line packet (R180, section 11.2). -/

namespace Sys2Proof.Machine

inductive PacketKind where
  | frameStart | line | frameEnd
deriving DecidableEq, Repr

/-- The relay fields of a packet header (section 2.2). -/
structure RelayFields where
  ack : Bool
  reply : Byte
  replyToggle : Bool
  replyEnd : Bool
  abort : Bool
deriving DecidableEq, Repr

/-- A packet with a good header. `word1` is the announced width or the line number, `word3` the announced height;
`payloadOk` says that the check over the payload passes. -/
structure Packet where
  kind : PacketKind
  number : Nat
  word1 : Nat
  word3 : Nat
  relay : RelayFields
  payload : List Byte
  payloadOk : Bool
deriving DecidableEq, Repr

/-- The bytes of a header that its check covers, and the two check bytes (R179). -/
def headerGood (bytes : List Byte) : Bool :=
  crcBytes (bytes.take 7) == (bytes.drop 7).take 2

/-- Header byte 6 and byte 5 as relay fields; bits 3 to 0 are not read (R180). -/
def relayFields (bytes : List Byte) : RelayFields where
  ack := bitOf (bytes.getD 6 0) 7
  reply := bytes.getD 5 0
  replyToggle := bitOf (bytes.getD 6 0) 6
  replyEnd := bitOf (bytes.getD 6 0) 5
  abort := bitOf (bytes.getD 6 0) 4

/-- The kind in bits 7 to 4 of byte 0, none for any other (R180). -/
def packetKind (bytes : List Byte) : Option PacketKind :=
  match byteAt bytes 0 / 16 with
  | 1 => some .frameStart
  | 2 => some .line
  | 3 => some .frameEnd
  | _ => none

/-- The payload of a LINE: every byte from byte 9 up to the last two (R180). -/
def linePayload (bytes : List Byte) : List Byte := (bytes.drop 9).take (bytes.length - 11)

/-- Parse a packet; none is a bad header (R180). -/
def parsePacket (bytes : List Byte) : Option Packet :=
  if bytes.length < 9 || !headerGood bytes then none
  else match packetKind bytes with
    | none => none
    | some .line =>
      if bytes.length < 11 then none
      else some
        { kind := .line, number := byteAt bytes 0 % 16, word1 := wordAt bytes 1, word3 := 0,
          relay := relayFields bytes, payload := linePayload bytes,
          payloadOk := crcBytes (linePayload bytes) == bytes.drop (bytes.length - 2) }
    | some kind =>
      if bytes.length = 9 then some
        { kind := kind, number := byteAt bytes 0 % 16, word1 := wordAt bytes 1, word3 := wordAt bytes 3,
          relay := relayFields bytes, payload := [], payloadOk := true }
      else none

/-- The relay fields of a generated packet: zero (R173). They are not read (R28). -/
def RelayFields.zero : RelayFields := ⟨false, 0, false, false, false⟩

/-- The payload check of a LINE passes when the check over the payload passes and the payload has 2W bytes, W
the width of the acquisition geometry (R2). -/
def Packet.payloadGood (p : Packet) (acquisition : Option Geometry) : Bool :=
  p.payloadOk && (match acquisition with
    | some g => p.payload.length == 2 * g.w
    | none => false)

/-- A packet with a good check: a good header and, for a LINE, a good payload check (R2). -/
def Packet.goodCheck (p : Packet) (acquisition : Option Geometry) : Bool :=
  match p.kind with
  | .line => p.payloadGood acquisition
  | _ => true

/-- The luma of pixel `x` of a line's bytes: luma first, then chroma (section 4.4, R41). -/
def lumaAt (line : List Byte) (x : Nat) : Nat := byteAt line (2 * x)

end Sys2Proof.Machine
end

