-- ==== Sys2Proof/Machine/Dust.lean ====
section
/-! DEFINITION. The Dust Monitor (05_dust_classification_and_tone.md): the tile accumulator (R87 to R89), stage 2
(R90 to R96) and stage 5 (R97 to R101) of a job, and the tile table's layout (R102). -/

namespace Sys2Proof.Machine

/-! ### Statistics sets -/

/-- A set just started for a frame: every sum and valid line count 0 (R88). -/
def StatSet.start (number : Nat) (g : Geometry) : StatSet where
  number := number
  geometry := g
  valid := List.replicate (g.h / 32) 0
  luma := List.replicate g.tiles 0
  detail := List.replicate g.tiles 0

/-- |a − b|. -/
def absDiff (a b : Nat) : Nat := if a ≤ b then b - a else a - b

/-- The sum of the 64 luma samples of tile column `c` of a line (R87). -/
def tileLuma (line : List Byte) (c : Nat) : Nat :=
  ((List.range 64).map fun i => lumaAt line (64 * c + i)).sum

/-- The sum of |Y(x+1) − Y(x)| over the 63 neighbouring pairs inside tile column `c` (R87). -/
def tileDetail (line : List Byte) (c : Nat) : Nat :=
  ((List.range 63).map fun i => absDiff (lumaAt line (64 * c + i + 1)) (lumaAt line (64 * c + i))).sum

/-- Add to the entries of tile row `row` of a list of `cols` columns (tile order). -/
def addRow (cols row : Nat) (f : Nat → Nat) (l : List Nat) : List Nat :=
  l.mapIdx fun i v => if i / cols = row then v + f (i % cols) else v

/-- Line `y` is added to the set (R87). -/
def StatSet.addLine (y : Nat) (line : List Byte) (t : StatSet) : StatSet :=
  { t with
    valid := t.valid.mapIdx fun i v => if i = y / 32 then v + 1 else v
    luma := addRow (t.geometry.w / 64) (y / 32) (tileLuma line) t.luma
    detail := addRow (t.geometry.w / 64) (y / 32) (tileDetail line) t.detail }

/-- A frame opening starts a new gathering set (R88). -/
def Dust.openSet (number : Nat) (g : Geometry) (d : Dust) : Dust :=
  { d with gathering := some (StatSet.start number g) }

/-- The buffer takes a line: it is added to the gathering set (R87). -/
def Dust.gather (y : Nat) (line : List Byte) (d : Dust) : Dust :=
  { d with gathering := d.gathering.map (StatSet.addLine y line) }

/-- An abandonment, or a close with no slot, discards the gathering set (R88). -/
def Dust.dropGathering (d : Dust) : Dust := { d with gathering := none }

/-- A close makes the gathering set the closed set (R88). -/
def Dust.closeGathering (d : Dust) : Dust := { d with closedSet := d.gathering, gathering := none }

/-- A commit that frees the slot discards the closed set (R89). -/
def Dust.dropClosed (d : Dust) : Dust := { d with closedSet := none }

/-- A commit to conditioning makes the closed set the job set (R89). -/
def Dust.promoteClosed (d : Dust) : Dust := { d with jobSet := d.closedSet, closedSet := none }

/-- The job has left the queue: its set is discarded (R89). -/
def Dust.dropJob (d : Dust) : Dust := { d with jobSet := none }

/-- A lane down discards all three sets (R89). -/
def Dust.dropSets (d : Dust) : Dust := { d with gathering := none, closedSet := none, jobSet := none }

/-- A geometry change lays out the tile table anew: level and band 0, settings kept (R102). -/
def Dust.layout (g : Geometry) (d : Dust) : Dust :=
  { d with table := List.replicate g.tiles .fresh, level := 0, band := 0 }

/-! ### Stage 2: classification -/

/-- The test that makes a CLEAR tile DUSTY (R92), on mean μ and activity A. -/
def becomesDusty (k : DustSettings) (t : TileRecord) (mu act : Nat) : Bool :=
  t.mean + 16 * k.trise ≤ 16 * mu && 256 * act ≤ t.activity * k.kdrop

/-- The test that keeps a DUSTY tile DUSTY (R93). -/
def staysDusty (k : DustSettings) (t : TileRecord) (mu act : Nat) : Bool :=
  t.mean + 8 * k.trise ≤ 16 * mu && 256 * act ≤ t.activity * (k.kdrop + 2)

/-- The target gain of a DUSTY tile (R96). -/
def dustyTarget (k : DustSettings) (background act : Nat) : Nat :=
  clampNat 16 k.gmax (background / max act 1)

/-- A measured tile: initialised (R91), or tested, with background, age, last mean and target gain (R92 to R96). -/
def classifyMeasured (k : DustSettings) (t : TileRecord) (mu act : Nat) : TileClass :=
  if !t.initialised then
    ⟨{ t with initialised := true, state := .clear, mean := 16 * mu, activity := 16 * act, age := 0, lastMean := mu },
      16⟩
  else
    let dusty := match t.state with
      | .clear => becomesDusty k t mu act
      | .dusty => staysDusty k t mu act
    if dusty then
      ⟨{ t with state := .dusty, age := satAdd 255 t.age 1, lastMean := mu }, dustyTarget k t.activity act⟩
    else
      ⟨{ t with
          state := .clear, age := 0, lastMean := mu
          mean := foldEighth t.mean (16 * mu), activity := foldEighth t.activity (16 * act) }, 16⟩

/-- One tile at stage 2: measured by μ = floor(luma / 64v) and A = floor(detail / 63v), or skipped when v is 0 (R90,
R96). -/
def classifyTile (k : DustSettings) (t : TileRecord) (v luma detail : Nat) : TileClass :=
  if v = 0 then ⟨t, t.gain⟩ else classifyMeasured k t (luma / (64 * v)) (detail / (63 * v))

/-- Stage 2 of a job that is not frozen: each tile of the table against the job set, in tile order (R90). -/
def classify (k : DustSettings) (set : StatSet) (table : List TileRecord) : List TileClass :=
  table.mapIdx fun i t =>
    classifyTile k t (set.valid.getD (i / (set.geometry.w / 64)) 0) (set.luma.getD i 0) (set.detail.getD i 0)

/-! ### Stage 5 -/

/-- The applied gain moves toward its target by at most 4 (R97). -/
def slewGain (gain target : Nat) : Nat :=
  if gain < target then min target (gain + 4) else max target (gain - 4)

/-- The tile's record with its applied gain after the slew (R97). -/
def TileClass.settled (c : TileClass) : TileRecord := { c.record with gain := slewGain c.record.gain c.target }

/-- The dust level of a table: floor(256 × DUSTY tiles / tiles) (R98). -/
def dustLevel (table : List TileRecord) : Nat :=
  256 * table.countP (fun t => t.state == .dusty) / table.length

/-- B1, B2 and B3 by number, and B0 = 0 (R99). -/
def DustSettings.threshold (k : DustSettings) : Nat → Nat
  | 0 => 0
  | 1 => k.b1
  | 2 => k.b2
  | _ => k.b3

/-- The largest b with Ld ≥ Bb (R99). -/
def bandOf (k : DustSettings) (level : Nat) : Nat :=
  if k.b3 ≤ level then 3 else if k.b2 ≤ level then 2 else if k.b1 ≤ level then 1 else 0

/-- The dust band from the level and the present band, with hysteresis (R99). -/
def nextBand (k : DustSettings) (level band : Nat) : Nat :=
  if band < 3 && k.threshold (band + 1) ≤ level then bandOf k level
  else if 0 < band && level + 16 < k.threshold band then bandOf k level
  else band

/-- The soiled count: tiles whose dusty age is at least Asoil (R100). -/
def soiledCount (asoil : Nat) (table : List TileRecord) : Nat := table.countP fun t => asoil ≤ t.age

/-- Completion of a job that is not frozen: the table takes the classification with the gains of stage 5, and the level
and band their new values (R68). -/
def Dust.settle (classes : List TileClass) (k : DustSettings) (d : Dust) : Dust :=
  let table := classes.map TileClass.settled
  { d with table := table, level := dustLevel table, band := nextBand k (dustLevel table) d.band }

end Sys2Proof.Machine
end

