-- ==== Sys2Proof/Machine/Motion.lean ====
section
/-! DEFINITION. Motion measurement and the jitter filter (04_conditioning_jobs_and_motion_tracking.md sections 4.5 to
4.7). -/

namespace Sys2Proof.Machine

/-! ### The search (R74 to R77) -/

/-- The luma of `n` pixels from pixel `x` on, of a segment of a line. -/
def lumaRun (segment : List Byte) (x n : Nat) : List Nat := (List.range n).map fun i => lumaAt segment (x + i)

/-- Sum of absolute differences of two rows. -/
def rowSad (a b : List Nat) : Nat := (List.zipWith absDiff a b).sum

/-- The 16 patch rows of an anchor from the segments read for it: the first 16, at pixel 64(c mod 4) + 24 (R74). -/
def patchRows (col : Nat) (got : List (List Byte)) : List (List Nat) :=
  (got.take 16).map fun seg => lumaRun seg (64 * (col % 4) + 24) 16

/-- The 16 rows of the reference block of candidate (dx, dy): window rows from Sy − dy on, at pixel
64(c mod 4) + 24 − dx (R75). -/
def blockRows (col sy : Nat) (got : List (List Byte)) (dx dy : Int) : List (List Nat) :=
  (((got.drop 16).drop ((sy : Int) - dy).toNat).take 16).map fun seg =>
    lumaRun seg ((64 * (col % 4) + 24 : Nat) - dx : Int).toNat 16

/-- The SAD of a candidate (R75). -/
def candidateSad (col sy : Nat) (got : List (List Byte)) (dx dy : Int) : Nat :=
  (List.zipWith rowSad (patchRows col got) (blockRows col sy got dx dy)).sum

/-- The offsets −r..+r. -/
def offsets (r : Nat) : List Int := (List.range (2 * r + 1)).map fun (i : Nat) => (i : Int) - (r : Int)

/-- All (2·Sx + 1)(2·Sy + 1) candidates (R75). -/
def candidates (sx sy : Nat) : List (Int × Int) := (offsets sy).flatMap fun dy => (offsets sx).map fun dx => (dx, dy)

/-- A candidate with its SAD. -/
structure Scored where
  dx : Int
  dy : Int
  sad : Nat
deriving DecidableEq, Repr

/-- Whether `a` is better than `b`: less SAD, then smaller |dx| + |dy|, |dy|, dy, dx (R76). -/
def Scored.better (a b : Scored) : Bool :=
  if a.sad ≠ b.sad then a.sad < b.sad
  else if a.dx.natAbs + a.dy.natAbs ≠ b.dx.natAbs + b.dy.natAbs then
    a.dx.natAbs + a.dy.natAbs < b.dx.natAbs + b.dy.natAbs
  else if a.dy.natAbs ≠ b.dy.natAbs then a.dy.natAbs < b.dy.natAbs
  else if a.dy ≠ b.dy then a.dy < b.dy
  else a.dx < b.dx

/-- The best of a list of candidates, beginning with `best` (R76). -/
def pickBest (best : Scored) (l : List Scored) : Scored := l.foldl (fun b c => if c.better b then c else b) best

/-- The contrast of a patch: Σ |Y(x + 1, y) − Y(x, y)| for x = 0 to 14 (R77). -/
def contrastOf (rows : List (List Nat)) : Nat :=
  (rows.map fun row => rowSad (row.drop 1) (row.take 15)).sum

/-- What the search of anchor column `col` finds (R74 to R77). -/
def searchAnchor (col : Nat) (k : Stabilizer) (got : List (List Byte)) : AnchorMeasure :=
  let scored := (candidates k.sx k.sy).map fun c => (⟨c.1, c.2, candidateSad col k.sy got c.1 c.2⟩ : Scored)
  let best := pickBest ⟨0, 0, candidateSad col k.sy got 0 0⟩ scored
  ⟨best.dx, best.dy, best.sad, contrastOf (patchRows col got)⟩

/-! ### Acceptance (R78, R79) -/

/-- Whether any of 16 lines from `top` on stands in a damaged line list. -/
def touchesDamage (damaged : List Nat) (top : Int) : Bool :=
  damaged.any fun l => top ≤ (l : Int) && (l : Int) < top + 16

/-- The judgement of an evaluated anchor of row `row`: DAMAGED, LOW_CONTRAST, HIGH_SAD or ACCEPTED, by the first test
it fails (R78). `current` and `reference` are the two frames' damaged line lists. -/
def judgeAnchor (row : Nat) (k : Stabilizer) (current reference : List Nat) (m : AnchorMeasure) : AnchorOutcome :=
  let patch : Int := 32 * row + 8
  if touchesDamage current patch || touchesDamage reference patch
      || touchesDamage current (patch - m.dy) || touchesDamage reference (patch - m.dy) then .damaged
  else if m.contrast < k.contrastFloor then .lowContrast
  else if k.sadCeiling < m.sad then .highSad
  else .accepted

/-- The ACCEPTED anchors' measures. -/
def acceptedMeasures (verdicts : List AnchorVerdict) : List AnchorMeasure :=
  verdicts.filterMap fun v => match v with
    | .done .accepted m => m
    | _ => none

/-- Insert into a sorted list. -/
def insertSorted (x : Int) : List Int → List Int
  | [] => [x]
  | y :: ys => if x ≤ y then x :: y :: ys else y :: insertSorted x ys

/-- Sort ascending. -/
def sortInts (l : List Int) : List Int := l.foldr insertSorted []

/-- The lower median: the element at 0-based index floor((n − 1)/2) of the sorted list (R79). -/
def lowerMedian (l : List Int) : Int := (sortInts l).getD ((l.length - 1) / 2) 0

/-- A job's measurement (R79). -/
structure Measurement where
  result : MeasureResult
  accepted : Nat
  shiftX : Int
  shiftY : Int
deriving DecidableEq, Repr

/-- VALID with the lower medians when at least Nmin anchors are accepted, otherwise VOID with shift (0, 0) (R79). -/
def measure (nmin : Nat) (verdicts : List AnchorVerdict) : Measurement :=
  let l := acceptedMeasures verdicts
  if nmin ≤ l.length then ⟨.valid, l.length, lowerMedian (l.map (·.dx)), lowerMedian (l.map (·.dy))⟩
  else ⟨.void, l.length, 0, 0⟩

/-! ### The jitter filter (R80, R81) -/

/-- D' of one axis: E = D + 16s, E − round(E·a/64), clamped to ±16·Jmax (R81). -/
def filterJitter (k : Stabilizer) (d s : Int) : Int :=
  let e := d + 16 * s
  clampInt (-(16 * k.jmax : Nat)) (16 * k.jmax : Nat) (e - roundDiv (e * k.factor) 64)

/-- C of one axis: round(D'/16), clamped to ±margin (R81). -/
def correctionOf (margin : Nat) (d : Int) : Int := clampInt (-(margin : Int)) margin (roundDiv d 16)

/-- The jitter state and the correction after a job (R81); with the stabilizer disabled all are 0. -/
structure Filtered where
  jitterX : Int
  jitterY : Int
  corrX : Int
  corrY : Int
deriving DecidableEq, Repr

def filterJob (k : Stabilizer) (dx dy sx sy : Int) : Filtered :=
  if k.enabled then
    let x := filterJitter k dx sx
    let y := filterJitter k dy sy
    ⟨x, y, correctionOf k.mx x, correctionOf k.my y⟩
  else ⟨0, 0, 0, 0⟩

end Sys2Proof.Machine
end

