-- ==== Sys2Proof/Machine/Purge.lean ====
section
/-! DEFINITION. The Purge Controller (06_lens_purge.md, R110 to R117). -/

namespace Sys2Proof.Machine

/-- A PURGE report with event STARTED (R114). A report without a command sends the tag 0 (R183). -/
def purgeStartedReport (n : Lane) (cause : PurgeCause) (consecutive : Nat) (soiled : Option Nat) (origin : Origin) :
    Notice :=
  .report .purge origin (byte1 n.val ++ byte1 0 ++ byte1 cause.code ++ byte1 consecutive ++ optByte2 soiled
    ++ (match origin with
        | some (_, tag) => [tag]
        | none => [0]))

/-- A PURGE report with event HALTED; it has no cause and no tag (R114). -/
def purgeHaltedReport (n : Lane) (consecutive : Nat) (soiled : Option Nat) : Notice :=
  .report .purge none (byte1 n.val ++ byte1 1 ++ byte1 0 ++ byte1 consecutive ++ optByte2 soiled ++ [0])

/-- Whether a last soiled count is at least Nsoil; none is below in every case (R113). -/
def Purge.soiled (p : Purge) : Bool :=
  match p.lastSoiled with
  | some k => p.settings.nsoil ≤ k
  | none => false

/-- A blow starts: PULSE, the pulse timer started, the last soiled count none (R110, R113, R116). -/
def Purge.blow (now : Nat) (p : Purge) : Purge :=
  { p with state := .pulse, pulseDue := some (now + msTicks p.settings.pulse), lastSoiled := none }

/-- An automatic blow also raises the consecutive count and auto-purges (R110, R113). -/
def Purge.autoBlow (now : Nat) (p : Purge) : Purge :=
  { p.blow now with consecutive := satAdd 255 p.consecutive 1, autoPurges := count p.autoPurges 1 }

/-- SETTLE ends: COOLDOWN, the settle timer stopped, the cooldown timer started (R112). -/
def Purge.endSettle (now : Nat) (p : Purge) : Purge :=
  { p with
    state := .cooldown, settleDue := none, cooldownDue := some (now + msTicks (1000 * p.settings.cooldown)) }

/-- The pulse timer expires (R111). -/
def Purge.endPulse (now : Nat) (p : Purge) : Purge :=
  { p with state := .settle, pulseDue := none, settleJobs := 0, settleDue := some (now + msTicks 500) }

/-- A completion counts in SETTLE, frozen or not; the second ends it (R110 step 1, R112). -/
def Purge.countSettle (now : Nat) (p : Purge) : Purge :=
  if p.state = .settle then
    if p.settleJobs + 1 ≥ 2 then { p with settleJobs := p.settleJobs + 1 }.endSettle now
    else { p with settleJobs := p.settleJobs + 1 }
  else p

/-- A job completion is handed over (R110): `soiled` is the soiled count of a job that is not frozen, none for a
frozen one; `video` says that the lane is LOCKED in lane mode NORMAL. -/
def Purge.takeCompletion (n : Lane) (now : Nat) (video : Bool) (soiled : Option Nat) (p : Purge) :
    Purge × List Notice :=
  let p := p.countSettle now
  match soiled with
  | none => (p, [])
  | some k =>
    let p := { p with lastSoiled := some k, consecutive := if k < p.settings.nsoil then 0 else p.consecutive }
    if p.settings.nsoil ≤ k && p.settings.auto && p.state == .idle && video then
      let q := p.autoBlow now
      (q, [purgeStartedReport n .auto q.consecutive (some k) none])
    else (p, [])

/-- What the expiry of the cooldown timer brings (R113). -/
inductive RestOutcome where
  | returnHalted | halt | again | idle
deriving DecidableEq, Repr

/-- The first case of R113 that applies. -/
def Purge.restOutcome (video : Bool) (p : Purge) : RestOutcome :=
  if p.returnHalted then .returnHalted
  else if p.soiled && p.settings.kmax ≤ p.consecutive then .halt
  else if p.soiled && p.settings.auto && video then .again
  else .idle

/-- The cooldown timer expires (R113). The flag of the halting case is raised by the caller. -/
def Purge.endCooldown (n : Lane) (now : Nat) (video : Bool) (p : Purge) : Purge × List Notice :=
  let q := { p with cooldownDue := none }
  match p.restOutcome video with
  | .returnHalted => ({ q with state := .halted, returnHalted := false }, [])
  | .halt =>
    ({ q with state := .halted, halts := count q.halts 1 }, [purgeHaltedReport n q.consecutive q.lastSoiled])
  | .again =>
    let r := q.autoBlow now
    (r, [purgeStartedReport n .repeated r.consecutive q.lastSoiled none])
  | .idle => ({ q with state := .idle }, [])

/-- PURGE_NOW in IDLE, COOLDOWN or HALTED (R116). -/
def Purge.manualBlow (n : Lane) (now : Nat) (origin : Origin) (p : Purge) : Purge × List Notice :=
  let q := { p with
    returnHalted := p.returnHalted || p.state == PurgeState.halted, cooldownDue := none, manualPurges := count p.manualPurges 1 }
  (q.blow now, [purgeStartedReport n .manual q.consecutive p.lastSoiled origin])

/-- PURGE_REARM in HALTED (R117). -/
def Purge.rearm (p : Purge) : Purge := { p with state := .idle, consecutive := 0, returnHalted := false }

/-- Whether the lane is LOCKED in lane mode NORMAL (R110, R113, R146). -/
def Receiver.video (r : Receiver) : Bool := r.state == .locked && r.mode == .normal

end Sys2Proof.Machine
end

