-- ==== Sys2Proof/Config.lean ====
section
/-! DEFINITION. What an implementation fixes and the spec leaves open. -/

namespace Sys2Proof.Config

/-- What a byte of the DRAM that nothing has written reads as. The spec gives the DRAM no contents after power-on.
DESIGN CHOICE (log 7), unsafe: a claim could lean on this zero. -/
def dramUnlisted : Byte := 0

end Sys2Proof.Config
end

