-- ==== Sys2Proof/Machine/Memory.lean ====
section
/-! DEFINITION. The DRAM (R41): a list of cells in one canonical form, and where frames live in it. -/

namespace Sys2Proof.Machine

/-- The size of the DRAM in bytes (R41). -/
def dramBytes : Nat := 33554432

/-- The canonical form from a lower bound on: addresses strictly rise, and no entry equals what an unlisted
address reads as. -/
def Memory.wfFrom (low : Nat) : List Host.Cell → Bool
  | [] => true
  | c :: rest => low ≤ c.1 && c.2 != Config.dramUnlisted && Memory.wfFrom (c.1 + 1) rest

/-- The canonical form of the memory. -/
def Memory.wf (mem : List Host.Cell) : Bool := Memory.wfFrom 0 mem

/-- Read one byte. -/
def Memory.read (addr : Nat) : List Host.Cell → Byte
  | [] => Config.dramUnlisted
  | c :: rest => if c.1 = addr then c.2 else Memory.read addr rest

/-- The cells of a run of bytes from an address on: a byte that an unlisted address reads as has none. -/
def Memory.cells (addr : Nat) : List Byte → List Host.Cell
  | [] => []
  | b :: bs =>
    if b = Config.dramUnlisted then Memory.cells (addr + 1) bs else (addr, b) :: Memory.cells (addr + 1) bs

/-- Write a run of bytes from an address on, keeping the canonical form: what stood at those addresses goes, and a byte
that an unlisted address reads as leaves no entry. -/
def Memory.writeRun (addr : Nat) (bytes : List Byte) (mem : List Host.Cell) : List Host.Cell :=
  mem.filter (fun c => decide (c.1 < addr)) ++ Memory.cells addr bytes
    ++ mem.filter (fun c => decide (addr + bytes.length ≤ c.1))

/-- Write one byte. -/
def Memory.write (addr : Nat) (b : Byte) (mem : List Host.Cell) : List Host.Cell := Memory.writeRun addr [b] mem

/-- Read a run of `n` bytes from an address on. -/
def Memory.readRun (addr n : Nat) (mem : List Host.Cell) : List Byte :=
  let near := mem.filter fun c => decide (addr ≤ c.1 ∧ c.1 < addr + n)
  (List.range n).map fun i => Memory.read (addr + i) near

/-! ### Where frames live (R41) -/

/-- The byte address of line `y` of slot `s` of lane `n` (R41). -/
def lineAddress (n : Lane) (s : Fin 4) (y : Nat) : Nat := n.val * 8388608 + s.val * 2097152 + y * 2560

/-- The byte address of segment `k` of that line (R41). -/
def segmentAddress (n : Lane) (s : Fin 4) (y k : Nat) : Nat := lineAddress n s y + 512 * k

/-- How many segments a line of width `w` has (R41). -/
def segmentCount (w : Nat) : Nat := ceilDiv (2 * w) 512

/-- How many bytes segment `k` of a line of width `w` has: 512, or what is left of the line (R41). -/
def segmentBytes (w k : Nat) : Nat := min 512 (2 * w - 512 * k)

/-- Segment `k` of a line's payload. -/
def segmentOf (payload : List Byte) (k : Nat) : List Byte := (payload.drop (512 * k)).take 512

/-- How long a segment transfer of `b` bytes holds the port, in ticks (R60). -/
def segmentTicks (b : Nat) : Nat := 4 + ceilDiv b 16

/-- How long a refresh holds the port, in ticks (R60). -/
def refreshTicks : Nat := 16

end Sys2Proof.Machine
end

