-- ==== Sys2Proof/Machine/Store.lean ====
section
/-! DEFINITION. The slot ring and the write path of the Frame Store Controller (03_frame_store.md, R44 to R56). -/

namespace Sys2Proof.Machine

/-! ### The ring -/

/-- The lowest-numbered FREE slot (R44). -/
def LaneStore.lowestFree (st : LaneStore) : Option (Fin 4) := fourNumbers.find? fun i => (st.ring.get i).isNone

/-- The slot that holds a role (R44: at most one does). -/
def LaneStore.slotOf (role : Role) (st : LaneStore) : Option (Fin 4) :=
  fourNumbers.find? fun i => match st.ring.get i with
    | some h => h.role == role
    | none => false

/-- The frame record of a slot, none when FREE. -/
def LaneStore.record (st : LaneStore) (i : Fin 4) : Option FrameRecord := (st.ring.get i).map (·.record)

/-- A slot becomes FREE and its record is gone (R44). -/
def LaneStore.free (i : Fin 4) (st : LaneStore) : LaneStore := { st with ring := st.ring.set i none }

/-- A slot takes a role, keeping its record. -/
def LaneStore.move (i : Fin 4) (role : Role) (st : LaneStore) : LaneStore :=
  { st with ring := st.ring.modify i (Option.map fun h => { h with role := role }) }

/-- Change the record of a slot. -/
def LaneStore.modRecord (i : Fin 4) (f : FrameRecord → FrameRecord) (st : LaneStore) : LaneStore :=
  { st with ring := st.ring.modify i (Option.map fun h => { h with record := f h.record }) }

/-- The slot that holds a role, if any, becomes FREE. -/
def LaneStore.freeRole (role : Role) (st : LaneStore) : LaneStore :=
  match st.slotOf role with
  | some i => st.free i
  | none => st

/-- The slot of the reference frame while the reference-valid flag is set: READY if one exists, otherwise SHOWING
(R45). -/
def LaneStore.referenceSlot (st : LaneStore) : Option (Fin 4) :=
  match st.slotOf .ready with
  | some i => some i
  | none => st.slotOf .showing

/-! ### Opening, lines, closing -/

/-- The lowest-numbered FREE slot becomes FILLING with a new record; with none FREE the frame is not stored (R46,
R47). -/
def LaneStore.give (number : Nat) (g : Geometry) (damaged : List Nat) (st : LaneStore) : LaneStore :=
  match st.lowestFree with
  | some i =>
    { st with ring := st.ring.set i (some ⟨.filling, ⟨number, g, damaged, none⟩⟩), opening := .stored i }
  | none => { st with opening := .unstored }

/-- A frame opening: a slot at once, or deferred behind a pending commit (R47). -/
def LaneStore.openFrame (number : Nat) (g : Geometry) (st : LaneStore) : LaneStore :=
  if st.pendingCommit.isSome then { st with opening := .deferred number g [] } else st.give number g []

/-- A damaged line of the open frame is entered in its record, or kept with its deferred opening (R9, R46, R47). -/
def LaneStore.enterDamaged (line : Nat) (st : LaneStore) : LaneStore :=
  match st.opening with
  | .stored i => st.modRecord i fun r => { r with damaged := r.damaged ++ [line] }
  | .deferred number g damaged => { st with opening := .deferred number g (damaged ++ [line]) }
  | _ => st

/-- Whether a line of the buffer belongs to this frame. -/
def BufferedLine.of (tag : FrameTag) (b : BufferedLine) : Bool := b.tag == tag

/-- Lines of a frame that is not stored are discarded as they reach the head (R47). -/
def LaneStore.trimUnstored (st : LaneStore) : LaneStore :=
  match st.opening with
  | .unstored => { st with buffer := st.buffer.dropWhile (BufferedLine.of .current) }
  | _ => st

/-- A deferred opening is performed, its kept damaged lines entered in order (R47). -/
def LaneStore.performDeferred (st : LaneStore) : LaneStore :=
  match st.opening with
  | .deferred number g damaged => (st.give number g damaged).trimUnstored
  | _ => st

/-- Whether the buffer refuses a line: both its lines are occupied (R48). -/
def LaneStore.full (st : LaneStore) : Bool := st.buffer.length ≥ 2

/-- A line enters the buffer at the tail (R48). -/
def LaneStore.enter (line : Nat) (payload : List Byte) (st : LaneStore) : LaneStore :=
  LaneStore.trimUnstored { st with buffer := st.buffer ++ [⟨.current, line, payload, 0⟩] }

/-- The lines of one of the lane's frames are discarded from the buffer (R48). -/
def LaneStore.dropLines (tag : FrameTag) (st : LaneStore) : LaneStore :=
  { st with buffer := st.buffer.filter fun b => !b.of tag }

/-- An abandonment: the slot is freed or the deferred opening forgotten, the lines discarded (R51). -/
def LaneStore.abandon (st : LaneStore) : LaneStore :=
  let st := match st.opening with
    | .stored i => st.free i
    | _ => st
  LaneStore.dropLines .current { st with opening := .closed }

/-- A close of a stored frame whose lines have not all drained: the pending-commit marker takes it (R49). -/
def LaneStore.markPending (p : PendingCommit) (st : LaneStore) : LaneStore :=
  { st with
    pendingCommit := some p, opening := .closed
    buffer := st.buffer.map fun b => { b with tag := .committing } }

/-- The slot into which the head line is written, when it waits for the arbiter (R48). -/
def LaneStore.headSlot (st : LaneStore) (b : BufferedLine) : Option (Fin 4) :=
  match b.tag with
  | .committing => st.pendingCommit.map (·.slot)
  | .current =>
    match st.opening with
    | .stored i => some i
    | _ => none

/-- How many segments a buffered line has. -/
def BufferedLine.segments (b : BufferedLine) : Nat := ceilDiv b.payload.length 512

/-- A segment of the head line has been written: after its last the line leaves and the next becomes the head
(R48). -/
def LaneStore.segmentWritten (st : LaneStore) : LaneStore :=
  match st.buffer with
  | b :: rest =>
    if b.segments ≤ b.written + 1 then LaneStore.trimUnstored { st with buffer := rest }
    else { st with buffer := { b with written := b.written + 1 } :: rest }
  | [] => st

/-- Whether a pending commit's lines have all drained (R49). -/
def LaneStore.drained (st : LaneStore) : Bool := !st.buffer.any (BufferedLine.of .committing)

/-- A lane down: FILLING and CONDITIONING freed, commit and opening withdrawn, the buffer emptied; READY and SHOWING
stay (R55). -/
def LaneStore.laneDown (st : LaneStore) : LaneStore :=
  { (st.freeRole .filling).freeRole .conditioning with pendingCommit := none, opening := .closed, buffer := [] }

/-- A lane release: READY and SHOWING freed (R56). -/
def LaneStore.release (st : LaneStore) : LaneStore := (st.freeRole .ready).freeRole .showing

/-- An output frame start: a READY slot becomes SHOWING and the one that was SHOWING becomes FREE (R53). -/
def LaneStore.display (st : LaneStore) : LaneStore :=
  match st.slotOf .ready with
  | some i => (st.freeRole .showing).move i .showing
  | none => st

/-! ### The port's transfer when a rule discards its data (R42, R48, R60) -/

/-- The data of the transfer on the port no longer counts, when it is of this kind. -/
def State.discardTransfer (p : TransferKind → Bool) (s : State) : State :=
  s.modArb fun a => { a with port := a.port.map fun t => if p t.kind then { t with live := false } else t }

/-- A lane write of lane `n`. -/
def TransferKind.writesLane (n : Lane) : TransferKind → Bool
  | .write lane _ _ _ _ => lane == n
  | _ => false

/-- A compositor fetch. -/
def TransferKind.isFetch : TransferKind → Bool
  | .fetch _ _ => true
  | _ => false

/-- A compositor fetch from lane `n`. -/
def TransferKind.fetchesLane (n : Lane) : TransferKind → Bool
  | .fetch _ item => item.lane == n
  | _ => false

/-- A conditioning read. -/
def TransferKind.isRead : TransferKind → Bool
  | .read _ _ _ _ _ => true
  | _ => false

/-- Any transfer but a refresh. -/
def TransferKind.isData : TransferKind → Bool
  | .refresh => false
  | _ => true

/-- The head line is about to be discarded when it belongs to the open frame: a write of it on the port has no
further effect (R48). -/
def State.discardHead (n : Lane) (s : State) : State :=
  match (s.lane n).store.buffer with
  | b :: _ => if b.of .current then s.discardTransfer (TransferKind.writesLane n) else s
  | [] => s

/-! ### What a Lane Receiver hands the store -/

/-- A frame opening (R47, R88). -/
def State.storeOpen (n : Lane) (number : Nat) (g : Geometry) (s : State) : State :=
  (s.modStore n (LaneStore.openFrame number g)).modDust n (Dust.openSet number g)

/-- A line for the write buffer, which has room, and for the tile accumulator (R48, R87). -/
def State.storeLine (n : Lane) (line : Nat) (payload : List Byte) (s : State) : State :=
  (s.modStore n (LaneStore.enter line payload)).modDust n (Dust.gather line payload)

/-- frames-discarded increments (R21). -/
def State.countDiscarded (n : Lane) (s : State) : State :=
  s.modCounters n fun k => { k with framesDiscarded := count k.framesDiscarded 1 }

/-- frames-skipped increments (R21). -/
def State.countSkipped (n : Lane) (s : State) : State :=
  s.modCounters n fun k => { k with framesSkipped := count k.framesSkipped 1 }

/-- An abandonment (R51, R88). -/
def State.storeAbandon (n : Lane) (s : State) : State :=
  (((s.discardHead n).modStore n LaneStore.abandon).modDust n Dust.dropGathering).countDiscarded n

/-- A close with no slot: frames-discarded increments if the frame was opened in LOCKED (R51, R88). -/
def State.closeUnstored (n : Lane) (openedIn : OpenedIn) (s : State) : State :=
  let s := ((s.discardHead n).modStore n fun st => LaneStore.dropLines .current { st with opening := .closed }).modDust n
    Dust.dropGathering
  match openedIn with
  | .acquiring => s
  | .locked => s.countDiscarded n

/-- A lane release, with what it makes of the windows of the output frame being sent: every window of the lane is
LOST from now on (R56, R129). -/
def State.storeRelease (n : Lane) (s : State) : State :=
  ((s.modStore n LaneStore.release).discardTransfer (TransferKind.fetchesLane n)).modComp fun c =>
    { c with plan := c.plan.map fun p => if p.record.lane = n then { p with content := .lost } else p }

/-- The store's and the accumulator's part of a lane down (R55, R89). -/
def State.storeLaneDown (n : Lane) (s : State) : State :=
  ((s.discardTransfer (TransferKind.writesLane n)).modStore n LaneStore.laneDown).modDust n Dust.dropSets

end Sys2Proof.Machine
end

