-- ==== Sys2Proof/Machine/Jobs.lean ====
section
/-! DEFINITION. The Conditioning Engine's jobs (R63 to R73, R82) and the commit that makes them (R49, R50). -/

namespace Sys2Proof.Machine

/-- The lane's job, queued or running. -/
def State.laneJob (s : State) (n : Lane) : Option Job := s.jobs.find? fun j => j.lane == n

/-! ### Starting a job (R65) -/

/-- Whether jobs that start now are frozen: PULSE or SETTLE (R65, R72). -/
def Purge.freezes (p : Purge) : Bool := p.state == .pulse || p.state == .settle

/-- An anchor's verdict at the job start: DISABLED, OUTSIDE, NOT_CLEAR, or to be searched (R73). -/
def anchorVerdict (g : Geometry) (classes : List TileClass) (a : Anchor) : AnchorVerdict :=
  if !a.enabled then .done .disabled none
  else if g.w / 64 ≤ a.col || g.h / 32 ≤ a.row then .done .outside none
  else match classes[a.row * (g.w / 64) + a.col]? with
    | some c => if c.record.initialised && c.record.state == .clear then .toSearch else .done .notClear none
    | none => .done .notClear none

/-- What a job takes at its start: the latched settings, frozen or not, its reference, its classification and its
anchors' verdicts (R65, R72, R73). A frozen job classifies nothing. -/
def LaneBlocks.startRun (l : LaneBlocks) (slot : Fin 4) : RunningJob :=
  let record := (l.store.record slot).getD ⟨0, l.rx.geometry, [], none⟩
  let frozen := l.purge.freezes
  let reference := if l.motion.referenceValid then l.store.referenceSlot else none
  let set := l.dust.jobSet.getD (StatSet.start record.number record.geometry)
  let classes := if frozen then none else some (classify l.dust.settings set l.dust.table)
  let evaluate := !frozen && reference.isSome
  { anchors := l.motion.anchors, settings := l.motion.settings, dust := l.dust.settings
    asoil := l.purge.settings.asoil, frozen := frozen, reference := reference, classes := classes
    verdicts := l.motion.anchors.map fun a =>
      if evaluate then anchorVerdict record.geometry (classes.getD []) a else .done .notEvaluated none
    got := [] }

/-- The jitter state at a job start: clamped to ±16·Jmax, or (0, 0) with no reference (R65 step 4). -/
def Motion.atStart (hasReference : Bool) (k : Motion) : Motion :=
  let limit : Int := (16 * k.settings.jmax : Nat)
  if hasReference then
    { k with jitterX := clampInt (-limit) limit k.jitterX, jitterY := clampInt (-limit) limit k.jitterY }
  else { k with jitterX := 0, jitterY := 0 }

/-- The head job of the queue starts (R65). -/
def State.beginJob (j : Job) (s : State) : State :=
  let run := (s.lane j.lane).startRun j.slot
  { s.modMotion j.lane (Motion.atStart run.reference.isSome) with
    jobs := { j with run := some run } :: s.jobs.drop 1 }

/-- Whether a running job still names reads (R66). -/
def RunningJob.searching (r : RunningJob) : Bool := r.verdicts.any (· == .toSearch)

/-! ### Completion (R68) -/

/-- The summary's entry for an anchor of the latched table (R82). -/
def anchorResult (a : Anchor) (v : AnchorVerdict) : AnchorResult :=
  match v with
  | .done outcome m => ⟨a.col, a.row, outcome, m⟩
  | .toSearch => ⟨a.col, a.row, .notEvaluated, none⟩

/-- The summary of a completed job (R82). 'Reference used' is yes when R65 step 3 named a reference at the job's start,
also for a frozen job, which reads none (the model's choice, log 41). -/
def RunningJob.summary (r : RunningJob) (number : Nat) (m : Measurement) (f : Filtered) : Summary where
  number := number
  frozen := r.frozen
  referenceUsed := r.reference.isSome
  stabilizerEnabled := r.settings.enabled
  result := m.result
  accepted := m.accepted
  shiftX := m.shiftX
  shiftY := m.shiftY
  jitterX := f.jitterX
  jitterY := f.jitterY
  corrX := f.corrX
  corrY := f.corrY
  anchors := List.zipWith anchorResult r.anchors r.verdicts

/-- The motion counters after a completion (R82). -/
def MotionCounters.completed (frozen : Bool) (result : MeasureResult) (k : MotionCounters) : MotionCounters :=
  { k with
    jobsCompleted := count k.jobsCompleted 1
    validResults := if result = .valid then count k.validResults 1 else k.validResults
    voidResults := if result = .void then count k.voidResults 1 else k.voidResults
    frozenJobs := if frozen then count k.frozenJobs 1 else k.frozenJobs }

/-- The record fields of a completed job (R68). -/
def conditionedRecord (m : Measurement) (f : Filtered) (d : Dust) (frozen : Bool) : Conditioned where
  result := m.result
  accepted := m.accepted
  shiftX := m.shiftX
  shiftY := m.shiftY
  corrX := f.corrX
  corrY := f.corrY
  level := d.level
  band := d.band
  gains := d.table.map (·.gain)
  frozen := frozen

/-- The completed frame's slot becomes READY with its record complete; another READY slot becomes FREE (R52). -/
def LaneStore.complete (slot : Fin 4) (c : Conditioned) (st : LaneStore) : LaneStore :=
  (((st.freeRole .ready).move slot .ready)).modRecord slot fun r => { r with conditioned := some c }

/-- The Dust Monitor's part of a completion: a frozen job changes no table, level or band, and the job set goes
(R68, R89, R101). -/
def Dust.complete (run : RunningJob) (d : Dust) : Dust :=
  match run.classes with
  | some classes => (d.settle classes run.dust).dropJob
  | none => d.dropJob

/-- The measurement of a job: VOID with count 0 for a frozen job and a job with no reference, otherwise that of its
anchors (R72, R73, R79). -/
def RunningJob.measurement (r : RunningJob) : Measurement :=
  if r.frozen || r.reference.isNone then ⟨.void, 0, 0, 0⟩ else measure r.settings.nmin r.verdicts

/-- The lane's blocks after the completion of its job, without the purge's part (R52, R68, R82, R89). -/
def LaneBlocks.completeRun (number : Nat) (slot : Fin 4) (run : RunningJob) (l : LaneBlocks) : LaneBlocks :=
  let m := run.measurement
  let f := filterJob run.settings l.motion.jitterX l.motion.jitterY m.shiftX m.shiftY
  let dust := l.dust.complete run
  let dropped := (l.store.slotOf .ready).isSome
  { l with
    dust := dust
    store := l.store.complete slot (conditionedRecord m f dust run.frozen)
    rx := if dropped then
        { l.rx with counters := { l.rx.counters with framesDropped := count l.rx.counters.framesDropped 1 } }
      else l.rx
    motion := { l.motion with
      jitterX := f.jitterX, jitterY := f.jitterY, referenceValid := true
      summary := some (run.summary number m f), counters := l.motion.counters.completed run.frozen m.result } }

/-- Change lane `n`'s Purge Controller and offer its reports. -/
def State.purgeEvent (n : Lane) (f : Purge → Purge × List Notice) (s : State) : State :=
  (s.modPurge n fun p => (f p).1).offerAll (f (s.lane n).purge).2

/-- The running head job completes: record, context, tables, summary, purge, and it leaves the queue (R68). -/
def State.completeJob (s : State) : State :=
  match s.jobs with
  | [] => s
  | j :: rest =>
    match j.run with
    | none => s
    | some run =>
      let s := { s.modLane j.lane (LaneBlocks.completeRun j.number j.slot run) with jobs := rest }
      let l := s.lane j.lane
      s.purgeEvent j.lane (Purge.takeCompletion j.lane s.now l.rx.video
        (if run.frozen then none else some (soiledCount run.asoil l.dust.table)))

/-- While no job runs and the queue is not empty the head starts at once; a job that names no read completes in the
same event (R63, R66). The first argument bounds how many start. -/
def State.runJobs : Nat → State → State
  | 0, s => s
  | fuel + 1, s =>
    match s.jobs with
    | [] => s
    | j :: _ =>
      if j.run.isSome then s
      else
        let s := s.beginJob j
        if (s.jobs.head?.bind (·.run)).any RunningJob.searching then s else State.runJobs fuel s.completeJob

/-- Start what can start (R63). -/
def State.startJobs (s : State) : State := s.runJobs s.jobs.length

/-! ### Conditioning reads (R74) -/

/-- The first anchor of the running job that is still to be searched. -/
def RunningJob.current (r : RunningJob) : Option (Nat × Anchor) :=
  match r.verdicts.findIdx? (· == .toSearch) with
  | some i => r.anchors[i]?.map fun a => (i, a)
  | none => none

/-- The next read of the running head job: 16 patch lines of its slot, then 16 + 2·Sy window lines of the reference
slot, each one segment floor(c/4) (R74). -/
def State.readRequest (s : State) : Option TransferKind :=
  match s.jobs with
  | [] => none
  | j :: _ =>
    match j.run with
    | none => none
    | some run =>
      match run.current, run.reference with
      | some (_, a), some ref =>
        let w := ((s.lane j.lane).store.record j.slot).elim 0 (·.geometry.w)
        let k := run.got.length
        if k < 16 then some (.read j.lane j.slot (32 * a.row + 8 + k) (a.col / 4) (segmentBytes w (a.col / 4)))
        else some (.read j.lane ref (32 * a.row + 8 - run.settings.sy + (k - 16)) (a.col / 4)
          (segmentBytes w (a.col / 4)))
      | _, _ => none

/-- A segment read for the running job arrives; an anchor's last read makes its search and judgement (R74, R78). -/
def RunningJob.take (data : List Byte) (current reference : List Nat) (r : RunningJob) : RunningJob :=
  let got := r.got ++ [data]
  match r.current with
  | none => r
  | some (i, a) =>
    if got.length < 32 + 2 * r.settings.sy then { r with got := got }
    else
      let m := searchAnchor a.col r.settings got
      { r with got := [], verdicts := r.verdicts.set i (.done (judgeAnchor a.row r.settings current reference m) m) }

/-- A conditioning read's data is taken by the running job; its last read completes it and the next may start (R66). -/
def State.takeRead (data : List Byte) (s : State) : State :=
  match s.jobs with
  | [] => s
  | j :: rest =>
    match j.run with
    | none => s
    | some run =>
      let st := (s.lane j.lane).store
      let damagedOf (i : Option (Fin 4)) : List Nat := ((i.bind st.record).map (·.damaged)).getD []
      let run := run.take data (damagedOf (some j.slot)) (damagedOf run.reference)
      let s := { s with jobs := { j with run := some run } :: rest }
      if run.searching then s else s.completeJob.startJobs

/-! ### Commit and enqueue (R49, R50) -/

/-- A frame committed to conditioning becomes a job, replaces the lane's queued job, or is skipped (R50, R63, R89). -/
def State.enqueue (n : Lane) (slot : Fin 4) (s : State) : State :=
  let number := ((s.lane n).store.record slot).elim 0 (·.number)
  match s.laneJob n with
  | none =>
    { (s.modStore n (LaneStore.move slot .conditioning)).modDust n Dust.promoteClosed with
      jobs := s.jobs ++ [⟨n, slot, number, none⟩] }
  | some j =>
    if j.run.isSome then ((s.modStore n (LaneStore.free slot)).modDust n Dust.dropClosed).countSkipped n
    else
      { ((s.modStore n fun st => (st.free j.slot).move slot .conditioning).modDust n
          Dust.promoteClosed).countSkipped n with
        jobs := s.jobs.map fun k => if k.lane = n then ⟨n, slot, number, none⟩ else k }

/-- Commit: the slot's next role, then a deferred opening, then what the engine can start (R47, R49; log 15). -/
def State.commit (n : Lane) (p : PendingCommit) (s : State) : State :=
  let s := s.modStore n fun st => { st with pendingCommit := none }
  let s := match p.openedIn with
    | .acquiring => (s.modStore n (LaneStore.free p.slot)).modDust n Dust.dropClosed
    | .locked =>
      if p.dmax < p.damaged then ((s.modStore n (LaneStore.free p.slot)).modDust n Dust.dropClosed).countDiscarded n
      else s.enqueue n p.slot
  (s.modStore n LaneStore.performDeferred).startJobs

/-- A pending commit whose last line has drained is made (R49). -/
def State.commitIfDrained (n : Lane) (s : State) : State :=
  match (s.lane n).store.pendingCommit with
  | some p => if (s.lane n).store.drained then s.commit n p else s
  | none => s

/-- A close handed by the Lane Receiver: commit at once, or when the frame's last line has drained, or a close with
no slot (R49, R51, R88). -/
def State.storeClose (n : Lane) (damaged dmax : Nat) (openedIn : OpenedIn) (s : State) : State :=
  match (s.lane n).store.opening with
  | .stored slot =>
    ((s.modDust n Dust.closeGathering).modStore n
      (LaneStore.markPending ⟨slot, damaged, dmax, openedIn⟩)).commitIfDrained n
  | .closed => s
  | _ => s.closeUnstored n openedIn

/-! ### Lane down (R55, R69, R89) -/

/-- The lane's job is removed or abandoned, D becomes (0, 0) and the reference-valid flag is cleared (R69). -/
def State.abandonJob (n : Lane) (s : State) : State :=
  let clear (abandoned : Bool) (k : Motion) : Motion :=
    { k with
      jitterX := 0, jitterY := 0, referenceValid := false
      counters := if abandoned then { k.counters with jobsAbandoned := count k.counters.jobsAbandoned 1 }
        else k.counters }
  match s.laneJob n with
  | none => s.modMotion n (clear false)
  | some j =>
    let s := if j.run.isSome then s.discardTransfer TransferKind.isRead else s
    { s.modMotion n (clear true) with jobs := s.jobs.filter fun k => k.lane ≠ n }

/-- A geometry change for the engine and the Dust Monitor: D (0, 0), flag clear, the tile table laid out anew
(R70, R102). -/
def State.engineGeometry (n : Lane) (g : Geometry) (s : State) : State :=
  (s.modMotion n fun k => { k with jitterX := 0, jitterY := 0, referenceValid := false }).modDust n (Dust.layout g)

end Sys2Proof.Machine
end

