-- ==== Sys2Proof/Machine/EngineCommands.lean ====
section
/-! DEFINITION. SET_REFRESH (R62), the motion commands (R83 to R85), the dust commands (R105 to R107) and the purge
commands (R115 to R117). -/

namespace Sys2Proof.Machine

/-- SET_REFRESH (R62). -/
def execSetRefresh (m : Moment) (s : State) : Result :=
  .next (s.execute m (CmdMessage.is 15) fun c => State.ofLength 2 c fun s =>
    let interval := clampArg 40 1248 (wordAt c.payload 0)
    (s.modArb fun a => { a with interval := interval.value }).answer c (clampCode [interval.changed])
      (byte2 interval.value))

/-! ### Motion commands -/

/-- One anchor entry of LOAD_ANCHORS, none when a field is refused (R83). -/
def anchorArg (p : List Byte) (i : Nat) : Option Anchor :=
  match onOffArg p (i + 2) with
  | some on => if byteAt p i ≤ 19 ∧ byteAt p (i + 1) ≤ 24 then some ⟨byteAt p i, byteAt p (i + 1), on⟩ else none
  | none => none

/-- The entries of LOAD_ANCHORS, none when one is refused. -/
def anchorArgs (p : List Byte) (n : Nat) : Option (List Anchor) :=
  (List.range n).mapM fun k => anchorArg p (2 + 3 * k)

/-- The tile of an anchor. -/
def Anchor.tile (a : Anchor) : Nat × Nat := (a.col, a.row)

/-- Whether no two anchors name the same tile (R83). -/
def distinctTiles (l : List Anchor) : Bool := decide (l.map Anchor.tile).Nodup

/-- LOAD_ANCHORS (R83): the length must hold exactly the entries counted (R182). -/
def execLoadAnchors (m : Moment) (s : State) : Result :=
  .next (s.execute m (CmdMessage.is 16) fun c s =>
    if c.payload.length < 2 ∨ c.payload.length ≠ 2 + 3 * byteAt c.payload 1 then s.refuse c .badLength
    else s.ofLane c fun n s =>
      s.unless (byteAt c.payload 1 ≤ 12) .badArg c <|
        State.ofField (anchorArgs c.payload (byteAt c.payload 1)) c fun anchors s =>
          s.unless (distinctTiles anchors) .badArg c fun s =>
            (s.modMotion n fun k => { k with anchors := anchors }).answer c .ok [])

/-- The settings of SET_STABILIZER after their clamps, and whether each number changed (R84). -/
def stabilizerArgs (enabled : Bool) (p : List Byte) : Stabilizer × List Bool :=
  let sx := clampArg 0 16 (byteAt p 2)
  let sy := clampArg 0 8 (byteAt p 3)
  let nmin := clampArg 1 12 (byteAt p 4)
  let sad := clampArg 0 65280 (wordAt p 5)
  let floor := clampArg 0 61200 (wordAt p 7)
  let factor := clampArg 1 64 (byteAt p 9)
  let jmax := clampArg 1 64 (byteAt p 10)
  let mx := clampArg 0 64 (byteAt p 11)
  let my := clampArg 0 32 (byteAt p 12)
  (⟨enabled, sx.value, sy.value, nmin.value, sad.value, floor.value, factor.value, jmax.value, mx.value, my.value⟩,
    [sx.changed, sy.changed, nmin.changed, sad.changed, floor.changed, factor.changed, jmax.changed, mx.changed,
      my.changed])

/-- SET_STABILIZER (R84). -/
def execSetStabilizer (m : Moment) (s : State) : Result :=
  .next (s.execute m (CmdMessage.is 17) fun c => State.ofLength 13 c <| State.ofLane c fun n =>
    State.ofField (onOffArg c.payload 1) c fun enabled s =>
      let k := stabilizerArgs enabled c.payload
      (s.modMotion n fun x => { x with settings := k.1 }).answer c (clampCode k.2) [])

/-- The stabilizer settings in R84's order. -/
def Stabilizer.bytes (k : Stabilizer) : List Byte :=
  byteBool k.enabled ++ byte1 k.sx ++ byte1 k.sy ++ byte1 k.nmin ++ byte2 k.sadCeiling ++ byte2 k.contrastFloor
    ++ byte1 k.factor ++ byte1 k.jmax ++ byte1 k.mx ++ byte1 k.my

/-- The summary's fields other than its anchor outcomes, preceded by whether it is present (R82, R85, R183). -/
def summaryBytes : Option Summary → List Byte
  | none => List.replicate 15 0
  | some k =>
    byte1 1 ++ byte1 k.number ++ byteBool k.frozen ++ byteBool k.referenceUsed ++ byteBool k.stabilizerEnabled
      ++ byte1 k.result.code ++ byte1 k.accepted ++ signed1 k.shiftX ++ signed1 k.shiftY ++ signed2 k.jitterX
      ++ signed2 k.jitterY ++ signed1 k.corrX ++ signed1 k.corrY

/-- The job status of a lane: NONE 0, QUEUED 1, RUNNING 2, and the job's frame number, 0 when there is none (R85,
R183). -/
def jobBytes : Option Job → List Byte
  | none => [0, 0]
  | some j => byte1 (if j.run.isSome then 2 else 1) ++ byte1 j.number

/-- READ_MOTION's CONTEXT section (R85). -/
def State.contextBytes (s : State) (n : Lane) : List Byte :=
  let k := (s.lane n).motion
  k.settings.bytes ++ byte1 k.anchors.length ++ signed2 k.jitterX ++ signed2 k.jitterY ++ byteBool k.referenceValid
    ++ jobBytes (s.laneJob n) ++ summaryBytes k.summary ++ k.counters.bytes

/-- An anchor table entry (R85). -/
def Anchor.bytes (a : Anchor) : List Byte := byte1 a.col ++ byte1 a.row ++ byteBool a.enabled

/-- An anchor outcome entry; the fields of an anchor that was not evaluated are sent as 0 (R82, R183). -/
def AnchorResult.bytes (a : AnchorResult) : List Byte :=
  byte1 a.col ++ byte1 a.row ++ byte1 a.outcome.code
    ++ (match a.measure with
        | some k => signed1 k.dx ++ signed1 k.dy ++ byte2 k.sad ++ byte2 k.contrast
        | none => List.replicate 6 0)

/-- Six entries of a list from index `first` on, preceded by the number present (R85, R183). -/
def sixBytes {α : Type} (first : Nat) (f : α → List Byte) (l : List α) : List Byte :=
  byte1 ((l.drop first).take 6).length ++ ((l.drop first).take 6).flatMap f

/-- READ_MOTION's anchor sections: entries and outcomes from index `first` on (R85). -/
def Motion.anchorBytes (first : Nat) (k : Motion) : List Byte :=
  sixBytes first Anchor.bytes k.anchors ++ sixBytes first AnchorResult.bytes (k.summary.elim [] (·.anchors))

/-- READ_MOTION's data (R85). -/
def State.motionBytes (s : State) (n : Lane) : MotionSection → List Byte
  | .context => s.contextBytes n
  | .anchorsLow => (s.lane n).motion.anchorBytes 0
  | .anchorsHigh => (s.lane n).motion.anchorBytes 6

/-- READ_MOTION (R85): the clear option goes with CONTEXT alone. -/
def execReadMotion (m : Moment) (s : State) : Result :=
  .next (s.execute m (CmdMessage.is 18) fun c => State.ofLength 3 c <| State.ofLane c fun n =>
    State.ofField (MotionSection.ofCode (byteAt c.payload 1)) c fun part =>
      State.ofField (onOffArg c.payload 2) c fun clear s =>
        s.unless (!clear || part == .context) .badArg c fun s =>
          (if clear then s.modMotion n fun k => { k with counters := .zero } else s).answer c .ok (s.motionBytes n part))

/-! ### Dust commands -/

/-- The settings of SET_DUST after their clamps, and whether each number changed (R105). -/
def dustArgs (p : List Byte) : DustSettings × List Bool :=
  let trise := clampArg 0 255 (byteAt p 1)
  let kdrop := clampArg 1 14 (byteAt p 2)
  let gmax := clampArg 16 64 (byteAt p 3)
  let b1 := clampArg 1 256 (wordAt p 4)
  let b2 := clampArg 1 256 (wordAt p 6)
  let b3 := clampArg 1 256 (wordAt p 8)
  (⟨trise.value, kdrop.value, gmax.value, b1.value, b2.value, b3.value⟩,
    [trise.changed, kdrop.changed, gmax.changed, b1.changed, b2.changed, b3.changed])

/-- SET_DUST: the thresholds are tested after the clamp (R105). -/
def execSetDust (m : Moment) (s : State) : Result :=
  .next (s.execute m (CmdMessage.is 19) fun c => State.ofLength 10 c <| State.ofLane c fun n s =>
    let k := dustArgs c.payload
    s.unless (k.1.b1 < k.1.b2 && k.1.b2 < k.1.b3) .badArg c fun s =>
      (s.modDust n fun d => { d with settings := k.1 }).answer c (clampCode k.2) [])

/-- The start entry of LOAD_TONE: 0, 64, 128 or 192 (R106). -/
def toneStart (x : Nat) : Option Nat := if x = 0 ∨ x = 64 ∨ x = 128 ∨ x = 192 then some x else none

/-- Entries written into a table from `start` on (R106). -/
def writeEntries (start : Nat) (entries table : List Byte) : List Byte :=
  table.take start ++ entries ++ table.drop (start + entries.length)

/-- LOAD_TONE (R106). -/
def execLoadTone (m : Moment) (s : State) : Result :=
  .next (s.execute m (CmdMessage.is 20) fun c => State.ofLength 66 c <|
    State.ofField (laneArg c.payload 0) c fun band =>
      State.ofField (toneStart (byteAt c.payload 1)) c fun start s =>
        { s with tone := { s.tone with
            pending := s.tone.pending.modify band (writeEntries start (c.payload.drop 2)) } }.answer c .ok [])

/-- READ_DUST_MAP's data (R107). -/
def LaneBlocks.mapBytes (row : Nat) (l : LaneBlocks) : List Byte :=
  let cols := l.rx.geometry.w / 64
  let tiles := (l.dust.table.drop (row * cols)).take cols
  byte1 cols ++ byte1 (l.rx.geometry.h / 32) ++ byte1 row ++ byte2 l.dust.level ++ byte1 l.dust.band
    ++ byte1 tiles.length ++ tiles.flatMap fun t => byte1 t.condition ++ byte1 t.age

/-- READ_DUST_MAP (R107). -/
def execReadDustMap (m : Moment) (s : State) : Result :=
  .next (s.execute m (CmdMessage.is 21) fun c => State.ofLength 2 c <| State.ofLane c fun n s =>
    s.unless (byteAt c.payload 1 < (s.lane n).rx.geometry.h / 32) .badArg c fun s =>
      s.answer c .ok ((s.lane n).mapBytes (byteAt c.payload 1)))

/-! ### Purge commands -/

/-- The settings of SET_PURGE after their clamps, and whether each number changed (R115). -/
def purgeArgs (auto : Bool) (p : List Byte) : PurgeSettings × List Bool :=
  let pulse := clampArg 50 2000 (wordAt p 1)
  let cooldown := clampArg 1 600 (wordAt p 3)
  let asoil := clampArg 10 255 (byteAt p 5)
  let nsoil := clampArg 1 500 (wordAt p 6)
  let kmax := clampArg 1 8 (byteAt p 8)
  (⟨pulse.value, cooldown.value, asoil.value, nsoil.value, kmax.value, auto⟩,
    [pulse.changed, cooldown.changed, asoil.changed, nsoil.changed, kmax.changed])

/-- SET_PURGE (R115). -/
def execSetPurge (m : Moment) (s : State) : Result :=
  .next (s.execute m (CmdMessage.is 22) fun c => State.ofLength 10 c <| State.ofLane c fun n =>
    State.ofField (onOffArg c.payload 9) c fun auto s =>
      let k := purgeArgs auto c.payload
      (s.modPurge n fun p => { p with settings := k.1 }).answer c (clampCode k.2) [])

/-- PURGE_NOW: the report follows the reply (R116). -/
def execPurgeNow (m : Moment) (s : State) : Result :=
  .next (s.execute m (CmdMessage.is 23) fun c => State.ofLength 1 c <| State.ofLane c fun n s =>
    s.unless (!(s.lane n).purge.freezes) .busy c fun s =>
      (s.answer c .ok []).purgeEvent n (Purge.manualBlow n s.now c.origin))

/-- PURGE_REARM (R117). -/
def execPurgeRearm (m : Moment) (s : State) : Result :=
  .next (s.execute m (CmdMessage.is 24) fun c => State.ofLength 1 c <| State.ofLane c fun n s =>
    s.unless ((s.lane n).purge.state == .halted) .wrongState c fun s =>
      (s.modPurge n Purge.rearm).answer c .ok [])

end Sys2Proof.Machine
end

