-- ==== Sys2Proof/Machine/Compose.lean ====
section
/-! DEFINITION. The Compositor (07_composition.md): the layout and the frame plan (R120 to R131), the fetch list of an
output line (R57, R58), and the drawing of its pixels (R104, R127 to R130). -/

namespace Sys2Proof.Machine

/-! ### Rasters (R140) -/

def Raster.width : Raster → Nat
  | .r1280x800 => 1280 | .r1024x600 => 1024 | .r800x480 => 800

def Raster.height : Raster → Nat
  | .r1280x800 => 800 | .r1024x600 => 600 | .r800x480 => 480

/-- The line time in ticks (R140). -/
def Raster.lineTicks : Raster → Nat
  | .r1280x800 => 960 | .r1024x600 => 1280 | .r800x480 => 1600

/-- A line of output black: Y 16, chroma 128 (00_scope.md section 4.4). -/
def blackPixels (n : Nat) : List Byte := (List.replicate n [(16 : Byte), 128]).flatten

/-- The number of a window within its page: 0 to 5. -/
def windowNumbers : List Nat := [0, 1, 2, 3, 4, 5]

/-- A page's window record. -/
def pageWindow (p : Page) (w : Nat) : WindowRecord := p.getD w .reset

/-! ### Swap, reverse, layout (R120 to R123) -/

/-- The swap, when commit is requested (R120); the tone tables' part is `ToneTables.swap`. -/
def Compositor.swap (c : Compositor) : Compositor :=
  if c.commitRequested then
    { c with pagesActive := c.pagesPending, marksActive := c.marksPending, commitRequested := false }
  else c

/-- The tone tables' part of the swap (R103, R120). -/
def ToneTables.swap (requested : Bool) (t : ToneTables) : ToneTables :=
  if requested then { t with active := t.pending } else t

/-- The reverse sample (R121). -/
def Compositor.sampleReverse (level : Bool) (c : Compositor) : Compositor :=
  { c with
    debouncedReverse := if level == c.lastReverse then level else c.debouncedReverse
    lastReverse := level }

/-- The choice of layout (R122). -/
def Compositor.choose (sup : Supervision) (c : Compositor) : ShownPage :=
  match sup with
  | .active => if c.debouncedReverse then .page 3 else .page c.selectedPage
  | _ => .fallback

/-- One axis of the fallback window: destination start, destination size, crop origin (R123); the horizontal crop
origin is then rounded down to even. -/
def fallbackAxis (size raster : Nat) : Nat × Nat × Nat :=
  if raster ≤ size then (0, raster, (size - raster) / 2) else ((raster - size) / 2, size, 0)

/-- The fallback layout's one window (R123). -/
def fallbackWindow (g : Geometry) (r : Raster) : WindowRecord :=
  let hx := fallbackAxis g.w r.width
  let vy := fallbackAxis g.h r.height
  { enabled := true, lane := 0, x := hx.1, y := vy.1, w := hx.2.1, h := vy.2.1
    cx := evenDown hx.2.2, cy := vy.2.2, scale := .one, stabilize := true, markSet := none, anchoring := .view }

/-- The windows of the chosen layout that are drawn, with their numbers, ascending (R122, R123, R124). -/
def State.layoutWindows (s : State) : List (Nat × WindowRecord) :=
  match s.comp.shownPage with
  | .fallback => [(0, fallbackWindow (s.lane 0).rx.geometry s.timing.raster)]
  | .page n => (windowNumbers.map fun w => (w, pageWindow (s.comp.pagesActive.get n) w)).filter (·.2.enabled)

/-! ### Content, crop and marks shift (R124, R126, R131) -/

/-- The source size of a window (R126). -/
def WindowRecord.sourceSize (r : WindowRecord) : Nat × Nat :=
  match r.scale with
  | .one => (r.w, r.h)
  | .down => (2 * r.w, 2 * r.h)
  | .up => (r.w / 2, r.h / 2)

/-- Whether a source size fits a geometry (R124, R132). -/
def fits (size : Nat × Nat) (g : Geometry) : Bool := size.1 ≤ g.w && size.2 ≤ g.h

/-- The content of a window from its lane's SHOWING record, stale age and state (R124). -/
def contentOf (showing : Option FrameRecord) (staleAge holdLimit : Nat) (size : Nat × Nat) (st : LaneState) :
    Content :=
  match showing with
  | none => .lost
  | some r =>
    if holdLimit < staleAge then .lost
    else if !fits size r.geometry then .lost
    else if st ≠ .locked then .stale
    else .normal

/-- One axis of the effective crop: moved by the correction, clamped to 0..limit (R126). -/
def cropAxis (origin : Nat) (corr : Int) (limit : Nat) : Nat := (clampInt 0 limit ((origin : Int) + corr)).toNat

/-- The mark shift of a window (R131). -/
def markShift (r : WindowRecord) (cx cy : Int) : Int × Int :=
  if r.stabilize && r.anchoring == .camera then
    match r.scale with
    | .one => (-cx, -cy)
    | .down => (truncDiv (-cx) 2, truncDiv (-cy) 2)
    | .up => (-2 * cx, -2 * cy)
  else (0, 0)

/-- One window of the frame plan, made at the output frame start (R124, R126, R131). -/
def State.planWindow (s : State) (w : Nat) (r : WindowRecord) : PlanWindow :=
  let l := s.lane r.lane
  let size := r.sourceSize
  let slot := l.store.slotOf .showing
  let record := slot.bind l.store.record
  let content := contentOf record l.staleAge s.comp.holdLimit size l.rx.state
  match slot, record with
  | some i, some f =>
    let corrX := f.conditioned.elim 0 (·.corrX)
    let corrY := f.conditioned.elim 0 (·.corrY)
    let moveX := if r.stabilize then corrX else 0
    let moveY := if r.stabilize then corrY else 0
    { window := w, record := r, content := content
      ox := evenDown (cropAxis r.cx moveX (f.geometry.w - size.1)), oy := cropAxis r.cy moveY (f.geometry.h - size.2)
      sw := size.1, sh := size.2
      shiftX := (markShift r corrX corrY).1, shiftY := (markShift r corrX corrY).2
      view := some ⟨i, f.geometry, f.damaged, f.conditioned.elim [] (·.gains), f.conditioned.elim 0 (·.band),
        l.dust.table.map (·.lastMean)⟩ }
  | _, _ =>
    { window := w, record := r, content := .lost, ox := 0, oy := 0, sw := size.1, sh := size.2, shiftX := 0
      shiftY := 0, view := none }

/-- The frame plan of the chosen layout. -/
def State.makePlan (s : State) : List PlanWindow := s.layoutWindows.map fun w => s.planWindow w.1 w.2

/-- The Compositor's stages 1 to 4 of an output frame start, in order (section 7.3): swap, reverse sample, layout,
content and crop. -/
def State.composeFrame (s : State) : State :=
  let requested := s.comp.commitRequested
  let s := { s.modComp Compositor.swap with tone := s.tone.swap requested }
  let s := s.modComp (Compositor.sampleReverse s.reverse)
  let s := s.modComp fun c => { c with shownPage := c.choose s.chan.supervision }
  s.modComp fun c => { c with plan := s.makePlan }

/-! ### The fetch list (R57, R58, R127) -/

/-- Whether a window's destination covers a raster column and row. -/
def WindowRecord.covers (r : WindowRecord) (x y : Nat) : Bool :=
  r.x ≤ x && x < r.x + r.w && r.y ≤ y && y < r.y + r.h

/-- The source line that output line `y` needs of a window (R127). -/
def PlanWindow.sourceLine (p : PlanWindow) (y : Nat) : Nat :=
  match p.record.scale with
  | .one => p.oy + (y - p.record.y)
  | .down => p.oy + 2 * (y - p.record.y)
  | .up => p.oy + (y - p.record.y) / 2

/-- The source column of raster column `x` (R127). -/
def PlanWindow.sourceColumn (p : PlanWindow) (x : Nat) : Nat :=
  match p.record.scale with
  | .one => p.ox + (x - p.record.x)
  | .down => p.ox + 2 * (x - p.record.x)
  | .up => p.ox + (x - p.record.x) / 2

/-- Concealment (R57): a damaged line is replaced by the nearest preceding undamaged line of the frame, or by the
nearest following one (log 30 where neither exists). -/
def concealed (damaged : List Nat) (h line : Nat) : Nat :=
  if damaged.contains line then
    match (List.range line).reverse.find? fun l => !damaged.contains l with
    | some l => l
    | none =>
      match (List.range h).find? fun l => line < l && !damaged.contains l with
      | some l => l
      | none => line
  else line

/-- The segments of one window's entry in the fetch list of output line `y` (R57, R58). -/
def PlanWindow.fetchItems (p : PlanWindow) (y : Nat) : List FetchItem :=
  match p.content, p.view with
  | .lost, _ => []
  | _, none => []
  | _, some v =>
    if p.record.y ≤ y && y < p.record.y + p.record.h then
      let line := concealed v.damaged v.geometry.h (p.sourceLine y)
      let first := 2 * p.ox / 512
      let last := (2 * (p.ox + p.sw - 1) + 1) / 512
      (List.range (last + 1 - first)).map fun i =>
        ⟨p.window, p.record.lane, v.slot, line, first + i, segmentBytes v.geometry.w (first + i)⟩
    else []

/-- The fetch list of output line `y`: each window in ascending window number (section 3.8). -/
def fetchList (plan : List PlanWindow) (y : Nat) : List FetchItem := plan.flatMap fun p => p.fetchItems y

/-! ### Pixels (R104, R127 to R130) -/

/-- A pixel: luma and chroma sample. -/
structure Pixel where
  y : Nat
  c : Nat
deriving DecidableEq, Repr

/-- The chroma sample of a colour at a raster column: Cb at even columns, Cr at odd ones (R127, R130). -/
def Colour.chroma (k : Colour) (x : Nat) : Nat := if x % 2 = 0 then k.cb.toNat else k.cr.toNat

/-- A byte of the line read for a window, from the segments fetched for it. -/
def sourceByte (got : List Fetched) (w offset : Nat) : Nat :=
  match got.find? fun f => f.window == w && f.segment == offset / 512 with
  | some f => byteAt f.data (offset % 512)
  | none => 0

/-- Luma conditioning by the tile's gain about its mean, then the tone table (R104). -/
def conditionLuma (tone : List Byte) (gain mean y : Nat) : Nat :=
  byteAt tone (clampInt 0 255 ((mean : Int) + roundDiv (((y : Int) - mean) * gain) 16)).toNat

/-- The tile number, in tile order, of a source position (R104). -/
def tileIndex (g : Geometry) (x y : Nat) : Nat := y / 32 * (g.w / 64) + x / 64

/-- The conditioned source pixel of a window at raster position (x, y) (R104, R127). -/
def PlanWindow.sourcePixel (p : PlanWindow) (v : FrameView) (tone : Four (List Byte)) (got : List Fetched) (x y : Nat) :
    Pixel :=
  let sx := p.sourceColumn x
  let tile := tileIndex v.geometry sx (p.sourceLine y)
  let table := tone.get (Fin.ofNat 4 v.band)
  ⟨conditionLuma table (v.gains.getD tile 16) (v.means.getD tile 0) (sourceByte got p.window (2 * sx)),
    sourceByte got p.window (2 * (2 * (sx / 2) + x % 2) + 1)⟩

/-- One mark over a pixel at window position (i, j) and raster column `x` (R130). -/
def drawMark (set : MarkSet) (shiftX shiftY : Int) (i j x : Nat) (px : Pixel) (m : Mark) : Pixel :=
  if m.x + shiftX ≤ i && (i : Int) < m.x + shiftX + m.w && m.y + shiftY ≤ j && (j : Int) < m.y + shiftY + m.h then
    let k := set.palette.get m.colour
    match m.mode with
    | .opaqueMark => ⟨k.y.toNat, k.chroma x⟩
    | .half => ⟨(px.y + k.y.toNat) / 2, (px.c + k.chroma x) / 2⟩
  else px

/-- The marks of a window over a pixel, in index order (R130). -/
def PlanWindow.drawMarks (p : PlanWindow) (sets : Four MarkSet) (x y : Nat) (px : Pixel) : Pixel :=
  match p.record.markSet with
  | none => px
  | some n =>
    (sets.get n).marks.foldl (drawMark (sets.get n) p.shiftX p.shiftY (x - p.record.x) (y - p.record.y) x) px

/-- The substitute block over a pixel: columns and rows 0 to 15 of the window, in colour 3 of mark set 0 (R128). -/
def PlanWindow.drawBlock (p : PlanWindow) (sets : Four MarkSet) (x y : Nat) (px : Pixel) : Pixel :=
  if x - p.record.x < 16 && y - p.record.y < 16 then
    ⟨(sets.e0.palette.get 3).y.toNat, (sets.e0.palette.get 3).chroma x⟩
  else px

/-- A window's pixel, by its content (R128). -/
def PlanWindow.pixel (p : PlanWindow) (tone : Four (List Byte)) (sets : Four MarkSet) (got : List Fetched) (x y : Nat) :
    Pixel :=
  match p.content, p.view with
  | .normal, some v => p.drawMarks sets x y (p.sourcePixel v tone got x y)
  | .stale, some v => p.drawBlock sets x y (p.drawMarks sets x y (p.sourcePixel v tone got x y))
  | _, _ => p.drawBlock sets x y ⟨64, 128⟩

/-- A pixel of an output line: the covering window of the highest number, or output black (R128). -/
def State.pixel (s : State) (got : List Fetched) (x y : Nat) : Pixel :=
  match (s.comp.plan.filter fun p => p.record.covers x y).getLast? with
  | some p => p.pixel s.tone.active s.comp.marksActive got x y
  | none => ⟨16, 128⟩

/-- A pixel's two bytes, luma first (R140). -/
def Pixel.bytes (p : Pixel) : List Byte := [BitVec.ofNat 8 p.y, BitVec.ofNat 8 p.c]

/-- The bytes of active output line `y`, luma first (R128, R140). -/
def State.drawLine (s : State) (got : List Fetched) (y : Nat) : List Byte :=
  (List.range s.timing.raster.width).flatMap fun x => (s.pixel got x y).bytes

end Sys2Proof.Machine
end

