-- ==== Sys2Proof/Machine/Arbiter.lean ====
section
/-! DEFINITION. The compositor read buffer and the store arbiter (03_frame_store.md sections 3.8 and 3.9, R58, R60,
R61): who waits for the port, and the grant. -/

namespace Sys2Proof.Machine

/-! ### The read buffer (R58) -/

/-- The place of output line `k` (log 28). -/
def ReadBuffer.place (k : Nat) (b : ReadBuffer) : LinePlace := if k % 2 = 0 then b.place0 else b.place1

/-- Put something in the place of output line `k`. -/
def ReadBuffer.put (k : Nat) (p : LinePlace) (b : ReadBuffer) : ReadBuffer :=
  if k % 2 = 0 then { b with place0 := p } else { b with place1 := p }

/-- The segments already held for output line `k`. -/
def LinePlace.gotFor (k : Nat) : LinePlace → List Fetched
  | .filling line got => if line = k then got else []
  | _ => []

/-- The bytes of output line `k` when its place holds it complete. -/
def LinePlace.completeFor (k : Nat) : LinePlace → Option (List Byte)
  | .complete line pixels => if line = k then some pixels else none
  | _ => none

/-- The segments held for output line `k`. -/
def State.got (s : State) (k : Nat) : List Fetched := (s.readBuffer.place k).gotFor k

/-- The complete output line `k`, if it is held. -/
def State.completeLine (s : State) (k : Nat) : Option (List Byte) := (s.readBuffer.place k).completeFor k

/-- Whether output line `k` is the one to be fetched: the next active line of the output frame being sent, while it is
not yet complete. A line after it waits, since one complete line is then held (R58). DESIGN CHOICE: it waits also behind
a line that is complete at once with an empty fetch list, which holds no data (log 42). -/
def State.wanted (s : State) (k : Nat) : Bool :=
  s.timing.phase == .picture && s.timing.nextLine == k && k < s.timing.raster.height && (s.completeLine k).isNone

/-- Whether a fetched segment is the one an item names. -/
def FetchItem.isGot (got : List Fetched) (i : FetchItem) : Bool :=
  got.any fun f => f.window == i.window && f.segment == i.segment

/-- The segments of output line `k`'s fetch list that remain unfetched, in list order. -/
def State.unfetched (s : State) (k : Nat) : List FetchItem :=
  (fetchList s.comp.plan k).filter fun i => !i.isGot (s.got k)

/-- An output line whose last segment has been read, or whose fetch list is empty, becomes complete (R58). -/
def State.completeNext (s : State) : State :=
  let k := s.timing.nextLine
  if s.wanted k && (s.unfetched k).isEmpty then
    { s with readBuffer := s.readBuffer.put k (.complete k (s.drawLine (s.got k) k)) }
  else s

/-! ### Who waits (R60) -/

/-- The Compositor's fetch request: the next segment of the next output line (R58). -/
def State.fetchRequest (s : State) : Option TransferKind :=
  let k := s.timing.nextLine
  if s.wanted k then (s.unfetched k).head?.map (.fetch k) else none

/-- Lane `n`'s write request: the next unwritten segment of its head line (R48). -/
def State.writeRequest (s : State) (n : Lane) : Option TransferKind :=
  match (s.lane n).store.buffer with
  | [] => none
  | b :: _ =>
    if b.written < b.segments then
      ((s.lane n).store.headSlot b).map fun i => .write n i b.line b.written (segmentOf b.payload b.written)
    else none

/-- The lanes in the order the arbiter looks at them, after the last lane granted (R60). -/
def roundRobin (last : Lane) : List Lane := [last + 1, last + 2, last + 3, last]

/-- The first lane with a write waiting (R60). -/
def State.firstWrite (s : State) : Option TransferKind :=
  (roundRobin s.arb.lastGranted).findSome? s.writeRequest

/-- What the arbiter grants: refresh with 8 owed, a compositor fetch, a lane write, refresh with 1 owed, a conditioning
read, in that order (R60). -/
def State.nextGrant (s : State) : Option TransferKind :=
  if 8 ≤ s.arb.owed then some .refresh
  else match s.fetchRequest with
    | some k => some k
    | none =>
      match s.firstWrite with
      | some k => some k
      | none => if 1 ≤ s.arb.owed then some .refresh else s.readRequest

/-! ### The grant (R60) -/

/-- How long a granted transfer holds the port (R60). -/
def TransferKind.ticks : TransferKind → Nat
  | .refresh => refreshTicks
  | .fetch _ item => segmentTicks item.bytes
  | .write _ _ _ _ data => segmentTicks data.length
  | .read _ _ _ _ bytes => segmentTicks bytes

/-- The last lane granted changes with a lane write alone (R60). -/
def TransferKind.granted (last : Lane) : TransferKind → Lane
  | .write n _ _ _ _ => n
  | _ => last

/-- A granted fetch takes its output line's place (R58). -/
def State.takePlace (k : TransferKind) (s : State) : State :=
  match k with
  | .fetch line _ => { s with readBuffer := s.readBuffer.put line (.filling line (s.got line)) }
  | _ => s

/-- The port is taken by a transfer (R60). -/
def State.hold (k : TransferKind) (s : State) : State :=
  (s.takePlace k).modArb fun a =>
    { a with port := some ⟨k, s.now + k.ticks, true⟩, lastGranted := k.granted a.lastGranted }

/-- When the port is idle and store-ready is set, the arbiter grants the first request that waits (R43, R60). -/
def State.grant (s : State) : State :=
  if s.arb.storeReady && s.arb.port.isNone then
    match s.nextGrant with
    | some k => s.hold k
    | none => s
  else s

/-- The end of an event that can bring a request or free the port: a line that needs no more segments is complete, and
the arbiter grants (R58, R60). -/
def State.serve (s : State) : State := s.completeNext.grant

end Sys2Proof.Machine
end

