-- ==== Sys2Proof/Machine/LinkTest.lean ====
section
/-! DEFINITION. The Link Test Unit: the sequences, the generator and the checker (R170 to R175). -/

namespace Sys2Proof.Machine

/-- A shift state of all ones (R170, R171). -/
def Pattern.allOnes (p : Pattern) : List Bool := List.replicate p.seedLength true

/-- The next bit from a shift state held oldest first: the exclusive-or of the bits 5 and 9 places earlier for
SHORT, 14 and 15 for LONG (R173). -/
def Pattern.predict (p : Pattern) (shift : List Bool) : Bool :=
  match p with
  | .short => shift.getD 4 false != shift.getD 0 false
  | .long => shift.getD 1 false != shift.getD 0 false

/-- A bit enters a shift state and the oldest leaves. -/
def shiftIn (shift : List Bool) (b : Bool) : List Bool := shift.drop 1 ++ [b]

/-- `n` bits of the sequence and the shift state after them: each bit sent is the oldest, the one that leaves
(R173). -/
def Pattern.generate (p : Pattern) : Nat → List Bool → List Bool × List Bool
  | 0, shift => ([], shift)
  | n + 1, shift =>
    let rest := Pattern.generate p n (shiftIn shift (p.predict shift))
    (shift.getD 0 false :: rest.1, rest.2)

/-- Bits as bytes, most significant bit first; `n` is how many bytes. -/
def packBits : Nat → List Bool → List Byte
  | 0, _ => []
  | n + 1, bits => bitsByte bits :: packBits n (bits.drop 8)

/-! ### The checker -/

/-- The checker as on entry to a test mode (R171): HUNT, nothing loaded, no errors. -/
def LinkTest.resetChecker (t : LinkTest) : LinkTest :=
  { t with checker := .hunt, inverted := false, seedCount := 0, run := 0, errorCount := 0, window := [] }

/-- One bit taken in HUNT (R174). -/
def LinkTest.huntBit (t : LinkTest) (b : Bool) : LinkTest :=
  if t.seedCount < t.pattern.seedLength then
    { t with
      chkShift := (t.chkShift ++ [b]).drop (t.chkShift.length + 1 - t.pattern.seedLength)
      seedCount := t.seedCount + 1 }
  else
    let correct := t.pattern.predict t.chkShift == b
    let shift := shiftIn t.chkShift b
    if t.run = 0 || t.runCorrect == correct then
      if t.run + 1 = 64 then
        { t with
          checker := .sync, inverted := !correct, run := 64, runCorrect := correct, window := []
          chkShift := if correct then shift else shift.map (!·) }
      else { t with chkShift := shift, run := t.run + 1, runCorrect := correct }
    else { t with chkShift := shift, run := 0, seedCount := 0 }

/-- How many errors the window holds. -/
def windowErrors (w : List Bool) : Nat := w.countP id

/-- One bit taken in SYNC (R175). -/
def LinkTest.syncBit (t : LinkTest) (b : Bool) : LinkTest :=
  let prediction := t.pattern.predict t.chkShift
  let error := b != (prediction != t.inverted)
  let window := (if t.window.length ≥ 256 then t.window.drop (t.window.length - 255) else t.window) ++ [error]
  let t := { t with
    errorCount := if error then satAdd 65535 t.errorCount 1 else t.errorCount
    chkShift := shiftIn t.chkShift prediction
    window := window }
  if windowErrors window ≥ 16 then
    { t with checker := .hunt, inverted := false, seedCount := 0, run := 0, window := [] }
  else t

/-- The checker takes one bit (R174, R175). -/
def LinkTest.takeBit (t : LinkTest) (b : Bool) : LinkTest :=
  match t.checker with
  | .hunt => t.huntBit b
  | .sync => t.syncBit b

/-- The checker takes every bit of a payload in order (R173). -/
def LinkTest.takePayload (t : LinkTest) (payload : List Byte) : LinkTest :=
  (bitsOf payload).foldl LinkTest.takeBit t

/-! ### The generator -/

/-- The line time of INTERNAL video: floor(P / (H + 8)) ticks, P the free-run period in ticks (R173). -/
def generatorLineTime (freeRun h : Nat) : Nat := usTicks freeRun / (h + 8)

/-- When the generator's next packet falls (R173). -/
def GeneratorRun.due (g : GeneratorRun) : Nat :=
  if g.made = 0 then g.frameStart
  else if g.made ≤ g.geometry.h then g.frameStart + g.made * g.lineTime
  else g.frameStart + (g.geometry.h + 1) * g.lineTime

/-- The payload of a generated LINE and the unit after it: successive bits of the sequence, the first payload bit
inverted when an error is pending, which is then cleared and does not enter the shift state (R173). -/
def LinkTest.makePayload (t : LinkTest) (w : Nat) : List Byte × LinkTest :=
  let r := t.pattern.generate (16 * w) t.genShift
  let bits := match r.1 with
    | b :: rest => (if t.injectPending then !b else b) :: rest
    | [] => []
  (packBits (2 * w) bits, { t with genShift := r.2, injectPending := false })

/-- A generated packet: good checks, zero relay fields (R173). -/
def generated (kind : PacketKind) (number word1 word3 : Nat) (payload : List Byte) : Packet :=
  ⟨kind, number, word1, word3, .zero, payload, true⟩

/-- The packet the generator makes next, and the unit after it. `geometry` is the lane geometry and `freeRun` the
free-run period in force, which a frame takes at its FRAME_START (R173). -/
def LinkTest.makePacket (t : LinkTest) (g : GeneratorRun) (geometry : Geometry) (freeRun : Nat) : Packet × LinkTest :=
  if g.made = 0 then
    (generated .frameStart t.genFrame geometry.w geometry.h [],
      { t with genRun := some ⟨g.frameStart, generatorLineTime freeRun geometry.h, geometry, 1⟩ })
  else if g.made ≤ g.geometry.h then
    let r := t.makePayload g.geometry.w
    (generated .line t.genFrame (g.made - 1) 0 r.1, { r.2 with genRun := some { g with made := g.made + 1 } })
  else
    (generated .frameEnd t.genFrame 0 0 [],
      { t with
        genFrame := (t.genFrame + 1) % 16
        genRun := some { g with frameStart := g.frameStart + (g.geometry.h + 8) * g.lineTime, made := 0 } })

/-- The generator starts its first frame, number 0, one line time after entry to INTERNAL (R171; log 22). -/
def LinkTest.startGenerator (t : LinkTest) (now freeRun : Nat) (geometry : Geometry) : LinkTest :=
  let lineTime := generatorLineTime freeRun geometry.h
  { t with
    genShift := t.pattern.allOnes, injectPending := false, genFrame := 0
    genRun := some ⟨now + lineTime, lineTime, geometry, 0⟩ }

/-- The generator stops and a generated frame in progress is cut off (R171, R172). -/
def LinkTest.stopGenerator (t : LinkTest) : LinkTest := { t with genRun := none }

end Sys2Proof.Machine
end

