-- ==== Sys2Proof/Machine/Relay.lean ====
section
/-! DEFINITION. The Relay Unit (02_camera_relay.md, R27 to R40): one context's answer to each event, with the
reports it offers, in order. -/

namespace Sys2Proof.Machine

/-- The number of CAMERA_MESSAGE, from which every relay report follows (R37). -/
def cameraMessageNumber : Nat := 12

/-- A RELAY_FAILED report (R37). `phase` is coded QUEUED 0, SENDING 1, AWAITING_REPLY 2. -/
def relayFailedReport (n : Lane) (msg : RelayMessage) (reason : RelayReason) (phase taken replies : Nat) : Notice :=
  .report .relayFailed (some (cameraMessageNumber, msg.tag))
    (byte1 n.val ++ [msg.tag] ++ byte1 reason.code ++ byte1 phase ++ byte1 taken ++ byte1 replies)

/-- A RELAY_DONE report (R37). -/
def relayDoneReport (n : Lane) (msg : RelayMessage) (reply : List Byte) : Notice :=
  .report .relayDone (some (cameraMessageNumber, msg.tag))
    (byte1 n.val ++ [msg.tag] ++ byte1 reply.length ++ reply)

/-- The code of the phase of a message in flight (section 11.5). -/
def RelayPhase.code : RelayPhase → Nat
  | .sending => 1
  | .awaitingReply => 2

/-- The context resynchronises: send toggle 1, accepted reply toggle 0, no candidate (R29). -/
def Relay.resync (r : Relay) : Relay :=
  { r with sendToggle := true, acceptedToggle := false, candidate := none }

/-- Two abort words are owed, with the resynchronisation (R29). -/
def Relay.oweAborts (r : Relay) : Relay := { r.resync with abortOwed := 2 }

/-- The head message goes in flight when none is in flight and no abort words are owed (R30). -/
def Relay.launch (now : Nat) (r : Relay) : Relay :=
  if !r.queue.isEmpty && r.inFlight.isNone && r.abortOwed == 0 then
    { r with
      inFlight := some .sending, byteIndex := 0, offered := false, taken := 0, reply := []
      progressDue := some (now + msTicks r.timeout) }
  else r

/-- The message in flight fails and leaves the queue: the report of R37, nothing in flight, the progress timer
stopped. -/
def Relay.failInFlight (n : Lane) (reason : RelayReason) (r : Relay) : Relay × List Notice :=
  match r.inFlight, r.queue with
  | some phase, msg :: rest =>
    ({ r with queue := rest, inFlight := none, progressDue := none },
      [relayFailedReport n msg reason phase.code r.taken r.reply.length])
  | _, _ => (r, [])

/-- Every message fails, the one in flight first and the others oldest first (R36, R40). -/
def Relay.failAll (n : Lane) (reason : RelayReason) (r : Relay) : Relay × List Notice :=
  let a := r.failInFlight n reason
  ({ a.1 with queue := [], inFlight := none, progressDue := none },
    a.2 ++ a.1.queue.map fun msg => relayFailedReport n msg reason 0 0 0)

/-- A camera abort is taken when the flag is set and was not seen set before; every good header then sets
'camera abort seen' (R35). The abort fails the message in flight and resynchronises; abort words owed stay. -/
def Relay.takeAbort (n : Lane) (flag : Bool) (r : Relay) : Relay × List Notice :=
  if flag && !r.abortSeen then
    let a := r.failInFlight n .aborted
    ({ a.1.resync with reply := if r.inFlight.isSome then [] else r.reply, abortSeen := flag }, a.2)
  else ({ r with abortSeen := flag }, [])

/-- An ack toggle equal to the send toggle acknowledges the offered byte of a message in SENDING (R31). -/
def Relay.takeAck (now : Nat) (ack : Bool) (r : Relay) : Relay :=
  match r.inFlight, r.queue with
  | some .sending, msg :: _ =>
    if r.offered && ack == r.sendToggle then
      let r := { r with
        taken := r.taken + 1, sendToggle := !r.sendToggle, progressDue := some (now + msTicks r.timeout) }
      if r.byteIndex + 1 = msg.bytes.length then { r with inFlight := some .awaitingReply }
      else { r with byteIndex := r.byteIndex + 1, offered := false }
    else r
  | _, _ => r

/-- An accepted reply byte (R33): overlong with 32 held, complete with reply end, otherwise added. -/
def Relay.acceptByte (n : Lane) (b : Byte) (last : Bool) (r : Relay) : Relay × List Notice :=
  match r.queue with
  | [] => (r, [])
  | msg :: rest =>
    if r.reply.length ≥ 32 then
      let a := r.failInFlight n .overlong
      (a.1.oweAborts, a.2)
    else if last then
      ({ r with queue := rest, inFlight := none, progressDue := none, reply := r.reply ++ [b] },
        [relayDoneReport n msg (r.reply ++ [b])])
    else ({ r with reply := r.reply ++ [b] }, [])

/-- The reply fields of a good header (R32): in AWAITING_REPLY a new byte is accepted, at once without the double
look, otherwise when the candidate agrees with it. The candidate then takes the header's fields (log 23). -/
def Relay.takeReply (n : Lane) (now : Nat) (f : RelayFields) (r : Relay) : Relay × List Notice :=
  let look : Candidate := ⟨f.replyToggle, f.reply, f.replyEnd⟩
  let accept := r.inFlight == some .awaitingReply && f.replyToggle != r.acceptedToggle
    && (!r.doubleLook || r.candidate == some look)
  let seen := { r with candidate := some look }
  if accept then
    { seen with acceptedToggle := f.replyToggle, progressDue := some (now + msTicks r.timeout) }.acceptByte n
      f.reply f.replyEnd
  else (seen, [])

/-- A good header's relay fields, in the order of R28: camera abort, ack toggle, reply; then the head may go in
flight (R30). -/
def Relay.takeHeader (n : Lane) (now : Nat) (f : RelayFields) (r : Relay) : Relay × List Notice :=
  let a := r.takeAbort n f.abort
  let b := (a.1.takeAck now f.ack).takeReply n now f
  (b.1.launch now, a.2 ++ b.2)

/-- The byte the in-flight message offers, and whether it is the last (R28). -/
def Relay.offeredByte (r : Relay) : Byte × Bool :=
  match r.queue with
  | msg :: _ => (msg.bytes.getD r.byteIndex 0, r.byteIndex + 1 == msg.bytes.length)
  | [] => (0, false)

/-- The forward word built from the context, as its four bytes: byte; toggle, end, part-abort, reply-ack; CRC
(R28, R180). -/
def Relay.buildWord (r : Relay) : List Byte :=
  if r.abortOwed > 0 then withCrc [0, flagByte false false true false]
  else if r.inFlight = some .sending then
    withCrc [r.offeredByte.1, flagByte r.sendToggle r.offeredByte.2 false r.acceptedToggle]
  else withCrc [0, flagByte (!r.sendToggle) false false r.acceptedToggle]

/-- The forward word goes out: an abort word is no longer owed, an offered byte has been offered; when the last abort
word has gone the head may go in flight (R28, R29, R30). -/
def Relay.sendWord (now : Nat) (r : Relay) : Relay :=
  let word := r.buildWord
  if r.abortOwed > 0 then { r with abortOwed := r.abortOwed - 1, forwardWord := some word }.launch now
  else if r.inFlight = some .sending then { r with offered := true, forwardWord := some word }
  else { r with forwardWord := some word }

/-- A packet received from the camera: its relay fields when the header is good, then the forward word (R28). -/
def Relay.takePacket (n : Lane) (now : Nat) (fields : Option RelayFields) (r : Relay) : Relay × List Notice :=
  match fields with
  | none => ({ r with candidate := none }.sendWord now, [])
  | some f =>
    let a := r.takeHeader n now f
    (a.1.sendWord now, a.2)

/-- The progress timer expires: the message fails with TIMEOUT and two abort words are owed (R34). -/
def Relay.timeOut (n : Lane) (r : Relay) : Relay × List Notice :=
  let a := r.failInFlight n .timeout
  ({ a.1.oweAborts with reply := [], progressDue := none }, a.2)

/-- A lane down or lane release: every message fails with LANE_DOWN and two abort words are owed (R36). -/
def Relay.laneDown (n : Lane) (r : Relay) : Relay × List Notice :=
  let a := r.failAll n .laneDown
  ({ a.1.oweAborts with reply := [] }, a.2)

/-- RELAY_FLUSH: every message fails with FLUSHED; two abort words are owed if one was in flight (R40). -/
def Relay.flush (n : Lane) (r : Relay) : Relay × List Notice :=
  let a := r.failAll n .flushed
  (if r.inFlight.isSome then a.1.oweAborts else a.1, a.2)

/-- CAMERA_MESSAGE appends a message, which goes in flight at once when R30 lets it (R38). -/
def Relay.append (now : Nat) (msg : RelayMessage) (r : Relay) : Relay :=
  { r with queue := r.queue ++ [msg] }.launch now

/-- Change lane `n`'s relay context and offer its reports in order. -/
def State.relayEvent (n : Lane) (f : Relay → Relay × List Notice) (s : State) : State :=
  (s.modRelay n fun r => (f r).1).offerAll (f (s.lane n).relay).2

end Sys2Proof.Machine
end

