-- ==== Sys2Proof/Machine/Timing.lean ====
section
/-! DEFINITION. The Output Timing Generator (08_output_timing_and_the_status_line.md, R141 to R149): the master, the
start watch, and the output frame start with what it does to the rings (R53), the read buffer (R54) and the
Compositor (section 7.3). -/

namespace Sys2Proof.Machine

/-! ### Watch and holdover (R143, R144) -/

/-- The shortest time from an output frame start to its flywheel deadline: 20,000 µs (R143). -/
def shortestDeadline : Nat := 800000

/-- The flywheel deadline's distance F from the start that arms it (R143). -/
def Timing.flywheelTicks (t : Timing) : Nat :=
  max shortestDeadline (match t.average with
    | some avg => 9 * avg / 128
    | none => 9 * usTicks t.freeRun / 8)

/-- The timer's period T (R144). -/
def Timing.timerTicks (t : Timing) : Nat :=
  match t.mode with
  | .free => usTicks t.freeRun
  | _ => if t.holdover then t.holdoverPeriod.getD (usTicks t.freeRun) else usTicks t.freeRun

/-- The holdover period taken at the loss of a master (R144). -/
def Timing.lossPeriod (t : Timing) : Nat :=
  match t.average with
  | some avg => clampNat 800000 2000000 (avg / 16)
  | none => usTicks t.freeRun

/-- The master is lost: the holdover period is taken, the flag set unless the mode is FREE, and average, offset mark
and flywheel count are cleared (R144, R146, R147). -/
def Timing.lose (t : Timing) : Timing :=
  { t with
    master := none, holdoverPeriod := some t.lossPeriod, holdover := t.mode != .free
    average := none, offsetMark := none, flywheel := 0 }

/-- A lane becomes master (R146). -/
def Timing.choose (n : Lane) (t : Timing) : Timing :=
  { t with master := some n, average := none, offsetMark := none, flywheel := 0, holdover := false }

/-! ### Reports (R148) -/

/-- A lane or none as a number. -/
def optLane (m : Option Lane) : Option Nat := m.map (·.val)

/-- A TIMING report; `t` is the generator after the change (R148). It carries no tag (00_scope.md section 4.8). DESIGN
CHOICE: its command number is 0 also where a command's execution brings it (log 43). -/
def timingReport (previous : Option Lane) (cause : TimingCause) (t : Timing) : Notice :=
  .report .timing none
    (optByte1 (optLane previous) ++ optByte1 (optLane t.master) ++ byte1 cause.code ++ byte1 t.mode.code
      ++ byteBool t.holdover
      ++ optByte2 (if t.holdover then t.holdoverPeriod.map (· / 40) else none)
      ++ byte2 t.frameNumber)

/-! ### Selection of the master (R146) -/

/-- Whether a lane qualifies: LOCKED in mode NORMAL, and not dropped by its third forced start (R146). -/
def State.qualifies (s : State) (dropped : Option Lane) (n : Lane) : Bool :=
  (s.lane n).rx.video && dropped != some n

/-- The candidate by the timing mode in force (R146). -/
def State.candidate (s : State) (dropped : Option Lane) : Option Lane :=
  match s.timing.mode with
  | .auto => s.timing.priority.toList.find? (s.qualifies dropped)
  | .fixed n => if s.qualifies dropped n then some n else none
  | .free => none

/-- The cause of a change of master at a start (R148): FLYWHEEL, SETTINGS, or SELECTED, also where the mode
still names a master that is lost (log 21). -/
def Timing.changeCause (dropped : Option Lane) (t : Timing) : TimingCause :=
  match t.master with
  | none => .selected
  | some p =>
    if dropped = some p then .flywheel
    else match t.mode with
      | .auto => .selected
      | .fixed n => if n = p then .selected else .settings
      | .free => .settings

/-- The selection at an output frame start (R146). `dropped` is the lane whose third consecutive forced start this
is. -/
def State.selectMaster (dropped : Option Lane) (s : State) : State :=
  let cause := s.timing.changeCause dropped
  let previous := s.timing.master
  match previous, s.candidate dropped with
  | some p, some n =>
    if p = n then s
    else
      let s := s.modTiming (Timing.choose n)
      s.offer (timingReport previous cause s.timing)
  | none, some n =>
    let s := s.modTiming (Timing.choose n)
    s.offer (timingReport previous cause s.timing)
  | some _, none =>
    let s := s.modTiming Timing.lose
    s.offer (timingReport previous cause s.timing)
  | none, none => s.modTiming fun t => { t with holdover := t.holdover && t.mode != .free }

/-! ### The raster change (R149) -/

/-- Whether a window's destination fits a raster. -/
def WindowRecord.fitsRaster (r : WindowRecord) (k : Raster) : Bool :=
  r.x + r.w ≤ k.width && r.y + r.h ≤ k.height

/-- Whether a raster change disables a window record. -/
def WindowRecord.misfit (k : Raster) (r : WindowRecord) : Bool := r.enabled && !r.fitsRaster k

/-- A page with the windows that no longer fit disabled, their other fields kept (R149). -/
def disableMisfits (k : Raster) (p : Page) : Page :=
  p.map fun r => if r.misfit k then { r with enabled := false } else r

/-- The numbers of a page's windows that a raster change disables. -/
def misfits (k : Raster) (p : Page) : List Nat := windowNumbers.filter fun w => (pageWindow p w).misfit k

/-- A list of window numbers, preceded by its count (R183). -/
def countedWindows (l : List Nat) : List Byte := byte1 l.length ++ l.flatMap byte1

/-- A WINDOW_DISABLED report: for each page, the windows disabled in the active and in the pending image (R149). Its
command number is 0 as that of a TIMING report (log 43). -/
def windowDisabledReport (k : Raster) (c : Compositor) : Notice :=
  .report .windowDisabled none (fourNumbers.flatMap fun n =>
    countedWindows (misfits k (c.pagesActive.get n)) ++ countedWindows (misfits k (c.pagesPending.get n)))

/-- Whether a raster change disables any window. -/
def Compositor.anyMisfit (k : Raster) (c : Compositor) : Bool :=
  (c.pagesActive.toList ++ c.pagesPending.toList).any fun p => !(misfits k p).isEmpty

/-- A pending raster is applied (R149). -/
def State.applyRaster (s : State) : State :=
  match s.timing.pendingRaster with
  | none => s
  | some k =>
    let old := s.timing.raster
    let before := s.comp
    let s := s.modTiming fun t => { t with raster := k, pendingRaster := none }
    if k = old then s
    else
      let s := s.modComp fun c =>
        { c with pagesActive := c.pagesActive.map (disableMisfits k)
                 pagesPending := c.pagesPending.map (disableMisfits k) }
      if before.anyMisfit k then s.offer (windowDisabledReport k before) else s

/-! ### The output frame start (R145, R53, R54, section 7.3) -/

/-- The rings and stale ages at an output frame start (R53, R125). -/
def LaneBlocks.atFrameStart (l : LaneBlocks) : LaneBlocks :=
  { l with
    store := l.store.display
    staleAge := if (l.store.slotOf .ready).isSome then 0 else satAdd 255 l.staleAge 1 }

/-- The output frame number (R145 step 1). -/
def Timing.numberFrame (t : Timing) : Timing :=
  if t.firstPending then { t with firstPending := false } else { t with frameNumber := (t.frameNumber + 1) % 65536 }

/-- The sync offset set by SET_TIMING takes force; if it changes the offset mark becomes none (R153). -/
def Timing.latchSync (t : Timing) : Timing :=
  { t with
    offsetMark := if t.syncOffset = t.syncInForce then t.offsetMark else none, syncInForce := t.syncOffset }

/-- The frame phase becomes PICTURE and the watch is armed (R145 steps 4 and 5). -/
def Timing.beginFrame (now : Nat) (t : Timing) : Timing :=
  { t with
    phase := .picture, lastStart := now, nextLine := 0
    watch := some (match t.master with
      | some _ => .deadline (now + t.flywheelTicks)
      | none => .timer (now + t.timerTicks)) }

/-- An output frame starts (R145): number, raster, master, phase and watch; then the rings (R53), the read buffer
(R54), and the Compositor's layout (section 7.3). `dropped` is as in R146. -/
def State.startFrame (dropped : Option Lane) (s : State) : State :=
  let s := s.modTiming Timing.numberFrame
  let s := s.applyRaster
  let s := (s.modTiming Timing.latchSync).selectMaster dropped
  let s := s.modTiming (Timing.beginFrame s.now)
  let s := { s with lanes := s.lanes.map LaneBlocks.atFrameStart, tx := { s.tx with video := .blanking } }
  let s := { s.discardTransfer TransferKind.isFetch with readBuffer := .reset }
  s.composeFrame

/-- A forced start: the flywheel count increments, and at 3 the master is dropped by this start's selection (R143). -/
def State.forceStart (s : State) : State :=
  let s := s.modTiming fun t => { t with flywheel := satAdd 3 t.flywheel 1 }
  s.startFrame (if s.timing.flywheel = 3 then s.timing.master else none)

/-! ### The master's offset line (R142) -/

/-- The average master frame period and the offset mark take an offset line (R142 steps 1 and 2). -/
def Timing.takeOffsetLine (now frame : Nat) (t : Timing) : Timing :=
  { t with
    average := match t.offsetMark with
      | some k =>
        if (k.frame + 1) % 16 = frame then
          let m := min 16777215 (now - k.tick)
          some (match t.average with
            | some avg => foldEighth avg (16 * m)
            | none => 16 * m)
        else t.average
      | none => t.average
    offsetMark := some ⟨frame, now⟩ }

/-- A LINE taken by lane `n` is handed to the generator (R7, R142): the master's offset line is averaged, and in
BLANKING it starts an output frame. -/
def State.lineToTiming (n : Lane) (line frame : Nat) (s : State) : State :=
  if s.timing.master = some n ∧ line = s.timing.syncInForce then
    let s := s.modTiming (Timing.takeOffsetLine s.now frame)
    if s.timing.phase = .blanking then (s.modTiming fun t => { t with flywheel := 0 }).startFrame none else s
  else s

/-! ### Loss of the master (R147) -/

/-- The watch after the loss: the timer, counted from the last output frame start (R147). -/
def Timing.loseWatch (t : Timing) : Timing := { t with watch := some (.timer (t.lastStart + t.timerTicks)) }

/-- Whether the timer has expired and an output frame may start: only in BLANKING (R141, R144). -/
def Timing.timerExpired (now : Nat) (t : Timing) : Bool :=
  match t.watch with
  | some (.timer due) => due ≤ now && t.phase == .blanking
  | _ => false

/-- When lane `n` is master and has left LOCKED or lane mode NORMAL, the master is lost at this event: TIMING report
with cause LANE_LEFT, and the frame starts at once if the timer's expiry has passed (R147; log 20). The report carries
the frame number after the event, which is the one that this start gives (R148). -/
def State.checkMaster (n : Lane) (s : State) : State :=
  if s.timing.master = some n ∧ (s.lane n).rx.video = false then
    let s := s.modTiming fun t => t.lose.loseWatch
    if s.timing.timerExpired s.now then
      (s.offer (timingReport (some n) .laneLeft s.timing.numberFrame)).startFrame none
    else s.offer (timingReport (some n) .laneLeft s.timing)
  else s

end Sys2Proof.Machine
end

