-- ==== Sys2Proof/Machine/Lanes.lean ====
section
/-! DEFINITION. The Lane Receiver (01_camera_lanes.md, R2 to R22) and the changes of lane mode (R171, R172): what a
packet, a timer or a command does to a lane, with the deliveries to the other blocks. -/

namespace Sys2Proof.Machine

/-! ### Small reads -/

/-- ACQUIRING and LOCKED, the states in which a lane receives frames. -/
def LaneState.receiving : LaneState → Bool
  | .acquiring | .locked => true
  | _ => false

/-- How a frame opened now is marked (R6). -/
def LaneState.opens : LaneState → OpenedIn
  | .locked => .locked
  | _ => .acquiring

/-- Whether the lane mode stores frames: NORMAL and INTERNAL, not CHECK (R20). -/
def LaneMode.stores : LaneMode → Bool
  | .check => false
  | _ => true

/-- The acquisition height, 0 when there is none. -/
def Receiver.height (r : Receiver) : Nat := r.acquisition.elim 0 (·.h)

/-! ### Deliveries (R16, R17, R55, R36, R69) -/

/-- A lane down, delivered to the store, the relay and the engine; the engine may then start the next job (R55, R36,
R69). -/
def State.deliverLaneDown (n : Lane) (s : State) : State :=
  (((s.storeLaneDown n).relayEvent n (Relay.laneDown n)).abandonJob n).startJobs

/-- The silence timer starts or restarts (R3). -/
def Receiver.startSilence (now : Nat) (r : Receiver) : Receiver :=
  { r with silenceDue := some (now + msTicks r.silenceTimeout) }

/-! ### Down entry (R16) -/

/-- The two causes of a down entry. -/
inductive DownCause where
  | health | silence
deriving DecidableEq, Repr

/-- The target state of a down entry. -/
def DownCause.target : DownCause → LaneState
  | .health => .faulted
  | .silence => .silent

/-- The health count in the target state (R16). -/
def DownCause.restHealth : DownCause → Nat
  | .health => 32
  | .silence => 0

/-- The cause as the LANE_STATE report names it (R19). -/
def DownCause.report : DownCause → LaneCause
  | .health => .health
  | .silence => .silence

/-- The counters of a down entry (R16). -/
def LaneCounters.countDown (cause : DownCause) (lockout : Bool) (k : LaneCounters) : LaneCounters :=
  { k with
    lockouts := if lockout then count k.lockouts 1 else k.lockouts
    faults := if cause = .health then count k.faults 1 else k.faults
    silences := if cause = .silence then count k.silences 1 else k.silences }

/-- The Lane Receiver's part of a down entry (R16 steps 1 to 4 and 7). -/
def Receiver.goDown (cause : DownCause) (now : Nat) (r : Receiver) : Receiver :=
  let attempts := satAdd 4 r.attempts 1
  let lockout := attempts == 4
  { r with
    attempts := attempts
    state := if lockout then .lockedOut else cause.target
    health := if lockout then 0 else cause.restHealth
    recoveryDue := if lockout then r.recoveryDue else some (now + msTicks r.recoveryDelay)
    counters := r.counters.countDown cause lockout
    openFrame := none, silenceDue := none, cleanFrames := 0, lockedRun := 0, expectedFrame := none }

/-- The flags of a down entry: LANE_LOCKOUT on entry to LOCKED_OUT, and LANE_FAULT (R16). -/
def State.raiseDown (n : Lane) (lockout : Bool) (s : State) : State :=
  (if lockout then s.raise (.laneLockout n) else s).raise (.laneFault n)

/-- A down entry (R16), with the loss of the lane as timing master last (R19, R147). The report shows the health count
of the event and the attempt count after its increment (log 12). -/
def State.downEntry (n : Lane) (cause : DownCause) (s : State) : State :=
  let before := (s.lane n).rx
  let s := s.modRx n (Receiver.goDown cause s.now)
  let after := (s.lane n).rx
  let s := s.raiseDown n (after.state == .lockedOut)
  let s := s.offer (laneStateReport n before.state after.state cause.report before.health after.attempts none)
  (s.deliverLaneDown n).checkMaster n

/-- A faulty packet raises the health count by one; at 32 the lane goes down to FAULTED (R13, R16). -/
def State.faultyPacket (n : Lane) (s : State) : State :=
  let s := s.modRx n fun r => { r with health := satAdd 32 r.health 1 }
  if (s.lane n).rx.health = 32 then s.downEntry n .health else s

/-! ### Channel restart, disable, enable (R17, R22) -/

/-- The Lane Receiver's part of a channel restart (R17). -/
def Receiver.toSearching (r : Receiver) : Receiver :=
  { r with
    state := .searching, health := 0, average := none, periods := 0, mark := none
    openFrame := none, damagedCount := 0, periodError := false
    expectedFrame := none, expectedLine := 0, cleanFrames := 0, lockedRun := 0
    silenceDue := none, recoveryDue := none, acquisition := none }

/-- A channel restart (R17): the report, unless the lane was in SEARCHING, then the lane down, then the timing
master. The report shows the counts as they stood before the event (log 12). -/
def State.channelRestart (n : Lane) (cause : LaneCause) (origin : Origin) (s : State) : State :=
  let before := (s.lane n).rx
  let s := s.modRx n Receiver.toSearching
  let s := if before.state = .searching then s
    else s.offer (laneStateReport n before.state .searching cause before.health before.attempts origin)
  (s.deliverLaneDown n).checkMaster n

/-- CAMERA_REARM's channel restart, with the attempt count 0 (R25). -/
def State.rearmRestart (n : Lane) (origin : Origin) (s : State) : State :=
  let before := (s.lane n).rx
  let s := s.modRx n fun r => { r.toSearching with attempts := 0 }
  let s := if before.state = .searching then s
    else s.offer (laneStateReport n before.state .searching .cameraRearm before.health before.attempts origin)
  (s.deliverLaneDown n).checkMaster n

/-- The Lane Receiver's part of a disable (R22). -/
def Receiver.toOff (r : Receiver) : Receiver :=
  { r with
    state := .off, attempts := 0, health := 0, average := none, periods := 0
    openFrame := none, expectedFrame := none, cleanFrames := 0, lockedRun := 0
    silenceDue := none, recoveryDue := none, acquisition := none }

/-- A disable (R22): the report, the lane down and the lane release, then the timing master. -/
def State.disable (n : Lane) (origin : Origin) (s : State) : State :=
  let before := (s.lane n).rx
  let s := s.modRx n Receiver.toOff
  let s := s.offer (laneStateReport n before.state .off .disabled before.health before.attempts origin)
  ((s.deliverLaneDown n).storeRelease n).checkMaster n

/-- Enable on in OFF (R22): SEARCHING, as every entry to it sets the lane (R5, R11, R13). -/
def State.enable (n : Lane) (origin : Origin) (s : State) : State :=
  let before := (s.lane n).rx
  let s := s.modRx n fun r =>
    { r with state := .searching, health := 0, average := none, periods := 0, acquisition := none }
  s.offer (laneStateReport n before.state .searching .enabled before.health before.attempts origin)

/-! ### Damaged lines (R9) -/

/-- One damaged line of the open frame: counted, and entered in its record while it is among the first 32 and the mode
is not CHECK (R9). -/
def State.addDamaged (n : Lane) (line : Nat) (s : State) : State :=
  let r := (s.lane n).rx
  let s := s.modRx n fun r =>
    { r with
      damagedCount := r.damagedCount + 1
      counters := { r.counters with damagedLines := count r.counters.damagedLines 1 } }
  if r.mode.stores && r.damagedCount < 32 then s.modStore n (LaneStore.enterDamaged line) else s

/-- The numbers from `first` on, `k` of them, are damaged. -/
def State.addDamagedRun (n : Lane) (first k : Nat) (s : State) : State :=
  (List.range k).foldl (fun s i => s.addDamaged n (first + i)) s

/-! ### FRAME_START (R4, R5, R6) -/

def State.countSequence (n : Lane) (s : State) : State :=
  s.modCounters n fun k => { k with sequenceErrors := count k.sequenceErrors 1 }

def State.countFrameNumber (n : Lane) (s : State) : State :=
  s.modCounters n fun k => { k with frameNumberErrors := count k.frameNumberErrors 1 }

def State.countGeometry (n : Lane) (s : State) : State :=
  s.modCounters n fun k => { k with geometryErrors := count k.geometryErrors 1 }

/-- The Lane Receiver's part of an opening (R6 step 4). -/
def Receiver.openAs (number : Nat) (r : Receiver) : Receiver :=
  { r with
    openFrame := some ⟨number, r.state.opens⟩, expectedFrame := some ((number + 1) % 16), expectedLine := 0
    damagedCount := 0, periodError := false, mark := none
    counters := { r.counters with framesStarted := count r.counters.framesStarted 1 } }

/-- A new frame is opened (R6 step 4), and the opening is handed on in NORMAL and INTERNAL. -/
def State.openFrame (n : Lane) (number : Nat) (g : Geometry) (s : State) : State :=
  let s := s.modRx n (Receiver.openAs number)
  if (s.lane n).rx.mode.stores then s.storeOpen n number g else s

/-- An open frame overtaken by a new FRAME_START (R6 step 1; in CHECK too, log 14). -/
def State.overtake (n : Lane) (s : State) : State :=
  ((s.modRx n fun r => { r with openFrame := none, cleanFrames := 0, lockedRun := 0 }).storeAbandon n).countSequence n

/-- A FRAME_START that announces the acquisition geometry, in ACQUIRING or LOCKED (R6). -/
def State.takeFrameStart (n : Lane) (number : Nat) (g : Geometry) (s : State) : State :=
  let r := (s.lane n).rx
  let overtaken := r.openFrame.isSome
  let misnumbered := match r.expectedFrame with
    | some e => e != number
    | none => false
  let s := if overtaken then s.overtake n else s
  let s := if misnumbered then s.countFrameNumber n else s
  let s := if overtaken || misnumbered then s.faultyPacket n else s
  if (s.lane n).rx.state.receiving then s.openFrame n number g else s

/-- A FRAME_START with a good check in ACQUIRING or LOCKED (R5, R6). -/
def State.frameStart (n : Lane) (number : Nat) (g : Geometry) (s : State) : State :=
  if (s.lane n).rx.acquisition = some g then s.takeFrameStart n number g else (s.countGeometry n).faultyPacket n

/-- The geometry test of R4. -/
def Receiver.accepts (g : Geometry) (r : Receiver) : Bool :=
  match r.geometryMode with
  | .auto => 320 ≤ g.w && g.w ≤ 1280 && g.w % 64 == 0 && 256 ≤ g.h && g.h ≤ 800 && g.h % 32 == 0
  | .fixed => g == r.configured

/-- The Lane Receiver's part of an acceptance (R4). -/
def Receiver.acquire (g : Geometry) (now : Nat) (r : Receiver) : Receiver :=
  { r with acquisition := some g, state := .acquiring, health := 0, cleanFrames := 0, lockedRun := 0 }.startSilence now

/-- A FRAME_START with a good check in SEARCHING (R4): it waits for the store but in CHECK, and is judged; when it is
accepted it is also the first frame of ACQUIRING. -/
def State.searchFrameStart (n : Lane) (number : Nat) (g : Geometry) (s : State) : State :=
  let r := (s.lane n).rx
  if r.mode.stores && !s.arb.storeReady then s
  else if r.accepts g then
    let s := s.modRx n (Receiver.acquire g s.now)
    let s := s.offer (laneStateReport n .searching .acquiring .acquired r.health r.attempts none)
    s.takeFrameStart n number g
  else s.countGeometry n

/-! ### LINE (R7, R8, R11, R12) -/

/-- What the line period measurement makes of a LINE (R11, R12). -/
structure PeriodOutcome where
  average : Option Nat
  periods : Nat
  outOfTolerance : Bool
deriving DecidableEq, Repr

/-- The average after a measured period `m` (R11, R12). -/
def Receiver.foldPeriod (m : Nat) (r : Receiver) : PeriodOutcome :=
  match r.average with
  | none => ⟨some (16 * m), 1, false⟩
  | some avg =>
    if r.periods < 16 then ⟨some (foldEighth avg (16 * m)), r.periods + 1, false⟩
    else if absDiff (16 * m) avg ≤ avg / 32 then ⟨some (foldEighth avg (16 * m)), r.periods, false⟩
    else ⟨some avg, r.periods, true⟩

/-- The measurement of a LINE taken with number `line` at tick `now`: only after the LINE one below it (R11). DEDUCED: a
LINE that was ignored between the two does not hinder it, since the mark holds the last LINE taken (log 44). -/
def Receiver.measurePeriod (line now : Nat) (r : Receiver) : PeriodOutcome :=
  match r.mark with
  | some k => if k.line + 1 = line then r.foldPeriod (min 16777215 (now - k.tick)) else ⟨r.average, r.periods, false⟩
  | none => ⟨r.average, r.periods, false⟩

/-- How the payload of a LINE stands: its check fails, the write buffer is full, or it is taken on (R8). -/
inductive PayloadFate where
  | bad | lost | kept
deriving DecidableEq, Repr

/-- The fate of a taken LINE's payload (R8, R20). -/
def LaneBlocks.payloadFate (p : Packet) (l : LaneBlocks) : PayloadFate :=
  if !p.payloadGood l.rx.acquisition then .bad
  else if l.rx.mode.stores && l.store.full then .lost
  else .kept

/-- A LINE that was taken sets the expected line, the mark and the average (R7, R11, R12). -/
def Receiver.passLine (line now : Nat) (o : PeriodOutcome) (r : Receiver) : Receiver :=
  { r with
    expectedLine := line + 1, mark := some ⟨line, now⟩, average := o.average, periods := o.periods
    periodError := r.periodError || o.outOfTolerance }

/-- The counter of a period out of tolerance (R12). -/
def State.countPeriod (n : Lane) (out : Bool) (s : State) : State :=
  if out then s.modCounters n fun k => { k with periodErrors := count k.periodErrors 1 } else s

/-- The counters of a payload that is not taken on: the line is damaged (R8). -/
def State.countPayload (n : Lane) (line : Nat) (f : PayloadFate) (s : State) : State :=
  match f with
  | .bad => (s.addDamaged n line).modCounters n fun k => { k with payloadErrors := count k.payloadErrors 1 }
  | .lost => (s.addDamaged n line).modCounters n fun k => { k with bufferOverflows := count k.bufferOverflows 1 }
  | .kept => s

/-- Where a good payload goes: the checker for a clean LINE in CHECK, otherwise the write buffer and the tile
accumulator (R8, R20, R87). -/
def State.keepPayload (n : Lane) (p : Packet) (clean : Bool) (f : PayloadFate) (s : State) : State :=
  match f with
  | .kept =>
    if (s.lane n).rx.mode.stores then s.storeLine n p.word1 p.payload
    else if clean then s.modTest n fun t => t.takePayload p.payload
    else s
  | _ => s

/-- A LINE that is taken, at the expected number or ahead of it (R7, R8, R11). A fault that brings the health count to 32
is counted, and the LINE has no further effect (R7, R13; log 11). -/
def State.takeLine (n : Lane) (p : Packet) (ahead : Bool) (s : State) : State :=
  let o := (s.lane n).rx.measurePeriod p.word1 s.now
  let f := (s.lane n).payloadFate p
  let fault := o.outOfTolerance || f != .kept
  let counted := (s.countPeriod n o.outOfTolerance).countPayload n p.word1 f
  if fault && !ahead && (s.lane n).rx.health + 1 ≥ 32 then counted.faultyPacket n
  else
    let clean := !fault && !ahead
    let s := counted.modRx n (Receiver.passLine p.word1 s.now o)
    let s := if fault && !ahead then s.faultyPacket n else s
    let s := if clean then s.modRx n fun r => { r with health := r.health - 1 } else s
    (s.keepPayload n p clean f).lineToTiming n p.word1 p.number

/-- A LINE with a good header in ACQUIRING or LOCKED: the first case of R7 that applies. -/
def State.line (n : Lane) (p : Packet) (s : State) : State :=
  let r := (s.lane n).rx
  match r.openFrame with
  | none => (s.countSequence n).faultyPacket n
  | some f =>
    if f.number ≠ p.number then (s.countFrameNumber n).faultyPacket n
    else if r.height ≤ p.word1 then (s.countSequence n).faultyPacket n
    else if p.word1 < r.expectedLine then (s.countSequence n).faultyPacket n
    else if p.word1 = r.expectedLine then s.takeLine n p false
    else
      let s := s.addDamagedRun n r.expectedLine (p.word1 - r.expectedLine)
      let s := (s.countSequence n).faultyPacket n
      if (s.lane n).rx.state.receiving then s.takeLine n p true else s

/-! ### FRAME_END, lock (R10, R14, R15) -/

/-- The lock (R14): LOCKED, the lane geometry brought to the acquisition geometry with a geometry change when it
differed (R5, R56, R70, R102), the counter and the report. -/
def State.lock (n : Lane) (s : State) : State :=
  let before := (s.lane n).rx
  let g := before.acquisition.getD before.geometry
  let s := s.modRx n fun r =>
    { r with
      state := .locked, cleanFrames := 0, lockedRun := 0, geometry := g
      counters := { r.counters with locks := count r.counters.locks 1 } }
  let s := if g = before.geometry then s else (s.storeRelease n).engineGeometry n g
  s.offer (laneStateReport n .acquiring .locked .lock before.health before.attempts none)

/-- A frame closed in ACQUIRING (R14). -/
def State.closeAcquiring (n : Lane) (clean : Bool) (s : State) : State :=
  if clean then
    let s := s.modRx n fun r => { r with cleanFrames := r.cleanFrames + 1 }
    if 2 ≤ (s.lane n).rx.cleanFrames then s.lock n else s
  else s.modRx n fun r => { r with cleanFrames := 0 }

/-- A frame closed in LOCKED (R15). -/
def Receiver.closeLocked (r : Receiver) : Receiver :=
  if r.damagedCount ≤ r.dmax then
    let run := satAdd 300 r.lockedRun 1
    { r with lockedRun := run, attempts := if run = 300 then 0 else r.attempts }
  else { r with lockedRun := 0 }

/-- A frame's close (R10 steps 2 to 5). -/
def State.closeFrame (n : Lane) (f : OpenFrame) (s : State) : State :=
  let r := (s.lane n).rx
  let clean := r.damagedCount == 0 && !r.periodError
  let s := if r.mode.stores then s.storeClose n r.damagedCount r.dmax f.openedIn else s
  let s := match r.state with
    | .acquiring => s.closeAcquiring n clean
    | _ => s.modRx n Receiver.closeLocked
  s.modRx n fun r => { r with openFrame := none, mark := none }

/-- A FRAME_END with a good header in ACQUIRING or LOCKED (R10). -/
def State.frameEnd (n : Lane) (number : Nat) (s : State) : State :=
  let r := (s.lane n).rx
  match r.openFrame with
  | none => (s.countSequence n).faultyPacket n
  | some f =>
    if f.number ≠ number then (s.countFrameNumber n).faultyPacket n
    else
      let missing := r.height - r.expectedLine
      let s := s.addDamagedRun n r.expectedLine missing
      let s := if missing = 0 then s else (s.countSequence n).faultyPacket n
      if (s.lane n).rx.state.receiving then s.closeFrame n f else s

/-! ### A packet by the lane's state (R2, R3) -/

/-- A packet with a good check restarts the silence timer (R3). -/
def State.heard (n : Lane) (p : Packet) (s : State) : State :=
  if p.goodCheck (s.lane n).rx.acquisition then s.modRx n (Receiver.startSilence s.now) else s

/-- A packet with a good header in ACQUIRING or LOCKED (R6, R7, R10). -/
def State.receivePacket (n : Lane) (p : Packet) (s : State) : State :=
  let s := s.heard n p
  match p.kind with
  | .frameStart => s.frameStart n p.number ⟨p.word1, p.word3⟩
  | .line => s.line n p
  | .frameEnd => s.frameEnd n p.number

/-- A packet with a bad header (R2, R13). -/
def State.badHeader (n : Lane) (s : State) : State :=
  let s := s.modCounters n fun k => { k with headerErrors := count k.headerErrors 1 }
  if (s.lane n).rx.state.receiving then s.faultyPacket n else s

/-- What a packet does by the lane's state, after it was counted and handed to the Relay Unit (R2, R4, R6, R7, R10). -/
def State.lanePacket (n : Lane) (p : Option Packet) (s : State) : State :=
  match p with
  | none => s.badHeader n
  | some p =>
    match (s.lane n).rx.state with
    | .searching => match p.kind with
      | .frameStart => s.searchFrameStart n p.number ⟨p.word1, p.word3⟩
      | _ => s
    | .acquiring | .locked => s.receivePacket n p
    | _ => s

/-- packets-received increments (R2). -/
def State.countPacket (n : Lane) (s : State) : State :=
  s.modCounters n fun k => { k with packetsReceived := count k.packetsReceived 1 }

/-! ### Lane modes (R171, R172, R176) -/

/-- The Lane Receiver's part of an entry to CHECK or INTERNAL (R171). -/
def Receiver.enterMode (mode : LaneMode) (r : Receiver) : Receiver :=
  { r with
    mode := mode, openFrame := none, expectedFrame := none, expectedLine := 0, mark := none, average := none
    periods := 0, cleanFrames := 0, lockedRun := 0 }

/-- The Link Test Unit's part of an entry (R171). -/
def LinkTest.enterMode (mode : LaneMode) (now freeRun : Nat) (g : Geometry) (t : LinkTest) : LinkTest :=
  match mode with
  | .internal => t.resetChecker.startGenerator now freeRun g
  | _ => t.resetChecker.stopGenerator

/-- Entry to CHECK or INTERNAL (R171). -/
def State.enterMode (n : Lane) (mode : LaneMode) (s : State) : State :=
  let s := s.modRx n (Receiver.enterMode mode)
  let s := s.modTest n (LinkTest.enterMode mode s.now s.timing.freeRun (s.lane n).rx.geometry)
  ((s.deliverLaneDown n).storeRelease n).checkMaster n

/-- Return to NORMAL (R172): the generator stops, the pending error is cleared, and a channel restart follows but in OFF
and LOCKED_OUT. -/
def State.returnToNormal (n : Lane) (origin : Origin) (s : State) : State :=
  let state := (s.lane n).rx.state
  let s := s.modRx n fun r => { r with mode := .normal }
  let s := s.modTest n fun t => { t.stopGenerator with injectPending := false }
  if state = .off ∨ state = .lockedOut then s else s.channelRestart n .mode origin

/-- The present mode named with another pattern, in CHECK or INTERNAL (R172). -/
def LinkTest.changePattern (mode : LaneMode) (t : LinkTest) : LinkTest :=
  match mode with
  | .normal => t
  | .check => t.resetChecker
  | .internal => { t.resetChecker with genShift := t.pattern.allOnes }

/-- SET_LANE_MODE carried out (R176). -/
def State.setLaneMode (n : Lane) (mode : LaneMode) (pattern : Pattern) (origin : Origin) (s : State) : State :=
  let before := s.lane n
  let s := s.modTest n fun t => { t with pattern := pattern }
  if mode = before.rx.mode then
    if pattern = before.test.pattern then s else s.modTest n (LinkTest.changePattern mode)
  else match mode with
    | .normal => s.returnToNormal n origin
    | _ => s.enterMode n mode

end Sys2Proof.Machine
end

