-- ==== Sys2Proof/Machine/LaneCommands.lean ====
section
/-! DEFINITION. The lane commands (R22 to R26), the relay commands (R38 to R40) and the link test commands (R176 to
R178). -/

namespace Sys2Proof.Machine

/-! ### Lane commands -/

/-- The enable value of CAMERA_CONFIG applied (R22). -/
def State.applyEnable (n : Lane) (on : Bool) (origin : Origin) (s : State) : State :=
  match on, (s.lane n).rx.state with
  | true, .off => s.enable n origin
  | true, _ => s
  | false, .off => s
  | false, _ => s.disable n origin

/-- The configured geometry of the full form: clamped, then rounded down (R22). -/
def configGeometry (w h : Nat) : Geometry :=
  ⟨multipleDown 64 (clampNat 320 1280 w), multipleDown 32 (clampNat 256 800 h)⟩

/-- The short form (R22). -/
def State.configShort (c : CmdMessage) (n : Lane) (s : State) : State :=
  s.ofField (onOffArg c.payload 1) c fun on s => ((s.answer c .ok []).applyEnable n on c.origin).serve

/-- The full form, in OFF (R22). -/
def State.configFull (c : CmdMessage) (n : Lane) (s : State) : State :=
  s.ofField (onOffArg c.payload 1) c fun on =>
    State.ofField (GeometryMode.ofCode (byteAt c.payload 2)) c fun mode s =>
      s.unless ((s.lane n).rx.state == .off) .wrongState c fun s =>
        let g := configGeometry (wordAt c.payload 3) (wordAt c.payload 5)
        let s := s.modRx n fun r => { r with geometryMode := mode, configured := g }
        let s := s.answer c (clampCode [g.w != wordAt c.payload 3, g.h != wordAt c.payload 5]) []
        (s.applyEnable n on c.origin).serve

/-- CAMERA_CONFIG (R22): a payload of 2 bytes is the short form, of 7 the full form. -/
def execCameraConfig (m : Moment) (s : State) : Result :=
  .next (s.execute m (CmdMessage.is 7) fun c s =>
    if c.payload.length = 2 then s.ofLane c (State.configShort c)
    else if c.payload.length = 7 then s.ofLane c (State.configFull c)
    else s.refuse c .badLength)

/-- SET_LANE_LIMITS (R23). -/
def execSetLaneLimits (m : Moment) (s : State) : Result :=
  .next (s.execute m (CmdMessage.is 8) fun c => State.ofLength 6 c <| State.ofLane c fun n s =>
    let silence := clampArg 10 1000 (wordAt c.payload 1)
    let recovery := clampArg 100 10000 (wordAt c.payload 3)
    let dmax := clampArg 0 32 (byteAt c.payload 5)
    let s := s.modRx n fun r =>
      { r with silenceTimeout := silence.value, recoveryDelay := recovery.value, dmax := dmax.value }
    s.answer c (clampCode [silence.changed, recovery.changed, dmax.changed]) [])

/-- CAMERA_RESTART (R24). -/
def execCameraRestart (m : Moment) (s : State) : Result :=
  .next (s.execute m (CmdMessage.is 9) fun c => State.ofLength 1 c <| State.ofLane c fun n s =>
    s.unless ((s.lane n).rx.state != .off && (s.lane n).rx.state != .lockedOut) .wrongState c fun s =>
      ((s.answer c .ok []).channelRestart n .cameraRestart c.origin).serve)

/-- CAMERA_REARM (R25). -/
def execCameraRearm (m : Moment) (s : State) : Result :=
  .next (s.execute m (CmdMessage.is 10) fun c => State.ofLength 1 c <| State.ofLane c fun n s =>
    s.unless ((s.lane n).rx.state == .lockedOut) .wrongState c fun s =>
      ((s.answer c .ok []).rearmRestart n c.origin).serve)

/-- READ_LANE's data (R26). -/
def Receiver.replyBytes (r : Receiver) : List Byte :=
  byte1 r.state.code ++ byte1 r.mode.code ++ byte1 r.geometryMode.code ++ r.configured.bytes ++ r.geometry.bytes
    ++ optGeometry r.acquisition ++ byte1 r.health ++ byte1 r.attempts ++ optByte4 r.average ++ byte1 r.periods
    ++ byte2 r.silenceTimeout ++ byte2 r.recoveryDelay ++ byte1 r.dmax ++ r.counters.bytes

/-- READ_LANE (R26). -/
def execReadLane (m : Moment) (s : State) : Result :=
  .next (s.execute m (CmdMessage.is 11) fun c => State.ofLength 2 c <| State.ofLane c fun n =>
    State.ofField (onOffArg c.payload 1) c fun clear s =>
      (if clear then s.modCounters n fun _ => .zero else s).answer c .ok (s.lane n).rx.replyBytes)

/-! ### Relay commands -/

/-- Whether a lane takes camera messages: ACQUIRING or LOCKED, in NORMAL (R38). -/
def Receiver.takesMessages (r : Receiver) : Bool := r.state.receiving && r.mode == .normal

/-- CAMERA_MESSAGE (R38). -/
def execCameraMessage (m : Moment) (s : State) : Result :=
  .next (s.execute m (CmdMessage.is 12) fun c s =>
    if c.payload.length < 2 ∨ 33 < c.payload.length then s.refuse c .badLength
    else s.ofLane c fun n s =>
      s.unless (s.lane n).rx.takesMessages .laneDown c <|
        State.unless ((s.lane n).relay.queue.length < 4) .full c fun s =>
          (s.modRelay n (Relay.append s.now ⟨c.tag, c.payload.drop 1⟩)).answer c .ok [])

/-- SET_RELAY (R39). -/
def execSetRelay (m : Moment) (s : State) : Result :=
  .next (s.execute m (CmdMessage.is 13) fun c => State.ofLength 4 c <| State.ofLane c fun n =>
    State.ofField (onOffArg c.payload 1) c fun look s =>
      let timeout := clampArg 10 500 (wordAt c.payload 2)
      let s := s.modRelay n fun r => { r with doubleLook := look, timeout := timeout.value }
      s.answer c (clampCode [timeout.changed]) [])

/-- RELAY_FLUSH: the reports follow the reply (R40). -/
def execRelayFlush (m : Moment) (s : State) : Result :=
  .next (s.execute m (CmdMessage.is 14) fun c => State.ofLength 1 c <| State.ofLane c fun n s =>
    (s.answer c .ok (byte1 (s.lane n).relay.queue.length)).relayEvent n (Relay.flush n))

/-! ### Link test commands -/

/-- SET_LANE_MODE: the reply carries the mode before the command (R176). -/
def execSetLaneMode (m : Moment) (s : State) : Result :=
  .next (s.execute m (CmdMessage.is 33) fun c => State.ofLength 3 c <| State.ofLane c fun n =>
    State.ofField (LaneMode.ofCode (byteAt c.payload 1)) c fun mode =>
      State.ofField (Pattern.ofCode (byteAt c.payload 2)) c fun pattern s =>
        ((s.answer c .ok (byte1 (s.lane n).rx.mode.code)).setLaneMode n mode pattern c.origin).serve)

/-- INJECT_ERROR (R177). -/
def execInjectError (m : Moment) (s : State) : Result :=
  .next (s.execute m (CmdMessage.is 34) fun c => State.ofLength 1 c <| State.ofLane c fun n s =>
    s.unless ((s.lane n).rx.mode == .internal) .wrongState c <|
      State.unless (!(s.lane n).test.injectPending) .busy c fun s =>
        (s.modTest n fun t => { t with injectPending := true }).answer c .ok [])

/-- TEST_READ's data (R178). -/
def LaneBlocks.testBytes (l : LaneBlocks) : List Byte :=
  byte1 l.rx.mode.code ++ byte1 l.test.pattern.code ++ byte1 l.test.checker.code ++ byteBool l.test.inverted
    ++ byte2 l.test.errorCount

/-- TEST_READ: the error count is then 0 (R178). -/
def execTestRead (m : Moment) (s : State) : Result :=
  .next (s.execute m (CmdMessage.is 35) fun c => State.ofLength 1 c <| State.ofLane c fun n s =>
    (s.modTest n fun t => { t with errorCount := 0 }).answer c .ok (s.lane n).testBytes)

end Sys2Proof.Machine
end

