-- ==== Sys2Proof/Machine/LaneEvents.lean ====
section
/-! DEFINITION. The events of a lane: packets from the camera and from the generator, and the lane's timers. -/

namespace Sys2Proof.Machine

/-- Whether a lane takes the packets of its camera: not in OFF, not in INTERNAL (R2). -/
def Receiver.hearsCamera (r : Receiver) : Bool := r.state != .off && r.mode != .internal

/-- The relay fields of a packet, when its header is good (R2, R28). -/
def packetFields (p : Option Packet) : Option RelayFields := p.map (·.relay)

/-- A packet from the camera: counted, handed to the Relay Unit with its answer of one forward word, then judged by the
lane's state (R2, R28). -/
def State.cameraPacket (n : Lane) (bytes : List Byte) (s : State) : State :=
  let p := parsePacket bytes
  let s := s.countPacket n
  let s := s.relayEvent n (Relay.takePacket n s.now (packetFields p))
  (s.lanePacket n p).serve

/-- CAMERA_PACKET. -/
def execCameraPacket (m : Moment) (n : Lane) (bytes : List Byte) (s : State) : Result :=
  .next (s.onEvent m (fun s => (s.lane n).rx.hearsCamera) (State.cameraPacket n bytes))

/-- Whether the generator's next packet is due (R173). -/
def LaneBlocks.generatorDue (now : Nat) (l : LaneBlocks) : Bool :=
  l.rx.mode == .internal && expired (l.test.genRun.map GeneratorRun.due) now

/-- A generated packet: the checker takes the payload bits of a LINE, whatever the lane state; in OFF the lane discards
the packet; the Relay Unit reads nothing from it (R2, R28, R173). -/
def State.generatorPacket (n : Lane) (s : State) : State :=
  match (s.lane n).test.genRun with
  | none => s
  | some g =>
    let r := (s.lane n).test.makePacket g (s.lane n).rx.geometry s.timing.freeRun
    let s := s.modTest n fun _ => r.2.takePayload r.1.payload
    if (s.lane n).rx.state = .off then s else ((s.countPacket n).lanePacket n (some r.1)).serve

/-- GENERATOR_PACKET. -/
def execGeneratorPacket (m : Moment) (n : Lane) (s : State) : Result :=
  .next (s.onEvent m (fun s => (s.lane n).generatorDue s.now) (State.generatorPacket n))

/-- SILENCE_TIMER_EXPIRY: the lane goes down with cause silence (R3, R16). -/
def execSilenceTimerExpiry (m : Moment) (n : Lane) (s : State) : Result :=
  .next (s.onEvent m (fun s => (s.lane n).rx.state.receiving && expired (s.lane n).rx.silenceDue s.now)
    fun s => (s.downEntry n .silence).serve)

/-- The states in which the recovery timer runs (R16, R18). -/
def LaneState.recovering : LaneState → Bool
  | .faulted | .silent => true
  | _ => false

/-- RECOVERY_TIMER_EXPIRY: a channel restart with cause RECOVERY (R18). -/
def execRecoveryTimerExpiry (m : Moment) (n : Lane) (s : State) : Result :=
  .next (s.onEvent m (fun s => (s.lane n).rx.state.recovering && expired (s.lane n).rx.recoveryDue s.now)
    fun s => (s.channelRestart n .recovery none).serve)

/-- PROGRESS_TIMER_EXPIRY: the message in flight fails with TIMEOUT (R34). -/
def execProgressTimerExpiry (m : Moment) (n : Lane) (s : State) : Result :=
  .next (s.onEvent m (fun s => (s.lane n).relay.inFlight.isSome && expired (s.lane n).relay.progressDue s.now)
    (State.relayEvent n (Relay.timeOut n)))

end Sys2Proof.Machine
end

