-- ==== Sys2Proof/Machine/OutputEvents.lean ====
section
/-! DEFINITION. The events of the output frame: its forced and timed starts, the active lines, the status line
(08_output_timing_and_the_status_line.md, R59, R140 to R151, R183). -/

namespace Sys2Proof.Machine

/-! ### Starts (R141, R143, R144) -/

/-- Whether the flywheel deadline has expired, in BLANKING (R141, R143). -/
def Timing.deadlineExpired (now : Nat) (t : Timing) : Bool :=
  match t.watch with
  | some (.deadline due) => due ≤ now && t.phase == .blanking
  | _ => false

/-- FLYWHEEL_DEADLINE_EXPIRY: a start is forced (R143). -/
def execFlywheelDeadlineExpiry (m : Moment) (s : State) : Result :=
  .next (s.onEvent m (fun s => s.timing.deadlineExpired s.now) fun s => s.forceStart.serve)

/-- OUTPUT_TIMER_EXPIRY: with no master an output frame starts (R144). -/
def execOutputTimerExpiry (m : Moment) (s : State) : Result :=
  .next (s.onEvent m (fun s => s.timing.timerExpired s.now) fun s => (s.startFrame none).serve)

/-! ### Active lines (R59, R140) -/

/-- When output line `k` begins transmission; the status line is the line after the last active one (R140). -/
def Timing.lineBegins (k : Nat) (t : Timing) : Nat := t.lastStart + (k + 1) * t.raster.lineTicks

/-- Whether the next active line begins by now (R140). -/
def Timing.activeLineDue (now : Nat) (t : Timing) : Bool :=
  t.phase == .picture && t.nextLine < t.raster.height && t.lineBegins t.nextLine ≤ now

/-- A fetch for output line `k`. -/
def TransferKind.fetchesFor (k : Nat) : TransferKind → Bool
  | .fetch line _ => line == k
  | _ => false

/-- What is sent in place of an incomplete line: the line sent last, output black for line 0 (R59). -/
def State.substituteLine (s : State) (k : Nat) : List Byte :=
  if k = 0 then blackPixels s.timing.raster.width else s.tx.lastLine

/-- The underrun of output line `k`: its place emptied, its fetch discarded, the count and the flag (R59). -/
def State.underrun (k : Nat) (s : State) : State :=
  let s := s.discardTransfer (TransferKind.fetchesFor k)
  let s := { s with readBuffer := s.readBuffer.put k .empty }
  (s.modChan fun c =>
    { c with counters := { c.counters with underruns := count c.counters.underruns 1 } }).raise .outputUnderrun

/-- The line before `k` has ended: its place is free (R58). -/
def State.freeBefore (k : Nat) (s : State) : State :=
  if k = 0 then s else { s with readBuffer := s.readBuffer.put (k - 1) .empty }

/-- The transmitter sends an active line. -/
def State.sendLine (bytes : List Byte) (s : State) : State := { s with tx := ⟨.activeLine bytes, bytes⟩ }

/-- The next active line begins (R58, R59, R140). -/
def State.beginLine (s : State) : State :=
  let k := s.timing.nextLine
  let s := s.freeBefore k
  let s := match s.completeLine k with
    | some bytes => s.sendLine bytes
    | none => (s.underrun k).sendLine (s.substituteLine k)
  s.modTiming fun t => { t with nextLine := k + 1 }

/-- ACTIVE_LINE_BEGIN. -/
def execActiveLineBegin (m : Moment) (s : State) : Result :=
  .next (s.onEvent m (fun s => s.timing.activeLineDue s.now) fun s => s.beginLine.serve)

/-! ### The status line (R150, R151, R183) -/

/-- The shown page as the status record codes it: 255 for FALLBACK. -/
def ShownPage.code : ShownPage → Nat
  | .page n => n.val
  | .fallback => 255

/-- The fixed lane of the record: 0 outside FIXED (section 11.5). -/
def TimingMode.fixedLane : TimingMode → Nat
  | .fixed n => n.val
  | _ => 0

/-- The eight bytes of a lane's entry (section 11.5): the correction is that of the last measurement summary. -/
def LaneBlocks.statusBytes (l : LaneBlocks) : List Byte :=
  byte1 l.rx.state.code ++ byte1 l.rx.mode.code ++ byte1 l.dust.band ++ byte2 l.dust.level
    ++ signed1 (l.motion.summary.elim 0 (·.corrX)) ++ signed1 (l.motion.summary.elim 0 (·.corrY))
    ++ byte1 l.purge.state.code

/-- Byte 4 of the record: bit 0 HOLD, bit 1 the holdover flag. -/
def holdByte (hold holdover : Bool) : List Byte := byte1 (hold.toNat + 2 * holdover.toNat)

/-- The status record: 49 bytes (R151, section 11.5). `placed` is the number of notices placed. -/
def State.statusRecord (s : State) (placed : Nat) : List Byte :=
  byte2 s.timing.frameNumber ++ byte1 s.chan.supervision.code ++ byte1 s.comp.shownPage.code
    ++ holdByte s.chan.hold s.timing.holdover ++ byte1 s.chan.queue.length ++ byte1 s.chan.resetCause.code
    ++ byte2 s.chan.restartCount ++ optByte1 (s.chan.restartTag.map (·.toNat)) ++ byte3 s.chan.flags.toNat
    ++ byte1 s.timing.mode.code ++ byte1 s.timing.mode.fixedLane ++ optByte1 (optLane s.timing.master)
    ++ byte1 placed ++ s.lanes.toList.flatMap LaneBlocks.statusBytes

/-- The notices that leave at a status line event: the oldest, up to 4 (R150). -/
def CommandChannel.placed (c : CommandChannel) : List Notice := c.notices.take 4

/-- The status line: record, notices, CRC, then output black to the length of an active line (R183; log 27). -/
def State.statusLine (s : State) : List Byte :=
  let body := withCrc (s.statusRecord s.chan.placed.length ++ s.chan.placed.flatMap Notice.bytes)
  body ++ (blackPixels s.timing.raster.width).take (2 * s.timing.raster.width - body.length)

/-- Whether the status line begins by now: every active line has begun (R140). -/
def Timing.statusLineDue (now : Nat) (t : Timing) : Bool :=
  t.phase == .picture && t.raster.height ≤ t.nextLine && t.lineBegins t.raster.height ≤ now

/-- The status line event (R150): the record of the values as they stand, then the marks, and the notices leave; the last
active line has ended, so its place is free (R58); with the entries freed the oldest message's execution may be due
(R156). -/
def State.beginStatusLine (s : State) : State :=
  let line := s.statusLine
  let s := s.modChan fun c => { c.markReported with notices := c.notices.drop 4 }
  let s := { s with tx := { s.tx with video := .statusLine line } }
  ((s.freeBefore s.timing.raster.height).modTiming fun t => { t with phase := .statusLine }).bringExecution

/-- STATUS_LINE_EVENT. -/
def execStatusLineEvent (m : Moment) (s : State) : Result :=
  .next (s.onEvent m (fun s => s.timing.statusLineDue s.now) State.beginStatusLine)

/-- Whether the status line has ended by now (R140). -/
def Timing.statusLineOver (now : Nat) (t : Timing) : Bool :=
  t.phase == .statusLine && t.lineBegins (t.raster.height + 1) ≤ now

/-- STATUS_LINE_END: the frame phase becomes BLANKING, and blanking is sent (R140). -/
def execStatusLineEnd (m : Moment) (s : State) : Result :=
  .next (s.onEvent m (fun s => s.timing.statusLineOver s.now) fun s =>
    { s.modTiming fun t => { t with phase := .blanking } with tx := { s.tx with video := .blanking } })

end Sys2Proof.Machine
end

