-- ==== Sys2Proof/Machine/PurgeEvents.lean ====
section
/-! DEFINITION. The events of a Purge Controller's timers (R111 to R113). -/

namespace Sys2Proof.Machine

/-- PULSE_TIMER_EXPIRY: the blow ends (R111). -/
def execPulseTimerExpiry (m : Moment) (n : Lane) (s : State) : Result :=
  .next (s.onEvent m (fun s => (s.lane n).purge.state == .pulse && expired (s.lane n).purge.pulseDue s.now)
    fun s => s.modPurge n (Purge.endPulse s.now))

/-- SETTLE_TIMER_EXPIRY: SETTLE ends (R112). -/
def execSettleTimerExpiry (m : Moment) (n : Lane) (s : State) : Result :=
  .next (s.onEvent m (fun s => (s.lane n).purge.state == .settle && expired (s.lane n).purge.settleDue s.now)
    fun s => s.modPurge n (Purge.endSettle s.now))

/-- The rest ends (R113): LENS_SOILED is raised in the halting case. -/
def State.endRest (n : Lane) (s : State) : State :=
  let l := s.lane n
  let s := if l.purge.restOutcome l.rx.video = .halt then s.raise (.lensSoiled n) else s
  s.purgeEvent n (Purge.endCooldown n s.now l.rx.video)

/-- COOLDOWN_TIMER_EXPIRY (R113). -/
def execCooldownTimerExpiry (m : Moment) (n : Lane) (s : State) : Result :=
  .next (s.onEvent m (fun s => (s.lane n).purge.state == .cooldown && expired (s.lane n).purge.cooldownDue s.now)
    (State.endRest n))

end Sys2Proof.Machine
end

