-- ==== Sys2Proof/Machine/Resets.lean ====
section
/-! DEFINITION. The resets: POWER_ON, PIN_RESET_ASSERT and PIN_RESET_RELEASE, and what RESTART does (R1, R27, R42, R43, R64,
R86, R108, R118, R139, R154, R163, R166, R170). -/

namespace Sys2Proof.Machine

/-- A transfer in progress at a reset completes on the port; a refresh counts, other data is discarded (R42). -/
def Transfer.orphan (t : Transfer) : Transfer :=
  match t.kind with
  | .refresh => t
  | _ => { t with live := false }

/-- The blocks that every reset sets alike: the lanes (R1, R27, R42, R64, R86, R108, R118, R170), the job queue (R64), the
read buffer (R42), the tone tables (R86), the Compositor (R118) and the transmitter (R139). The DRAM keeps its
contents (log 8). -/
def State.resetBlocks (s : State) : State :=
  { s with
    lanes := Four.const .reset, jobs := [], readBuffer := .reset, tone := .reset, comp := .reset, tx := .reset }

/-- The reset of a pin reset: cause PIN, the arbiter's values of R42 with the transfer in progress, no output timer
(R42, R139, R163). -/
def State.resetByPin (s : State) : State :=
  { s.resetBlocks with
    arb := { Arbiter.reset with port := s.arb.port.map Transfer.orphan }
    timing := Timing.reset s.now
    chan := CommandChannel.reset .pin 0 none }

/-- The release of RESET_N: the reset values hold, DRAM initialisation and the output timer start (R43, R139). -/
def State.startFromPin (s : State) : State :=
  { s.resetByPin with
    resetAsserted := false
    arb := { s.resetByPin.arb with initDue := some (s.now + initTicks) }
    timing := Timing.started s.now }

/-- RESTART takes effect (R166): every block is reset, refresh, initialisation and store-ready go on (R42, R43), and the
reset cause, restart count and last restart tag take their values (R163). -/
def State.restartBy (tag : Byte) (s : State) : State :=
  { s.resetBlocks with
    arb := { s.arb with lastGranted := 3, port := s.arb.port.map Transfer.orphan }
    timing := Timing.started s.now
    chan := CommandChannel.reset .restartCommand (satAdd 65535 s.chan.restartCount 1) (some tag) }

/-- POWER_ON: the state of R1, R27, R42, R64, R86, R108, R118, R139, R154 and R170, with initialisation and the output
timer counted from this moment, when the reference clock runs (log 5). The events that wait stay. -/
def execPowerOn (m : Moment) (s : State) : Result :=
  let now := (s.advance m).now
  .next { State.reset with
    now := now, reverse := m.reverse
    arb := { Arbiter.reset with initDue := some (now + initTicks) }
    timing := Timing.started now
    pending := s.pending }

/-- PIN_RESET_ASSERT: every block takes its reset values and stays so while RESET_N is asserted (R42, R139, R154; log
6). -/
def execPinResetAssert (m : Moment) (s : State) : Result :=
  .next { (s.advance m).resetByPin with resetAsserted := true }

/-- PIN_RESET_RELEASE (R43, R139, R163). -/
def execPinResetRelease (m : Moment) (s : State) : Result :=
  .next (if (s.advance m).resetAsserted then (s.advance m).startFromPin else s.advance m)

end Sys2Proof.Machine
end

