-- ==== Sys2Proof/Machine/ScreenCommands.lean ====
section
/-! DEFINITION. The composition commands (R132 to R137) and the timing commands (R152, R153). -/

namespace Sys2Proof.Machine

/-! ### Windows (R132, R133) -/

/-- The window number of a field: 0 to 5 (R157). -/
def windowArg (p : List Byte) (i : Nat) : Option Nat := if byteAt p i ≤ 5 then some (byteAt p i) else none

/-- The mark set of a window: 0 to 3, or none, 255 (R182). -/
def markSetArg (p : List Byte) (i : Nat) : Option (Option (Fin 4)) :=
  if byteAt p i = 255 then some none else (laneArg p i).map some

/-- The record LOAD_WINDOW gives, before the clamp of its crop; none when a field is outside its list (R132, R182). -/
def windowFields (p : List Byte) : Option WindowRecord :=
  match laneArg p 2, Scale.ofCode (byteAt p 15), onOffArg p 16, markSetArg p 17, Anchoring.ofCode (byteAt p 18) with
  | some lane, some scale, some stabilize, some markSet, some anchoring =>
    some
      { enabled := true, lane := lane, x := wordAt p 3, y := wordAt p 5, w := wordAt p 7, h := wordAt p 9
        cx := wordAt p 11, cy := wordAt p 13, scale := scale, stabilize := stabilize, markSet := markSet
        anchoring := anchoring }
  | _, _, _, _, _ => none

/-- The structural tests of a window record: destination, odd size, source size (R132). -/
def WindowRecord.loadable (k : Raster) (g : Geometry) (r : WindowRecord) : Bool :=
  2 ≤ r.w && 2 ≤ r.h && r.fitsRaster k && !(r.scale == .up && (r.w % 2 == 1 || r.h % 2 == 1)) && fits r.sourceSize g

/-- The crop origin clamped against the lane geometry: cx then rounded down to even (R132). -/
def WindowRecord.clampCrop (g : Geometry) (r : WindowRecord) : WindowRecord :=
  { r with
    cx := evenDown (clampNat 0 (g.w - r.sourceSize.1) r.cx), cy := clampNat 0 (g.h - r.sourceSize.2) r.cy }

/-- Replace a window record of the pending image (R119). -/
def Compositor.putWindow (page : Fin 4) (w : Nat) (f : WindowRecord → WindowRecord) (c : Compositor) : Compositor :=
  { c with pagesPending := c.pagesPending.modify page fun p => p.modify w f }

/-- LOAD_WINDOW (R132). -/
def execLoadWindow (m : Moment) (s : State) : Result :=
  .next (s.execute m (CmdMessage.is 25) fun c => State.ofLength 19 c <|
    State.ofField (laneArg c.payload 0) c fun page =>
      State.ofField (windowArg c.payload 1) c fun w =>
        State.ofField (windowFields c.payload) c fun r s =>
          let g := (s.lane r.lane).rx.geometry
          s.unless (r.loadable s.timing.raster g) .badArg c fun s =>
            let q := r.clampCrop g
            (s.modComp (Compositor.putWindow page w fun _ => q)).answer c
              (clampCode [q.cx != r.cx, q.cy != r.cy]) [])

/-- CLEAR_WINDOW (R133). -/
def execClearWindow (m : Moment) (s : State) : Result :=
  .next (s.execute m (CmdMessage.is 26) fun c => State.ofLength 2 c <|
    State.ofField (laneArg c.payload 0) c fun page =>
      State.ofField (windowArg c.payload 1) c fun w s =>
        (s.modComp (Compositor.putWindow page w fun r => { r with enabled := false })).answer c .ok [])

/-! ### Mark sets (R134, R182) -/

/-- A 12-bit two's complement field. -/
def signed12 (x : Nat) : Int := if x < 2048 then x else (x : Int) - 4096

/-- The upper 12 bits of the three bytes at `i`. -/
def upper12 (p : List Byte) (i : Nat) : Nat := byteAt p i * 16 + byteAt p (i + 1) / 16

/-- The lower 12 bits of the three bytes at `i`. -/
def lower12 (p : List Byte) (i : Nat) : Nat := byteAt p (i + 1) % 16 * 256 + byteAt p (i + 2)

/-- A mark with whether a size was clamped. -/
structure MarkArg where
  mark : Mark
  changed : Bool
deriving DecidableEq, Repr

/-- The mark of the seven bytes at `i`, none when its colour or mode is refused (R134, R182). -/
def markArg (p : List Byte) (i : Nat) : Option MarkArg :=
  if h : byteAt p (i + 6) % 16 < 4 then
    (MarkMode.ofCode (byteAt p (i + 6) / 16)).map fun mode =>
      let w := clampArg 1 2048 (upper12 p (i + 3))
      let hh := clampArg 1 2048 (lower12 p (i + 3))
      ⟨⟨signed12 (upper12 p i), signed12 (lower12 p i), w.value, hh.value, ⟨_, h⟩, mode⟩, w.changed || hh.changed⟩
  else none

/-- The marks of LOAD_MARKS, none when one is refused. -/
def markArgs (p : List Byte) (n : Nat) : Option (List MarkArg) := (List.range n).mapM fun k => markArg p (14 + 7 * k)

/-- The palette of LOAD_MARKS: four colours of Y, Cb, Cr (R182). -/
def paletteArg (p : List Byte) : Four Colour :=
  let colour (i : Nat) : Colour := ⟨p.getD i 0, p.getD (i + 1) 0, p.getD (i + 2) 0⟩
  ⟨colour 1, colour 4, colour 7, colour 10⟩

/-- LOAD_MARKS (R134): the length must hold exactly the marks counted, at most 8. -/
def execLoadMarks (m : Moment) (s : State) : Result :=
  .next (s.execute m (CmdMessage.is 27) fun c s =>
    if 8 < byteAt c.payload 13 ∨ c.payload.length ≠ 14 + 7 * byteAt c.payload 13 then s.refuse c .badLength
    else s.ofField (laneArg c.payload 0) c fun set =>
      State.ofField (markArgs c.payload (byteAt c.payload 13)) c fun marks s =>
        (s.modComp fun k => { k with
          marksPending := k.marksPending.set set ⟨paletteArg c.payload, marks.map (·.mark)⟩ }).answer c
            (clampCode (marks.map (·.changed))) [])

/-! ### Commit, page, substitute (R135 to R137) -/

/-- COMMIT_TABLES (R135). -/
def execCommitTables (m : Moment) (s : State) : Result :=
  .next (s.execute m (CmdMessage.is 28) fun c => State.ofLength 0 c fun s =>
    (s.modComp fun k => { k with commitRequested := true }).answer c .ok [])

/-- SELECT_PAGE (R136). -/
def execSelectPage (m : Moment) (s : State) : Result :=
  .next (s.execute m (CmdMessage.is 29) fun c => State.ofLength 1 c <|
    State.ofField (laneArg c.payload 0) c fun page s =>
      (s.modComp fun k => { k with selectedPage := page }).answer c .ok [])

/-- SET_SUBSTITUTE (R137). -/
def execSetSubstitute (m : Moment) (s : State) : Result :=
  .next (s.execute m (CmdMessage.is 30) fun c => State.ofLength 2 c fun s =>
    let limit := clampArg 0 255 (wordAt c.payload 0)
    (s.modComp fun k => { k with holdLimit := limit.value }).answer c (clampCode [limit.changed]) [])

/-! ### Timing commands (R152, R153) -/

/-- SET_RASTER's effect: another raster waits, the one in force withdraws what waits (R152). -/
def Timing.setRaster (k : Raster) (t : Timing) : Timing :=
  { t with pendingRaster := if k = t.raster then none else some k }

/-- SET_RASTER (R152): the reply carries the raster in force and the pending raster, or none. -/
def execSetRaster (m : Moment) (s : State) : Result :=
  .next (s.execute m (CmdMessage.is 31) fun c => State.ofLength 1 c <|
    State.ofField (Raster.ofCode (byteAt c.payload 0)) c fun k s =>
      let s := s.modTiming (Timing.setRaster k)
      s.answer c .ok (byte1 s.timing.raster.code ++ optByte1 (s.timing.pendingRaster.map Raster.code)))

/-- The timing mode of SET_TIMING; the fixed lane is read in FIXED alone (R153). -/
def timingModeArg (p : List Byte) : Option TimingMode :=
  match byteAt p 0 with
  | 0 => some .auto
  | 1 => (laneArg p 1).map .fixed
  | 2 => some .free
  | _ => none

/-- The priority list: four lanes, each once (R153). -/
def priorityArg (p : List Byte) : Option (Four Lane) :=
  match laneArg p 2, laneArg p 3, laneArg p 4, laneArg p 5 with
  | some a, some b, some c, some d => if [a, b, c, d].Nodup then some ⟨a, b, c, d⟩ else none
  | _, _, _, _ => none

/-- SET_TIMING (R153): the settings take their values together, and each applies at its next use (log 19). -/
def execSetTiming (m : Moment) (s : State) : Result :=
  .next (s.execute m (CmdMessage.is 32) fun c => State.ofLength 9 c <|
    State.ofField (timingModeArg c.payload) c fun mode =>
      State.ofField (priorityArg c.payload) c fun priority s =>
        let sync := clampArg 0 63 (byteAt c.payload 6)
        let freeRun := clampArg 20000 50000 (wordAt c.payload 7)
        let s := s.modTiming fun t =>
          { t with mode := mode, priority := priority, syncOffset := sync.value, freeRun := freeRun.value }
        s.answer c (clampCode [sync.changed, freeRun.changed]) [])

end Sys2Proof.Machine
end

