-- ==== Sys2Proof/Machine/StoreEvents.lean ====
section
/-! DEFINITION. The events of the DRAM port: initialisation, the refresh timer and the completions of the four kinds of
transfer (R43, R48, R58, R60, R61, R66). A completion falls on the port even while RESET_N is asserted (R42). -/

namespace Sys2Proof.Machine

/-- DRAM_INIT_COMPLETE: store-ready is set, the refresh timer starts, nothing is owed (R43). -/
def execDramInitComplete (m : Moment) (s : State) : Result :=
  .next (s.onEvent m (fun s => expired s.arb.initDue s.now) fun s =>
    (s.modArb fun a =>
      { a with storeReady := true, refreshDue := some (s.now + a.interval), owed := 0, initDue := none }).serve)

/-- REFRESH_TIMER_EXPIRY: one more refresh is owed, up to 8, and the timer starts again (R61). -/
def execRefreshTimerExpiry (m : Moment) (s : State) : Result :=
  .next (s.onEvent m (fun s => expired s.arb.refreshDue s.now) fun s =>
    (s.modArb fun a => { a with owed := satAdd 8 a.owed 1, refreshDue := some (s.now + a.interval) }).serve)

/-- The port becomes idle. -/
def State.freePort (s : State) : State := s.modArb fun a => { a with port := none }

/-- Whether a run of bytes lies in the DRAM (R41; log 18). -/
def inDram (addr n : Nat) : Bool := addr + n ≤ dramBytes

/-- The transfer on the port, when it has completed by now (R60). -/
def State.completed (s : State) : Option Transfer := s.arb.port.filter fun t => t.due ≤ s.now

/-- A lane write's segment has been written: the DRAM takes the bytes, the line leaves the buffer after its last
segment, and a commit that waited for it is made (R48, R49; log 17). -/
def State.finishWrite (n : Lane) (addr : Nat) (data : List Byte) (s : State) : State :=
  ({ s with dram := Memory.writeRun addr data s.dram }.modStore n LaneStore.segmentWritten).commitIfDrained n

/-- LANE_WRITE_COMPLETE (R48, R60). A write whose line was discarded has no effect (R48; log 16). -/
def execLaneWriteComplete (m : Moment) (s : State) : Result :=
  let s := s.advance m
  match s.completed with
  | some ⟨.write n slot line k data, _, live⟩ =>
    if !live then .next s.freePort.serve
    else if inDram (segmentAddress n slot line k) data.length then
      .next (s.freePort.finishWrite n (segmentAddress n slot line k) data).serve
    else .fault .dramAddress
  | _ => .next s

/-- A fetched segment is held for its output line (R58). -/
def State.finishFetch (line : Nat) (item : FetchItem) (data : List Byte) (s : State) : State :=
  match s.readBuffer.place line with
  | .filling l got =>
    if l = line then
      { s with readBuffer := s.readBuffer.put line (.filling line (got ++ [⟨item.window, item.segment, data⟩])) }
    else s
  | _ => s

/-- COMPOSITOR_FETCH_COMPLETE (R58, R60). -/
def execCompositorFetchComplete (m : Moment) (s : State) : Result :=
  let s := s.advance m
  match s.completed with
  | some ⟨.fetch line item, _, live⟩ =>
    let addr := segmentAddress item.lane item.slot item.line item.segment
    if !live then .next s.freePort.serve
    else if inDram addr item.bytes then
      .next (s.freePort.finishFetch line item (Memory.readRun addr item.bytes s.dram)).serve
    else .fault .dramAddress
  | _ => .next s

/-- CONDITIONING_READ_COMPLETE (R66, R74). -/
def execConditioningReadComplete (m : Moment) (s : State) : Result :=
  let s := s.advance m
  match s.completed with
  | some ⟨.read n slot line k bytes, _, live⟩ =>
    let addr := segmentAddress n slot line k
    if !live then .next s.freePort.serve
    else if inDram addr bytes then .next (s.freePort.takeRead (Memory.readRun addr bytes s.dram)).serve
    else .fault .dramAddress
  | _ => .next s

/-- REFRESH_COMPLETE: the owed count decrements (R61), also when a reset fell meanwhile (R42). -/
def execRefreshComplete (m : Moment) (s : State) : Result :=
  let s := s.advance m
  match s.completed with
  | some ⟨.refresh, _, _⟩ => .next (s.freePort.modArb fun a => { a with owed := a.owed - 1 }).serve
  | _ => .next s

end Sys2Proof.Machine
end

