-- ==== Sys2Proof/Machine/SupervisionCommands.lean ====
section
/-! DEFINITION. The supervision commands (R165 to R169): HEARTBEAT, RESUME, RESTART, SET_SUPERVISION, CLEAR_FLAGS,
READ_COUNTERS. -/

namespace Sys2Proof.Machine

/-- HEARTBEAT (R165). -/
def execHeartbeat (m : Moment) (s : State) : Result :=
  .next (s.execute m (CmdMessage.is 1) fun c => State.ofLength 0 c fun s =>
    s.answer c .ok (byte1 s.chan.supervision.code ++ byte2 s.chan.heartbeatPeriod))

/-- The heartbeat timer as an entry to ACTIVE starts it: not while the period is 0 (R160). -/
def CommandChannel.startHeartbeat (now : Nat) (c : CommandChannel) : CommandChannel :=
  { c with
    heartbeatDue := if c.heartbeatPeriod = 0 then c.heartbeatDue else some (now + msTicks c.heartbeatPeriod) }

/-- RESUME's effect on supervision (R159, R165). -/
def CommandChannel.resume (now : Nat) (c : CommandChannel) : CommandChannel :=
  match c.supervision with
  | .active => c
  | _ => { c.startHeartbeat now with supervision := .active }

/-- RESUME (R165). -/
def execResume (m : Moment) (s : State) : Result :=
  .next (s.execute m (CmdMessage.is 2) fun c => State.ofLength 0 c fun s =>
    (s.modChan (CommandChannel.resume s.now)).answer c .ok (byte1 s.chan.supervision.code))

/-- RESTART: it takes effect at once and has no reply (R166). -/
def execRestart (m : Moment) (s : State) : Result :=
  .next (s.execute m (CmdMessage.is 3) fun c => State.ofLength 0 c (State.restartBy c.tag))

/-- The period in force for a period given: 0 is off and not clamped (R167). -/
def periodArg (x : Nat) : Clamped := if x = 0 then ⟨0, false⟩ else clampArg 100 5000 x

/-- SET_SUPERVISION's effect: the period, and the timer by the four cases of R167. -/
def CommandChannel.setPeriod (now period : Nat) (c : CommandChannel) : CommandChannel :=
  let due :=
    if period = 0 then none
    else match c.heartbeatDue with
      | some d => some d
      | none => if c.supervision = .active then some (now + msTicks period) else none
  { c with heartbeatPeriod := period, heartbeatDue := due }

/-- SET_SUPERVISION (R167). -/
def execSetSupervision (m : Moment) (s : State) : Result :=
  .next (s.execute m (CmdMessage.is 4) fun c => State.ofLength 2 c fun s =>
    let p := periodArg (wordAt c.payload 0)
    (s.modChan (CommandChannel.setPeriod s.now p.value)).answer c (clampCode [p.changed]) (byte2 p.value))

/-- The flags a CLEAR_FLAGS names: bits 17 to 23 are ignored (R168, R179). -/
def namedFlags (p : List Byte) : BitVec 24 := BitVec.ofNat 24 (tripleAt p 0) &&& allFlags

/-- CLEAR_FLAGS: the flags set after it, and those named that were left set (R168). -/
def execClearFlags (m : Moment) (s : State) : Result :=
  .next (s.execute m (CmdMessage.is 5) fun c => State.ofLength 3 c fun s =>
    let named := namedFlags c.payload
    let s := s.modChan (CommandChannel.clearNamed named)
    s.answer c .ok (byte3 s.chan.flags.toNat ++ byte3 (named &&& s.chan.flags).toNat))

/-- The purge counters of a lane (R169, section 6.1). -/
def Purge.counterBytes (p : Purge) : List Byte := byte4 p.autoPurges ++ byte4 p.manualPurges ++ byte4 p.halts

/-- READ_COUNTERS' data, the command having left the queue (R169). -/
def State.counterReply (s : State) : List Byte :=
  s.chan.counters.bytes ++ byte1 s.chan.resetCause.code ++ byte2 s.chan.restartCount
    ++ optByte1 (s.chan.restartTag.map (·.toNat)) ++ byte1 s.chan.supervision.code ++ byte2 s.chan.heartbeatPeriod
    ++ byte1 s.chan.queue.length ++ byteBool s.chan.hold ++ s.lanes.toList.flatMap (·.purge.counterBytes)

/-- READ_COUNTERS' clear: the device counters and the purge counters (R169). -/
def State.clearCounters (s : State) : State :=
  { s.modChan fun c => { c with counters := .zero } with
    lanes := s.lanes.map fun l => { l with purge := { l.purge with autoPurges := 0, manualPurges := 0, halts := 0 } } }

/-- READ_COUNTERS (R169). -/
def execReadCounters (m : Moment) (s : State) : Result :=
  .next (s.execute m (CmdMessage.is 6) fun c => State.ofLength 1 c <|
    State.ofField (onOffArg c.payload 0) c fun clear s =>
      (if clear then s.clearCounters else s).answer c .ok s.counterReply)

end Sys2Proof.Machine
end

