-- ==== Sys2Proof/Machine/Dispatch.lean ====
section
/-! DEFINITION. The meaning of each command, one arm a row of spec/opcode_table.json. -/

namespace Sys2Proof.Machine

def exec (i : Instr) (s : State) : Host.Outcome State Fault Refusal :=
  match i with
  | .powerOn m => Sys2Proof.Machine.execPowerOn m s
  | .pinResetAssert m => Sys2Proof.Machine.execPinResetAssert m s
  | .pinResetRelease m => Sys2Proof.Machine.execPinResetRelease m s
  | .dramInitComplete m => Sys2Proof.Machine.execDramInitComplete m s
  | .cameraPacket m n bytes => Sys2Proof.Machine.execCameraPacket m n bytes s
  | .generatorPacket m n => Sys2Proof.Machine.execGeneratorPacket m n s
  | .silenceTimerExpiry m n => Sys2Proof.Machine.execSilenceTimerExpiry m n s
  | .recoveryTimerExpiry m n => Sys2Proof.Machine.execRecoveryTimerExpiry m n s
  | .progressTimerExpiry m n => Sys2Proof.Machine.execProgressTimerExpiry m n s
  | .refreshTimerExpiry m => Sys2Proof.Machine.execRefreshTimerExpiry m s
  | .laneWriteComplete m => Sys2Proof.Machine.execLaneWriteComplete m s
  | .compositorFetchComplete m => Sys2Proof.Machine.execCompositorFetchComplete m s
  | .conditioningReadComplete m => Sys2Proof.Machine.execConditioningReadComplete m s
  | .refreshComplete m => Sys2Proof.Machine.execRefreshComplete m s
  | .flywheelDeadlineExpiry m => Sys2Proof.Machine.execFlywheelDeadlineExpiry m s
  | .outputTimerExpiry m => Sys2Proof.Machine.execOutputTimerExpiry m s
  | .activeLineBegin m => Sys2Proof.Machine.execActiveLineBegin m s
  | .statusLineEvent m => Sys2Proof.Machine.execStatusLineEvent m s
  | .statusLineEnd m => Sys2Proof.Machine.execStatusLineEnd m s
  | .pulseTimerExpiry m n => Sys2Proof.Machine.execPulseTimerExpiry m n s
  | .settleTimerExpiry m n => Sys2Proof.Machine.execSettleTimerExpiry m n s
  | .cooldownTimerExpiry m n => Sys2Proof.Machine.execCooldownTimerExpiry m n s
  | .heartbeatTimerExpiry m => Sys2Proof.Machine.execHeartbeatTimerExpiry m s
  | .commandMessageArrival m bytes => Sys2Proof.Machine.execCommandMessageArrival m bytes s
  | .backlaneGapTimeout m => Sys2Proof.Machine.execBacklaneGapTimeout m s
  | .unknownCommand m => Sys2Proof.Machine.execUnknownCommand m s
  | .heartbeat m => Sys2Proof.Machine.execHeartbeat m s
  | .resume m => Sys2Proof.Machine.execResume m s
  | .restart m => Sys2Proof.Machine.execRestart m s
  | .setSupervision m => Sys2Proof.Machine.execSetSupervision m s
  | .clearFlags m => Sys2Proof.Machine.execClearFlags m s
  | .readCounters m => Sys2Proof.Machine.execReadCounters m s
  | .cameraConfig m => Sys2Proof.Machine.execCameraConfig m s
  | .setLaneLimits m => Sys2Proof.Machine.execSetLaneLimits m s
  | .cameraRestart m => Sys2Proof.Machine.execCameraRestart m s
  | .cameraRearm m => Sys2Proof.Machine.execCameraRearm m s
  | .readLane m => Sys2Proof.Machine.execReadLane m s
  | .cameraMessage m => Sys2Proof.Machine.execCameraMessage m s
  | .setRelay m => Sys2Proof.Machine.execSetRelay m s
  | .relayFlush m => Sys2Proof.Machine.execRelayFlush m s
  | .setRefresh m => Sys2Proof.Machine.execSetRefresh m s
  | .loadAnchors m => Sys2Proof.Machine.execLoadAnchors m s
  | .setStabilizer m => Sys2Proof.Machine.execSetStabilizer m s
  | .readMotion m => Sys2Proof.Machine.execReadMotion m s
  | .setDust m => Sys2Proof.Machine.execSetDust m s
  | .loadTone m => Sys2Proof.Machine.execLoadTone m s
  | .readDustMap m => Sys2Proof.Machine.execReadDustMap m s
  | .setPurge m => Sys2Proof.Machine.execSetPurge m s
  | .purgeNow m => Sys2Proof.Machine.execPurgeNow m s
  | .purgeRearm m => Sys2Proof.Machine.execPurgeRearm m s
  | .loadWindow m => Sys2Proof.Machine.execLoadWindow m s
  | .clearWindow m => Sys2Proof.Machine.execClearWindow m s
  | .loadMarks m => Sys2Proof.Machine.execLoadMarks m s
  | .commitTables m => Sys2Proof.Machine.execCommitTables m s
  | .selectPage m => Sys2Proof.Machine.execSelectPage m s
  | .setSubstitute m => Sys2Proof.Machine.execSetSubstitute m s
  | .setRaster m => Sys2Proof.Machine.execSetRaster m s
  | .setTiming m => Sys2Proof.Machine.execSetTiming m s
  | .setLaneMode m => Sys2Proof.Machine.execSetLaneMode m s
  | .injectError m => Sys2Proof.Machine.execInjectError m s
  | .testRead m => Sys2Proof.Machine.execTestRead m s

end Sys2Proof.Machine
end

