-- ==== Sys2Proof/Safety.lean ====
section
/-! DEFINITION. What the claims speak of: the moment and the number of a command, the state of a command about to be
executed and its state answered, and what holds in a safe run. -/

namespace Sys2Proof

/-- The moment at which a command falls (log 1). -/
def Instr.moment : Instr → Moment
  | .powerOn m => m
  | .pinResetAssert m => m
  | .pinResetRelease m => m
  | .dramInitComplete m => m
  | .cameraPacket m _ _ => m
  | .generatorPacket m _ => m
  | .silenceTimerExpiry m _ => m
  | .recoveryTimerExpiry m _ => m
  | .progressTimerExpiry m _ => m
  | .refreshTimerExpiry m => m
  | .laneWriteComplete m => m
  | .compositorFetchComplete m => m
  | .conditioningReadComplete m => m
  | .refreshComplete m => m
  | .flywheelDeadlineExpiry m => m
  | .outputTimerExpiry m => m
  | .activeLineBegin m => m
  | .statusLineEvent m => m
  | .statusLineEnd m => m
  | .pulseTimerExpiry m _ => m
  | .settleTimerExpiry m _ => m
  | .cooldownTimerExpiry m _ => m
  | .heartbeatTimerExpiry m => m
  | .commandMessageArrival m _ => m
  | .backlaneGapTimeout m => m
  | .unknownCommand m => m
  | .heartbeat m => m
  | .resume m => m
  | .restart m => m
  | .setSupervision m => m
  | .clearFlags m => m
  | .readCounters m => m
  | .cameraConfig m => m
  | .setLaneLimits m => m
  | .cameraRestart m => m
  | .cameraRearm m => m
  | .readLane m => m
  | .cameraMessage m => m
  | .setRelay m => m
  | .relayFlush m => m
  | .setRefresh m => m
  | .loadAnchors m => m
  | .setStabilizer m => m
  | .readMotion m => m
  | .setDust m => m
  | .loadTone m => m
  | .readDustMap m => m
  | .setPurge m => m
  | .purgeNow m => m
  | .purgeRearm m => m
  | .loadWindow m => m
  | .clearWindow m => m
  | .loadMarks m => m
  | .commitTables m => m
  | .selectPage m => m
  | .setSubstitute m => m
  | .setRaster m => m
  | .setTiming m => m
  | .setLaneMode m => m
  | .injectError m => m
  | .testRead m => m

/-- The command number of a command execution (section 9.8), none for another event. -/
def Instr.commandNumber : Instr → Option Nat
  | .powerOn _ => none
  | .pinResetAssert _ => none
  | .pinResetRelease _ => none
  | .dramInitComplete _ => none
  | .cameraPacket _ _ _ => none
  | .generatorPacket _ _ => none
  | .silenceTimerExpiry _ _ => none
  | .recoveryTimerExpiry _ _ => none
  | .progressTimerExpiry _ _ => none
  | .refreshTimerExpiry _ => none
  | .laneWriteComplete _ => none
  | .compositorFetchComplete _ => none
  | .conditioningReadComplete _ => none
  | .refreshComplete _ => none
  | .flywheelDeadlineExpiry _ => none
  | .outputTimerExpiry _ => none
  | .activeLineBegin _ => none
  | .statusLineEvent _ => none
  | .statusLineEnd _ => none
  | .pulseTimerExpiry _ _ => none
  | .settleTimerExpiry _ _ => none
  | .cooldownTimerExpiry _ _ => none
  | .heartbeatTimerExpiry _ => none
  | .commandMessageArrival _ _ => none
  | .backlaneGapTimeout _ => none
  | .unknownCommand _ => none
  | .heartbeat _ => some 1
  | .resume _ => some 2
  | .restart _ => some 3
  | .setSupervision _ => some 4
  | .clearFlags _ => some 5
  | .readCounters _ => some 6
  | .cameraConfig _ => some 7
  | .setLaneLimits _ => some 8
  | .cameraRestart _ => some 9
  | .cameraRearm _ => some 10
  | .readLane _ => some 11
  | .cameraMessage _ => some 12
  | .setRelay _ => some 13
  | .relayFlush _ => some 14
  | .setRefresh _ => some 15
  | .loadAnchors _ => some 16
  | .setStabilizer _ => some 17
  | .readMotion _ => some 18
  | .setDust _ => some 19
  | .loadTone _ => some 20
  | .readDustMap _ => some 21
  | .setPurge _ => some 22
  | .purgeNow _ => some 23
  | .purgeRearm _ => some 24
  | .loadWindow _ => some 25
  | .clearWindow _ => some 26
  | .loadMarks _ => some 27
  | .commitTables _ => some 28
  | .selectPage _ => some 29
  | .setSubstitute _ => some 30
  | .setRaster _ => some 31
  | .setTiming _ => some 32
  | .setLaneMode _ => some 33
  | .injectError _ => some 34
  | .testRead _ => some 35

namespace Machine

/-! ### A command at the head of the queue (R156) -/

/-- The oldest message of the command queue is `c`, it carries command number `k`, and a notice entry is free (R156). -/
abbrev State.ReadyFor (s : State) (k : Nat) (c : CmdMessage) : Prop :=
  s.resetAsserted = false ∧ s.chan.queue.head? = some c ∧ c.number.toNat = k ∧ s.chan.notices.length < 16

/-- The state after an execution whose one effect is its reply: the message has left the queue, HOLD is cleared at a depth
of 4, the reply stands at the tail of the notice queue, and the execution of the message then oldest, due while an entry
is free, comes next (R156, R158; log 29). -/
def State.replied (s : State) (m : Moment) (nt : Notice) : State :=
  { s with
    now := max s.now m.tick, reverse := m.reverse
    chan := { s.chan with
      queue := s.chan.queue.drop 1
      hold := s.chan.hold && (s.chan.queue.drop 1).length != 4
      notices := s.chan.notices ++ [nt] }
    pending := executionDue ⟨max s.now m.tick, m.reverse⟩ (s.chan.queue.drop 1) (s.chan.notices.length + 1)
      ++ s.pending }

/-- The payload lengths that R182 gives a command. -/
def lengthAllowed (k : Nat) (p : List Byte) : Bool :=
  match k with
  | 1 | 2 | 3 | 28 => p.length == 0
  | 4 | 11 | 15 | 21 | 26 | 30 => p.length == 2
  | 5 | 18 | 33 => p.length == 3
  | 6 | 9 | 10 | 14 | 23 | 24 | 29 | 31 | 34 | 35 => p.length == 1
  | 7 => p.length == 2 || p.length == 7
  | 8 => p.length == 6
  | 12 => 2 ≤ p.length && p.length ≤ 33
  | 13 => p.length == 4
  | 16 => 2 ≤ p.length && p.length == 2 + 3 * (p.getD 1 0).toNat
  | 17 => p.length == 13
  | 19 | 22 => p.length == 10
  | 20 => p.length == 66
  | 25 => p.length == 19
  | 27 => (p.getD 13 0).toNat ≤ 8 && p.length == 14 + 7 * (p.getD 13 0).toNat
  | 32 => p.length == 9
  | _ => false

/-- The commands whose first payload byte is a lane (R182). -/
def takesLane (k : Nat) : Bool := (7 ≤ k && k ≤ 14) || (16 ≤ k && k ≤ 19) || (21 ≤ k && k ≤ 24) || (33 ≤ k && k ≤ 35)

/-! ### Payload bytes -/

/-- A byte that names one of four: a lane, a page, a tone table or a mark set. -/
def fourByte (n : Fin 4) : Byte := BitVec.ofNat 8 n.val

/-- An on/off byte (R179). -/
def boolByte (b : Bool) : Byte := BitVec.ofNat 8 b.toNat

/-- A two-byte number, most significant byte first (R179). -/
def wordOf (hi lo : Byte) : Nat := 256 * hi.toNat + lo.toNat

/-- A mark as the seven bytes of LOAD_MARKS carry it: x, y, w and h in 12 bits each, then mode and colour (R182). -/
def Mark.payload (k : Mark) : List Byte :=
  let packed (a b : Nat) : List Byte := byte1 (a / 16) ++ byte1 (a % 16 * 16 + b / 256) ++ byte1 b
  packed (BitVec.ofInt 12 k.x).toNat (BitVec.ofInt 12 k.y).toNat ++ packed k.w k.h
    ++ byte1 (16 * (match k.mode with | .opaqueMark => 0 | .half => 1) + k.colour.val)

/-- A window record as the nineteen bytes of LOAD_WINDOW carry it for window `w` of a page (R132, R182). -/
def WindowRecord.payload (page : Fin 4) (w : Nat) (r : WindowRecord) : List Byte :=
  [fourByte page, BitVec.ofNat 8 w, fourByte r.lane] ++ byte2 r.x ++ byte2 r.y ++ byte2 r.w ++ byte2 r.h ++ byte2 r.cx
    ++ byte2 r.cy ++ byte1 (match r.scale with | .one => 0 | .down => 1 | .up => 2) ++ [boolByte r.stabilize]
    ++ (match r.markSet with | some n => [fourByte n] | none => [255])
    ++ byte1 (match r.anchoring with | .view => 0 | .camera => 1)

/-- A palette as the twelve bytes of LOAD_MARKS carry it: Y, Cb, Cr of each colour (R182). -/
def palettePayload (p : Four Colour) : List Byte := p.toList.flatMap fun k => [k.y, k.cb, k.cr]

/-- A command message as the cab command lane carries it (section 11.3, R179). -/
def CmdMessage.wire (c : CmdMessage) : List Byte :=
  let body := [c.number, c.tag, BitVec.ofNat 8 c.payload.length] ++ c.payload
  0x7E :: body ++ crcBytes body

/-! ### What a statement leaves out of account -/

/-- A Lane Receiver apart from its counters and its count of damaged lines. -/
def Receiver.judged (r : Receiver) : Receiver := { r with counters := .zero, damagedCount := 0 }

/-- The Command Channel apart from what a report leaves: the notice queue, the flags with their marks and the count of
reports dropped (R158). -/
def CommandChannel.apartReports (c : CommandChannel) : CommandChannel :=
  { c with notices := [], flags := 0, reported := 0, counters := { c.counters with reportsDropped := 0 } }

/-! ### What holds in a safe run -/

/-- Health and attempts (R13, R16): within their ranges; 32 is FAULTED's count alone, and four attempts LOCKED_OUT's. -/
abbrev Receiver.healthOk (r : Receiver) : Prop :=
  r.health ≤ 32 ∧ (r.health = 32 ↔ r.state = .faulted) ∧ r.attempts ≤ 4 ∧ (r.attempts = 4 ↔ r.state = .lockedOut)

/-- The relay context (R29, R30, R34): a message is in flight exactly while one is queued and no abort words are owed,
and the progress timer runs exactly then. -/
abbrev Relay.flightOk (r : Relay) : Prop :=
  r.queue.length ≤ 4 ∧ r.abortOwed ≤ 2 ∧ (r.inFlight.isSome = true ↔ r.queue ≠ [] ∧ r.abortOwed = 0)
    ∧ r.progressDue.isSome = r.inFlight.isSome

/-- Messages stand in the relay queue only while the lane is in ACQUIRING or LOCKED in NORMAL mode (R30). -/
abbrev LaneBlocks.messagesOk (l : LaneBlocks) : Prop :=
  l.relay.queue ≠ [] → (l.rx.state = .acquiring ∨ l.rx.state = .locked) ∧ l.rx.mode = .normal

/-- Each purge timer runs exactly in its state (R110 to R113, R116). -/
abbrev Purge.timersOk (p : Purge) : Prop :=
  p.pulseDue.isSome = (p.state == .pulse) ∧ p.settleDue.isSome = (p.state == .settle)
    ∧ p.cooldownDue.isSome = (p.state == .cooldown)

/-- The timing master, whenever one exists, is a lane in LOCKED and in mode NORMAL (R147). -/
abbrev State.masterOk (s : State) : Prop :=
  ∀ n : Lane, s.timing.master = some n → (s.lane n).rx.state = .locked ∧ (s.lane n).rx.mode = .normal

/-- The start watch (R141, R139): the flywheel deadline while a master exists, the timer while none exists, and no watch
exactly while RESET_N is asserted. -/
abbrev State.watchOk (s : State) : Prop :=
  match s.timing.watch with
  | some (.deadline _) => s.timing.master.isSome = true ∧ s.resetAsserted = false
  | some (.timer _) => s.timing.master = none ∧ s.resetAsserted = false
  | none => s.timing.master = none ∧ s.resetAsserted = true

/-- The line write buffer holds at most two lines (R48). -/
abbrev LaneStore.bufferOk (st : LaneStore) : Prop := st.buffer.length ≤ 2

/-- The slot ring (R44): no two slots have one role. -/
abbrev LaneStore.ringOk (st : LaneStore) : Prop :=
  ∀ i k : Fin 4, i ≠ k → (st.ring.get i).map (·.role) = (st.ring.get k).map (·.role) → st.ring.get i = none

/-- The job queue (R63): at most one job a lane, and the head alone runs. -/
abbrev State.jobsOk (s : State) : Prop :=
  (s.jobs.map (·.lane)).Nodup ∧ (∀ j ∈ s.jobs.take 1, j.run.isSome = true) ∧ (∀ j ∈ s.jobs.drop 1, j.run = none)

/-- How a lane's ring stands to its frames (R44, R47, R49, R50): a FILLING slot is that of the open frame or of the
pending commit, no commit is pending while the open frame has its slot, a frame open for the store is open in the Lane
Receiver, outside CHECK, and a CONDITIONING slot is that of a job of the lane. -/
abbrev State.slotsOk (s : State) (n : Lane) : Prop :=
  let st := (s.lane n).store
  (∀ i : Fin 4, (st.ring.get i).map (·.role) = some .filling →
      st.opening = .stored i ∨ st.pendingCommit.map (·.slot) = some i)
    ∧ (∀ i : Fin 4, st.opening = .stored i → st.pendingCommit = none)
    ∧ (st.opening ≠ .closed → (s.lane n).rx.openFrame.isSome = true ∧ (s.lane n).rx.mode ≠ .check)
    ∧ (∀ i : Fin 4, (st.ring.get i).map (·.role) = some .conditioning → ∃ j ∈ s.jobs, j.lane = n ∧ j.slot = i)

/-- The rings, the frames and the jobs together (R44, R63). -/
abbrev State.storeOk (s : State) : Prop := s.jobsOk ∧ ∀ n : Lane, (s.lane n).store.ringOk ∧ s.slotsOk n

/-- The command queue and HOLD (R154 to R156): at most 16 messages; HOLD stands from a depth of 12 until a depth of 4. -/
abbrev CommandChannel.queueOk (c : CommandChannel) : Prop :=
  c.queue.length ≤ 16 ∧ (12 ≤ c.queue.length → c.hold = true) ∧ (c.hold = true → 5 ≤ c.queue.length)

/-- The notice queue holds at most 16 notices (R158). -/
abbrev CommandChannel.noticesOk (c : CommandChannel) : Prop := c.notices.length ≤ 16

/-- The event flags (R161, R179): only the seventeen flags are ever set, and a flag that is clear is not marked reported. -/
abbrev CommandChannel.flagsOk (c : CommandChannel) : Prop :=
  c.flags &&& ~~~allFlags = 0 ∧ c.reported &&& ~~~c.flags = 0

/-- What every state of a safe run holds. -/
structure State.Safe (s : State) : Prop where
  dram : Memory.wf s.dram = true
  health : ∀ n, (s.lane n).rx.healthOk
  flight : ∀ n, (s.lane n).relay.flightOk
  messages : ∀ n, (s.lane n).messagesOk
  purge : ∀ n, (s.lane n).purge.timersOk
  master : s.masterOk
  watch : s.watchOk
  buffers : ∀ n, (s.lane n).store.bufferOk
  store : s.storeOk
  queue : s.chan.queueOk
  notices : s.chan.noticesOk
  flags : s.chan.flagsOk

/-- A run of `fuel` steps that never stops and holds what a safe run holds. -/
def State.SafeRun : Nat → State → Prop
  | 0, s => s.Safe
  | fuel + 1, s => s.Safe ∧ ∃ t, step s = .next t ∧ State.SafeRun fuel t

/-- The step `t` follows `s` by a reset: POWER_ON, the assertion or release of RESET_N, or an executed RESTART (R1). -/
def State.ResetTo (s t : State) : Prop :=
  ∃ m : Moment, exec (.powerOn m) s = .next t ∨ exec (.pinResetAssert m) s = .next t
    ∨ (s.resetAsserted = true ∧ exec (.pinResetRelease m) s = .next t)
    ∨ (∃ c : CmdMessage, s.ReadyFor 3 c ∧ c.payload = [] ∧ exec (.restart m) s = .next t)

end Machine

end Sys2Proof
end

