-- ==== Sys2Proof/Certificates/Slice0/Obligations.lean ====
section
/-! DEFINITION. The statements about the model that the provers are to prove. The commands of the command queue are
stated on a state in which the oldest message is theirs and a notice entry is free (`State.ReadyFor`, R156);
`State.replied` is the state in which such a command has left the queue and its reply stands in the notice queue.
`State.advance` brings an event's tick and the level of REVERSE (log 1), and `State.serve` at an event's end is what the
arbiter then grants (StoreGrantsInOrder; log 34). -/

open Sys2Proof Sys2Proof.Machine

/-! ### Resets -/

/-- R1: the values every lane holds after each of the three resets; no report stands and no flag is raised. In
SEARCHING a lane then takes no frame until the store is ready, whatever packet arrives. -/
def Obligations.ResetSetsReceivers : Prop :=
  ∀ s t : State, s.ResetTo t →
    (∀ n : Lane, (t.lane n).rx =
      { state := .searching, mode := .normal, geometryMode := .auto, configured := ⟨1280, 800⟩, acquisition := none
        geometry := ⟨1280, 800⟩, health := 0, attempts := 0, average := none, periods := 0, mark := none
        openFrame := none, damagedCount := 0, periodError := false, expectedFrame := none, expectedLine := 0
        cleanFrames := 0, lockedRun := 0, silenceDue := none, recoveryDue := none, silenceTimeout := 100
        recoveryDelay := 500, dmax := 4, counters := ⟨0, 0, 0, 0, 0, 0, 0, 0, 0, 0, 0, 0, 0, 0, 0, 0, 0⟩ })
      ∧ t.chan.notices = [] ∧ t.chan.flags = 0
      ∧ (∀ (n : Lane) (m : Moment) (bytes : List Byte), t.arb.storeReady = false →
        ∃ u, exec (.cameraPacket m n bytes) t = .next u ∧ (u.lane n).rx.state = .searching
          ∧ (u.lane n).rx.openFrame = none ∧ u.arb.storeReady = false)

/-- R27 and R108: the values of the relay contexts and of the Purge Controllers after each of the three resets; no
report stands, no flag is raised and no PURGEn is driven. The first two forward words of a lane then carry part-abort. -/
def Obligations.ResetSetsRelayAndPurge : Prop :=
  ∀ s t : State, s.ResetTo t →
    (∀ n : Lane,
      (∃ word, (t.lane n).relay =
        { queue := [], inFlight := none, byteIndex := 0, offered := false, taken := 0, sendToggle := true, reply := []
          acceptedToggle := false, candidate := none, abortSeen := false, abortOwed := 2, progressDue := none
          doubleLook := true, timeout := 50, forwardWord := word })
      ∧ (t.lane n).purge =
        { state := .idle, pulseDue := none, settleJobs := 0, settleDue := none, cooldownDue := none, consecutive := 0
          lastSoiled := none, returnHalted := false
          settings := ⟨300, 30, 90, 10, 3, true⟩, autoPurges := 0, manualPurges := 0, halts := 0 }
      ∧ t.purgeLine n = false
      ∧ (∀ (now later : Nat) (first second : Option RelayFields),
        let one := (Relay.takePacket n now first (t.lane n).relay).1
        one.forwardWord = some (withCrc [0, 0x20])
          ∧ (Relay.takePacket n later second one).1.forwardWord = some (withCrc [0, 0x20])))
      ∧ t.chan.notices = [] ∧ t.chan.flags = 0

/-- R42, R64, R86, R118, R139 and R170: what each of the three resets leaves of the slot rings, the write buffers and
the read buffer, of the engine and the Dust Monitor, of the Compositor in both its images, of the output timing and of
the Link Test Units, field by field. ResetPinsComplete and RestartCompletes state the start watch and the rest of the
store. That the sync offset in force is 8 too is the model's choice (log 19). -/
def Obligations.ResetSetsPictureBlocks : Prop :=
  ∀ s t : State, s.ResetTo t →
    t.jobs = [] ∧ t.readBuffer = ⟨.empty, .empty⟩ ∧ t.arb.lastGranted = 3
      ∧ (∀ n : Lane,
        (t.lane n).store = { ring := ⟨none, none, none, none⟩, buffer := [], pendingCommit := none, opening := .closed }
        ∧ (t.lane n).motion =
          { jitterX := 0, jitterY := 0, referenceValid := false, anchors := []
            settings := ⟨true, 12, 6, 3, 2048, 480, 8, 32, 24, 16⟩, summary := none, counters := ⟨0, 0, 0, 0, 0⟩ }
        ∧ (t.lane n).dust =
          { gathering := none, closedSet := none, jobSet := none
            table := List.replicate 500
              { initialised := false, state := .clear, mean := 0, activity := 0, age := 0, gain := 16, lastMean := 0 }
            level := 0, band := 0, settings := ⟨12, 8, 40, 32, 96, 160⟩ }
        ∧ (t.lane n).test =
          { pattern := .short, genShift := List.replicate 9 true, genFrame := 0, genRun := none, injectPending := false
            checker := .hunt, inverted := false, chkShift := [], seedCount := 0, run := 0
            runCorrect := (t.lane n).test.runCorrect, window := [], errorCount := 0 }
        ∧ (t.lane n).staleAge = 255)
      ∧ (∀ b : Fin 4, ∀ y < 256, ((t.tone.active.get b).getD y 0).toNat = y ∧ ((t.tone.pending.get b).getD y 0).toNat = y)
      ∧ (let window : WindowRecord :=
          { enabled := false, lane := 0, x := 0, y := 0, w := 2, h := 2, cx := 0, cy := 0, scale := .one
            stabilize := false, markSet := none, anchoring := .view }
        let page := List.replicate 6 window
        let black : Colour := ⟨16, 128, 128⟩
        let marks : MarkSet := ⟨⟨black, black, black, black⟩, []⟩
        t.comp =
          { pagesActive := ⟨page, page, page, page⟩, pagesPending := ⟨page, page, page, page⟩
            marksActive := ⟨marks, marks, marks, marks⟩, marksPending := ⟨marks, marks, marks, marks⟩
            commitRequested := false, selectedPage := 0, debouncedReverse := false, lastReverse := false
            shownPage := .fallback, holdLimit := 15, plan := [] })
      ∧ t.timing =
          { raster := .r1280x800, pendingRaster := none, mode := .auto, priority := ⟨0, 1, 2, 3⟩, syncOffset := 8
            syncInForce := 8, freeRun := 33333, master := none, average := none, offsetMark := none, flywheel := 0
            holdover := false, holdoverPeriod := none, watch := t.timing.watch, phase := .blanking, frameNumber := 0
            firstPending := true, lastStart := t.timing.lastStart, nextLine := t.timing.nextLine }
      ∧ t.tx.video = .blanking

/-- Sections 3.2, 8.1 and 9.1, R43, R109 and R164: POWER_ON at a moment gives exactly the state right after reset at
that moment: cause POWER_ON, initialisation complete 200 µs later, the output timer expiring 33,333 µs later. The
assertion of RESET_N stops initialisation, refresh and the output timer; its release starts initialisation and the
output timer; the cause is PIN, the restart count 0 and the last restart tag none. After each FAULT and every PURGEn
are deasserted. The model's choices: the moment of POWER_ON is the one at which the reference clock runs, the DRAM is
then empty, the waiting events stay (log 5, log 7, log 8); the last start is the tick of POWER_ON, and what the spec
gives no reset value has the model's (log 32); a release without an assertion only lets time pass (log 2); while
RESET_N is asserted, an event that is neither a reset nor the completion of the transfer on the port changes nothing
but the time and the level of the REVERSE line (log 6). -/
def Obligations.ResetPinsComplete : Prop :=
  (∀ (m : Moment) (s : State),
      let t : State := { State.reset with
        now := max s.now m.tick, reverse := m.reverse
        arb := { State.reset.arb with initDue := some (max s.now m.tick + usTicks 200) }
        timing := { State.reset.timing with
          watch := some (.timer (max s.now m.tick + usTicks 33333)), lastStart := max s.now m.tick }
        pending := s.pending }
      exec (.powerOn m) s = .next t ∧ t.faultLine = false ∧ (∀ n, t.purgeLine n = false)
      ∧ State.reset.chan.resetCause = .powerOn ∧ State.reset.chan.restartCount = 0
      ∧ State.reset.chan.restartTag = none ∧ State.reset.chan.supervision = .startup
      ∧ State.reset.arb.storeReady = false ∧ State.reset.arb.lastGranted = 3 ∧ State.reset.arb.owed = 0)
  ∧ (∀ (m : Moment) (s : State),
      (∃ t, exec (.pinResetAssert m) s = .next t ∧ t.resetAsserted = true ∧ t.now = max s.now m.tick
        ∧ t.faultLine = false ∧ (∀ n, t.purgeLine n = false)
        ∧ t.arb.initDue = none ∧ t.arb.refreshDue = none ∧ t.arb.storeReady = false ∧ t.arb.owed = 0
        ∧ t.arb.interval = 312 ∧ t.arb.lastGranted = 3 ∧ t.timing.watch = none
        ∧ t.chan = CommandChannel.reset .pin 0 none ∧ t.dram = s.dram ∧ t.pending = s.pending)
      ∧ (s.resetAsserted = true → ∃ t, exec (.pinResetRelease m) s = .next t ∧ t.resetAsserted = false
        ∧ t.faultLine = false ∧ (∀ n, t.purgeLine n = false)
        ∧ t.arb.initDue = some (max s.now m.tick + usTicks 200) ∧ t.arb.refreshDue = none ∧ t.arb.storeReady = false
        ∧ t.timing.watch = some (.timer (max s.now m.tick + usTicks 33333))
        ∧ t.chan = CommandChannel.reset .pin 0 none ∧ t.dram = s.dram ∧ t.pending = s.pending)
      ∧ (s.resetAsserted = false → exec (.pinResetRelease m) s = .next { s with
        now := max s.now m.tick, reverse := m.reverse }))
  ∧ (∀ (i : Instr) (s : State), s.resetAsserted = true →
       (match i with
         | .powerOn _ | .pinResetAssert _ | .pinResetRelease _ | .laneWriteComplete _ | .compositorFetchComplete _
         | .conditioningReadComplete _ | .refreshComplete _ => False
         | _ => True) →
       exec i s = .next { s with now := max s.now i.moment.tick, reverse := i.moment.reverse })

/-- R166, R163, R109 and R164: RESTART with no payload has no reply. It resets every block; the refresh, store-ready,
the DRAM and the transfer on the port go on; the reset cause, the restart count and the last restart tag record it;
FAULT and every PURGEn are deasserted. The model's choices: the DRAM keeps its contents (log 8), and the last start,
the line sent last, the forward words and the other fields to which the spec gives no reset value have the model's
(log 32). -/
def Obligations.RestartCompletes : Prop :=
  ∀ (m : Moment) (s : State) (c : CmdMessage), s.ReadyFor 3 c → c.payload = [] →
    ∃ t, exec (.restart m) s = .next t
      ∧ (∀ n, t.lane n = State.reset.lane n) ∧ t.jobs = [] ∧ t.readBuffer = State.reset.readBuffer
      ∧ t.tone = State.reset.tone ∧ t.comp = State.reset.comp ∧ t.tx = State.reset.tx
      ∧ t.timing = { State.reset.timing with
        watch := some (.timer (max s.now m.tick + usTicks 33333)), lastStart := max s.now m.tick }
      ∧ t.chan = { State.reset.chan with
        resetCause := .restartCommand, restartCount := min 65535 (s.chan.restartCount + 1), restartTag := some c.tag }
      ∧ t.arb.storeReady = s.arb.storeReady ∧ t.arb.refreshDue = s.arb.refreshDue ∧ t.arb.owed = s.arb.owed
      ∧ t.arb.interval = s.arb.interval ∧ t.arb.initDue = s.arb.initDue ∧ t.arb.lastGranted = 3
      ∧ t.arb.port.map (·.due) = s.arb.port.map (·.due) ∧ t.arb.port.map (·.kind) = s.arb.port.map (·.kind)
      ∧ t.dram = s.dram ∧ t.pending = s.pending ∧ t.now = max s.now m.tick ∧ t.resetAsserted = false
      ∧ t.faultLine = false ∧ (∀ n, t.purgeLine n = false)

/-! ### What several commands share -/

/-- A step takes the command at the front of the queue and carries it out on the state with the queue's rest; on an
empty queue the part idles (log 4). -/
def Obligations.StepTakesTheFront : Prop :=
  (∀ (c : Instr) (rest : List Instr) (s : State), s.pending = c :: rest → step s = exec c { s with pending := rest })
    ∧ (∀ s : State, s.pending = [] → step s = .next s)

/-- R156 and R157: the execution of the oldest message while a notice entry is free. It comes at the first event that
makes both hold: the arrival of the message at an empty queue, the execution before it with an entry still free after
the reply, or the status line event that frees entries; its row is that of the message's command number,
UNKNOWN_COMMAND for one that is none of 1 to 35, at the moment of that event, before any other event that waits. No
other event brings one. That the row takes the front of the queue of events is how the model has an execution follow
at once (the model's choice, log 29). -/
def Obligations.ExecutionsComeNext : Prop :=
  (∀ (m : Moment) (c : CmdMessage),
      (c.execution m).moment = m
      ∧ (1 ≤ c.number.toNat → c.number.toNat ≤ 35 → (c.execution m).commandNumber = some c.number.toNat)
      ∧ (c.number.toNat = 0 ∨ 36 ≤ c.number.toNat → c.execution m = .unknownCommand m))
  ∧ (∀ (m : Moment) (s : State), s.resetAsserted = false →
      let first := fun l : List CmdMessage => (l.take 1).map (CmdMessage.execution ⟨max s.now m.tick, m.reverse⟩)
      (∀ c : CmdMessage, s.chan.receiver = .idle → s.chan.queue = [] → c.payload.length ≤ 72 →
        ∃ t, exec (.commandMessageArrival m c.wire) s = .next t
          ∧ t.pending = if s.chan.notices.length < 16 then c.execution ⟨max s.now m.tick, m.reverse⟩ :: s.pending
            else s.pending)
      ∧ (∀ (i : Instr) (k : Nat) (c : CmdMessage),
        (i.commandNumber = some k ∨ (i = .unknownCommand i.moment ∧ (k = 0 ∨ 36 ≤ k))) → i.moment = m → k ≠ 3 →
        s.ReadyFor k c →
        ∃ t, exec i s = .next t
          ∧ t.pending = if s.chan.notices.length < 15 then first (s.chan.queue.drop 1) ++ s.pending else s.pending)
      ∧ (s.timing.phase = .picture → s.timing.raster.height ≤ s.timing.nextLine →
        s.timing.lastStart + (s.timing.raster.height + 1) * s.timing.raster.lineTicks ≤ max s.now m.tick →
        ∃ t, exec (.statusLineEvent m) s = .next t
          ∧ t.pending = if s.chan.notices.length < 20 then first s.chan.queue ++ s.pending else s.pending))
  ∧ (∀ (i : Instr) (s t : State), i.commandNumber = none → i ≠ .unknownCommand i.moment →
      i ≠ .statusLineEvent i.moment → (∀ bytes, i ≠ .commandMessageArrival i.moment bytes) →
      exec i s = .next t → t.pending = s.pending)

/-- R158 and R161: a report enters at the tail of the notice queue when at least four of its sixteen entries are free,
with 12 notices queued and not with 13; otherwise it is dropped and counted, and REPORT_DROPPED is raised. Several
reports of one event are offered one by one in order, so that those that find fewer than four entries free are
dropped. -/
def Obligations.ReportsNeedFourEntries : Prop :=
  (∀ (s : State) (report : Notice),
      (s.chan.notices.length ≤ 12 →
        s.offer report = { s with chan := { s.chan with notices := s.chan.notices ++ [report] } })
      ∧ (13 ≤ s.chan.notices.length → s.offer report = { s with chan := { s.chan with
        counters := { s.chan.counters with reportsDropped := min 4294967295 (s.chan.counters.reportsDropped + 1) }
        flags := s.chan.flags ||| 0x004000, reported := s.chan.reported &&& 0xFFBFFF } }))
  ∧ (∀ (s : State) (reports : List Notice),
      let room := 13 - s.chan.notices.length
      let dropped := reports.length - room
      s.offerAll reports = { s with chan :=
        if dropped = 0 then { s.chan with notices := s.chan.notices ++ reports }
        else { s.chan with
          notices := s.chan.notices ++ reports.take room
          counters := { s.chan.counters with
            reportsDropped := min 4294967295 (s.chan.counters.reportsDropped + dropped) }
          flags := s.chan.flags ||| 0x004000, reported := s.chan.reported &&& 0xFFBFFF } })

/-- R43, R48, R60, R61 and R74: what an event leaves the arbiter to grant. On an idle port of a ready store the first
of these that waits is granted: a refresh with 8 owed, the Compositor's fetch (OutputLinesAreDrawn says which), a lane
write in turn after the last lane granted, a refresh with 1 owed, a conditioning read. A lane's write is the next
unwritten segment of the head line of its buffer, into the slot of the line's frame; it waits while that frame has
none, as while its opening is deferred. The read is that of the running job's first anchor still to be searched: 16
patch lines of the job's slot from line 32r + 8 on, then the window lines of the reference slot from 32r + 8 − Sy on,
each one segment floor(c/4). A segment of b bytes holds the port 4 + ceil(b/16) ticks, a refresh 16. Nothing else
changes but the line places of the read buffer. The completion of initialisation sets store-ready, starts the refresh
timer and leaves nothing owed. A refresh timer that expires starts again and owes one refresh more, 8 at most; a
refresh that completes frees the port and owes one less. Then the arbiter grants. That an output line takes line place
k mod 2 is the model's choice (log 28), and so is that the arbiter grants at the end of each event that can bring a
request (log 34) and that a refresh timer counts on from the event that takes its expiry (log 36). -/
def Obligations.StoreGrantsInOrder : Prop :=
  (∀ s : State,
     let u := s.completeNext
     let slotFor := fun (store : LaneStore) (tag : FrameTag) => match tag, store.pendingCommit, store.opening with
       | .committing, some p, _ => some p.slot
       | .current, _, .stored i => some i
       | _, _, _ => none
     let write := fun n : Lane => match (s.lane n).store.buffer with
       | b :: _ =>
         if 512 * b.written < b.payload.length then
           (slotFor (s.lane n).store b.tag).map fun i =>
             TransferKind.write n i b.line b.written ((b.payload.drop (512 * b.written)).take 512)
         else none
       | [] => none
     let read := match s.jobs with
       | ⟨n, slot, _, some run⟩ :: _ =>
         match (run.anchors.zip run.verdicts).find? fun x : Anchor × AnchorVerdict => x.2 == AnchorVerdict.toSearch,
           run.reference with
         | some (a, _), some reference =>
           let width := ((s.lane n).store.ring.get slot).elim 0 (·.record.geometry.w)
           let k := run.got.length
           let segment := a.col / 4
           let bytes := min 512 (2 * width - 512 * segment)
           some (if k < 16 then TransferKind.read n slot (32 * a.row + 8 + k) segment bytes
             else .read n reference (32 * a.row + 8 - run.settings.sy + (k - 16)) segment bytes)
         | _, _ => none
       | _ => none
     let waiting := ((if 8 ≤ s.arb.owed then [TransferKind.refresh] else []) ++ u.fetchRequest.toList
       ++ [s.arb.lastGranted + 1, s.arb.lastGranted + 2, s.arb.lastGranted + 3, s.arb.lastGranted].filterMap write
       ++ (if 1 ≤ s.arb.owed then [TransferKind.refresh] else []) ++ read.toList)
     (s.arb.storeReady = true → s.arb.port = none →
       s.serve.arb.port = waiting.head?.map fun k => ⟨k, s.now + (match k with
         | .refresh => 16
         | .fetch _ item => 4 + (item.bytes + 15) / 16
         | .write _ _ _ _ data => 4 + (data.length + 15) / 16
         | .read _ _ _ _ bytes => 4 + (bytes + 15) / 16), true⟩)
     ∧ (s.arb.storeReady = true → s.arb.port = none →
       s.serve.arb.lastGranted = (match waiting.head? with
         | some (.write n _ _ _ _) => n
         | _ => s.arb.lastGranted))
     ∧ (s.arb.storeReady = false ∨ s.arb.port ≠ none → s.serve.arb = s.arb)
     ∧ s.serve.readBuffer = (match s.serve.arb.port, s.arb.port with
       | some ⟨.fetch line _, _, _⟩, none =>
         let got := match (if line % 2 = 0 then s.readBuffer.place0 else s.readBuffer.place1) with
           | .filling k got => if k = line then got else []
           | _ => []
         if line % 2 = 0 then { u.readBuffer with place0 := .filling line got }
         else { u.readBuffer with place1 := .filling line got }
       | _, _ => u.readBuffer)
     ∧ s.serve = { s with
         arb := { s.arb with port := s.serve.arb.port, lastGranted := s.serve.arb.lastGranted }
         readBuffer := s.serve.readBuffer })
  ∧ (∀ (m : Moment) (s : State) (due : Nat), due ≤ max s.now m.tick →
       let now := max s.now m.tick
       (s.resetAsserted = false → s.arb.initDue = some due → exec (.dramInitComplete m) s = .next
         { s.advance m with arb := { s.arb with
           storeReady := true, refreshDue := some (now + s.arb.interval), owed := 0, initDue := none } }.serve)
       ∧ (s.resetAsserted = false → s.arb.refreshDue = some due → exec (.refreshTimerExpiry m) s = .next
         { s.advance m with arb := { s.arb with
           owed := min 8 (s.arb.owed + 1), refreshDue := some (now + s.arb.interval) } }.serve)
       ∧ (∀ live, s.arb.port = some ⟨.refresh, due, live⟩ → exec (.refreshComplete m) s = .next
         { s.advance m with arb := { s.arb with port := none, owed := s.arb.owed - 1 } }.serve))

/-- R36, R37, R48, R55, R63, R69 and R89: a lane down empties the lane's write buffer, withdraws its pending commit
and opening and frees its FILLING and CONDITIONING slots, keeping READY and SHOWING; its relay queue is emptied with
two abort words owed, and each of its messages is reported with RELAY_FAILED, reason LANE_DOWN, the one in flight
first; its job leaves the queue and the other lanes' jobs stay in it in their order; its jitter state becomes (0, 0),
its reference-valid flag clear and its statistics sets none. A write of the lane on the port goes on with its data
discarded, and so does a conditioning read when the lane's job runs; any other transfer stays as it is. Then the next
job starts when the running one has left (JobsStart). The Lane Receivers, the other lanes' relays, the Link Test
Units, the output timing and the DRAM stay. The model's choices: byte index, offered and bytes taken stay (log 24); a
RELAY_FAILED report carries command number 12 (log 25); a PURGE report of the job that starts comes after those
reports (log 35). -/
def Obligations.LaneDownReachesTheBlocks : Prop :=
  ∀ (n : Lane) (s : State),
    let t := s.deliverLaneDown n
    let before := s.lane n
    let after := t.lane n
    let kept := fun i : Fin 4 =>
      if before.store.slotOf .filling = some i ∨ before.store.slotOf .conditioning = some i then none
      else before.store.ring.get i
    let runs := (s.jobs.find? fun j => j.lane == n).any (·.run.isSome)
    let discarded := fun tr : Transfer => match tr.kind with
      | .write lane _ _ _ _ => lane == n
      | .read _ _ _ _ _ => runs
      | _ => false
    let fate := fun (k : RelayMessage) (phase taken replies : Nat) => (⟨.relayFailed, some (12, k.tag), .ok,
      byte1 n.val ++ [k.tag] ++ byte1 2 ++ byte1 phase ++ byte1 taken ++ byte1 replies⟩ : Notice)
    let reports := match before.relay.inFlight, before.relay.queue with
      | some phase, k :: rest =>
        fate k (match phase with | .sending => 1 | .awaitingReply => 2) before.relay.taken before.relay.reply.length
          :: rest.map fun k => fate k 0 0 0
      | _, queue => queue.map fun k => fate k 0 0 0
    let down : State := { s with
      arb := { s.arb with port := s.arb.port.map fun tr => { tr with live := tr.live && !discarded tr } }
      jobs := s.jobs.filter fun j => j.lane != n
      lanes := s.lanes.modify n fun l => { l with
        store := ⟨⟨kept 0, kept 1, kept 2, kept 3⟩, [], none, .closed⟩
        relay := after.relay, motion := after.motion, dust := after.dust } }
    t = (down.offerAll reports).startJobs
      ∧ ((∀ j ∈ down.jobs.head?, j.run.isSome = true) → t = down.offerAll reports)
      ∧ after.store.buffer = [] ∧ after.store.pendingCommit = none ∧ after.store.opening = .closed
      ∧ (∀ i, before.store.slotOf .filling = some i → after.store.ring.get i = none)
      ∧ (∀ i, before.store.slotOf .conditioning = some i → after.store.ring.get i = none)
      ∧ (∀ i h, before.store.ring.get i = some h → (h.role = .ready ∨ h.role = .showing) →
        after.store.ring.get i = some h)
      ∧ after.relay = { before.relay with
        queue := [], inFlight := none, progressDue := none, reply := [], abortOwed := 2
        sendToggle := true, acceptedToggle := false, candidate := none }
      ∧ (∀ j ∈ t.jobs, j.lane ≠ n)
      ∧ after.motion = { before.motion with
        jitterX := 0, jitterY := 0, referenceValid := false
        counters := { before.motion.counters with
          jobsAbandoned :=
            if (s.jobs.any fun j => j.lane == n) then min 4294967295 (before.motion.counters.jobsAbandoned + 1)
            else before.motion.counters.jobsAbandoned } }
      ∧ after.dust = { before.dust with gathering := none, closedSet := none, jobSet := none }
      ∧ after.rx = before.rx ∧ after.purge = before.purge
      ∧ (∀ k, k ≠ n → (t.lane k).rx.judged = (s.lane k).rx.judged ∧ (t.lane k).relay = (s.lane k).relay)
      ∧ (∀ k, (t.lane k).test = (s.lane k).test ∧ (t.lane k).staleAge = (s.lane k).staleAge)
      ∧ t.timing = s.timing ∧ t.tx = s.tx ∧ t.comp = s.comp ∧ t.tone = s.tone ∧ t.dram = s.dram
      ∧ t.chan.apartReports = s.chan.apartReports ∧ t.pending = s.pending ∧ t.now = s.now

/-- R56, R129, R70, R102, R5, R14 and R19: a lane release makes the READY and the SHOWING slot FREE, discards a fetch
of the lane on the port, and makes the lane's windows LOST in the frame being sent. A geometry change clears the
jitter state and the reference-valid flag and lays the tile table out anew for its geometry, with level and band 0.
The lock makes both exactly when the lane geometry changes, and reports it. -/
def Obligations.ReleaseAndGeometry : Prop :=
  (∀ (n : Lane) (s : State),
      let store := (s.lane n).store
      let t := s.storeRelease n
      (∀ i, (t.lane n).store.ring.get i = if store.slotOf .ready = some i ∨ store.slotOf .showing = some i then none
        else store.ring.get i)
      ∧ t = { s with
        lanes := s.lanes.modify n fun l => { l with store := { l.store with ring := (t.lane n).store.ring } }
        arb := { s.arb with port := s.arb.port.map fun tr => match tr.kind with
          | .fetch _ item => if item.lane = n then { tr with live := false } else tr
          | _ => tr }
        comp := { s.comp with plan := s.comp.plan.map fun p =>
          if p.record.lane = n then { p with content := .lost } else p } })
  ∧ (∀ (n : Lane) (g : Geometry) (s : State), s.engineGeometry n g = { s with
      lanes := s.lanes.modify n fun l => { l with
        motion := { l.motion with jitterX := 0, jitterY := 0, referenceValid := false }
        dust := { l.dust with
          table := List.replicate (g.w / 64 * (g.h / 32)) ⟨false, .clear, 0, 0, 0, 16, 0⟩, level := 0, band := 0 } } })
  ∧ (∀ (n : Lane) (g : Geometry) (s : State), (s.lane n).rx.acquisition = some g →
      let rx := (s.lane n).rx
      let u := { s with
        lanes := s.lanes.modify n fun l => { l with rx := { l.rx with
          state := .locked, cleanFrames := 0, lockedRun := 0, geometry := g
          counters := { l.rx.counters with locks := min 4294967295 (l.rx.counters.locks + 1) } } } }
      let v := if g = rx.geometry then u else (u.storeRelease n).engineGeometry n g
      s.lock n = v.offer ⟨.laneState, none, .ok, byte1 n.val ++ [2, 3, 3] ++ byte1 rx.health ++ byte1 rx.attempts⟩)

/-- R147 and R148: when the master lane has left LOCKED or NORMAL the master becomes none: the holdover period is
taken from the average, the holdover flag set unless the mode is FREE, average, offset mark and flywheel count
cleared, the timer started counting from the last output frame start, and one TIMING report with cause LANE_LEFT
offered. In BLANKING, with that timer's expiry passed, an output frame starts in the same event, and the report
carries the number that this start gives. Otherwise nothing changes. The model's choices: mode and free-run period are
those that SET_TIMING set last (log 19), an expiry on the tick of the loss has passed (log 20), the report carries
command number 0 also where a command's execution brings the loss (log 43), and it comes before those of the frame
that starts (log 35). -/
def Obligations.LosingTheMaster : Prop :=
  ∀ (n : Lane) (s : State),
    (s.timing.master ≠ some n ∨ ((s.lane n).rx.state = .locked ∧ (s.lane n).rx.mode = .normal) →
      s.checkMaster n = s)
    ∧ (s.timing.master = some n → ((s.lane n).rx.state ≠ .locked ∨ (s.lane n).rx.mode ≠ .normal) →
      let period := match s.timing.average with
        | some avg => clampNat 800000 2000000 (avg / 16)
        | none => usTicks s.timing.freeRun
      let wait := if s.timing.mode = .free then usTicks s.timing.freeRun else period
      let due := s.timing.lastStart + wait
      let lost := { s.timing with
        master := none, holdoverPeriod := some period, holdover := s.timing.mode != .free, average := none
        offsetMark := none, flywheel := 0, watch := some (.timer due) }
      let left := fun number : Nat => (⟨.timing, none, .ok, [fourByte n, 255, 2]
        ++ byte1 (match s.timing.mode with | .auto => 0 | .fixed _ => 1 | .free => 2)
        ++ byteBool (s.timing.mode != .free)
        ++ (if s.timing.mode = .free then [0xFF, 0xFF] else byte2 (period / 40)) ++ byte2 number⟩ : Notice)
      s.checkMaster n =
        if due ≤ s.now ∧ s.timing.phase = .blanking then
          ({ s with timing := lost }.offer (left
            (if s.timing.firstPending then s.timing.frameNumber else (s.timing.frameNumber + 1) % 65536))).startFrame none
        else { s with timing := lost }.offer (left s.timing.frameNumber))

/-- R145, R143, R144, R53, R54 and R125: an output frame start numbers the frame, takes the pending raster, begins
PICTURE at this moment, arms the flywheel deadline with a master and the timer without one, empties the read buffer
and discards a fetch on the port, moves each lane's READY slot to SHOWING and counts its stale age. The Lane
Receivers, relays, purges, test units, jobs and the DRAM stay. That the next start counts from the tick of the event
that takes this one is the model's choice (log 36). -/
def Obligations.FrameStartWork : Prop :=
  ∀ (dropped : Option Lane) (s : State),
    let t := s.startFrame dropped
    t.timing.frameNumber
        = (if s.timing.firstPending then s.timing.frameNumber else (s.timing.frameNumber + 1) % 65536)
      ∧ t.timing.firstPending = false ∧ t.timing.raster = s.timing.pendingRaster.getD s.timing.raster
      ∧ t.timing.pendingRaster = none ∧ t.timing.phase = .picture ∧ t.timing.lastStart = s.now
      ∧ t.timing.nextLine = 0 ∧ t.timing.syncInForce = s.timing.syncOffset
      ∧ t.timing.watch = some (match t.timing.master with
        | some _ => .deadline (s.now + max 800000 (match t.timing.average with
          | some avg => 9 * avg / 128
          | none => 9 * usTicks t.timing.freeRun / 8))
        | none => .timer (s.now + if t.timing.mode ≠ .free ∧ t.timing.holdover = true then
            t.timing.holdoverPeriod.getD (usTicks t.timing.freeRun) else usTicks t.timing.freeRun))
      ∧ t.readBuffer = ⟨.empty, .empty⟩ ∧ t.tx = { s.tx with video := .blanking }
      ∧ t.arb = { s.arb with port := s.arb.port.map fun tr =>
        match tr.kind with
        | .fetch _ _ => { tr with live := false }
        | _ => tr }
      ∧ (∀ n : Lane, t.lane n = { s.lane n with
        store := (match (s.lane n).store.slotOf .ready with
          | some i => ((s.lane n).store.freeRole .showing).move i .showing
          | none => (s.lane n).store)
        staleAge := if ((s.lane n).store.slotOf .ready).isSome then 0 else min 255 ((s.lane n).staleAge + 1) })
      ∧ t.jobs = s.jobs ∧ t.dram = s.dram ∧ t.chan.apartReports = s.chan.apartReports ∧ t.pending = s.pending
      ∧ t.now = s.now

/-- R144, R146, R148 and R153: the selection of the master at an output frame start: in AUTO the first lane of the
priority list that is LOCKED in NORMAL, in FIXED its lane when it is, in FREE none; a lane dropped by its third forced
start does not qualify. A master that is selected again keeps average and flywheel count, and its offset mark while
the sync offset stays as it is; a changed sync offset makes the offset mark none. A new master starts without them,
with the holdover flag clear. A master lost here leaves the holdover period, floor(avg/16) ticks in 800,000..2,000,000
or the free-run period without an average, and sets the holdover flag unless the mode is FREE; a start that finds no
master before or after it clears the flag in FREE. The holdover period is otherwise kept. With no raster pending, a
change, and only a change, offers one TIMING report. The model's choices: the settings are those that SET_TIMING set
last (log 19), and the cause SELECTED where a start loses a master that the mode still names, which no run reaches
(log 21), and the report's command number 0 where a command's execution brings the start (log 43). -/
def Obligations.MasterIsSelected : Prop :=
  ∀ (dropped : Option Lane) (s : State),
    let t := s.startFrame dropped
    let qualifies := fun n : Lane =>
      (s.lane n).rx.state == .locked && (s.lane n).rx.mode == .normal && dropped != some n
    t.timing.master = (match s.timing.mode with
      | .auto => s.timing.priority.toList.find? qualifies
      | .fixed n => if qualifies n then some n else none
      | .free => none)
      ∧ (t.timing.master ≠ s.timing.master → t.timing.average = none ∧ t.timing.offsetMark = none
        ∧ t.timing.flywheel = 0)
      ∧ (t.timing.master = s.timing.master → t.timing.average = s.timing.average
        ∧ t.timing.flywheel = s.timing.flywheel
        ∧ (s.timing.syncOffset = s.timing.syncInForce → t.timing.offsetMark = s.timing.offsetMark)
        ∧ (s.timing.syncOffset ≠ s.timing.syncInForce → t.timing.offsetMark = none))
      ∧ (t.timing.holdover, t.timing.holdoverPeriod) = (match s.timing.master, t.timing.master with
        | some p, some n => if p = n then (s.timing.holdover, s.timing.holdoverPeriod) else (false, s.timing.holdoverPeriod)
        | none, some _ => (false, s.timing.holdoverPeriod)
        | some _, none => (s.timing.mode != .free, some (match s.timing.average with
          | some avg => clampNat 800000 2000000 (avg / 16)
          | none => usTicks s.timing.freeRun))
        | none, none => (s.timing.holdover && s.timing.mode != .free, s.timing.holdoverPeriod))
      ∧ (s.timing.pendingRaster = none →
        let cause : Nat := match s.timing.master with
          | none => 0
          | some p =>
            if dropped = some p then 1
            else match s.timing.mode with
              | .auto => 0
              | .fixed n => if n = p then 0 else 3
              | .free => 3
        t.chan = if t.timing.master = s.timing.master then s.chan
          else (s.offer ⟨.timing, none, .ok,
            [(s.timing.master.map fourByte).getD 255, (t.timing.master.map fourByte).getD 255] ++ byte1 cause
              ++ byte1 (match s.timing.mode with | .auto => 0 | .fixed _ => 1 | .free => 2)
              ++ byteBool t.timing.holdover
              ++ (match t.timing.holdover, t.timing.holdoverPeriod with
                | true, some k => byte2 (k / 40)
                | _, _ => [0xFF, 0xFF])
              ++ byte2 t.timing.frameNumber⟩).chan)

/-- R149, R120, R121, R122 and R103: at an output frame start a raster that changes disables, in both images of every
page, each enabled window whose destination leaves the new raster, keeping its other fields; one WINDOW_DISABLED
report lists them by page, and none is made when there are none. Then a commit requested brings every pending image of
pages, marks and tone tables into force and is withdrawn; two equal samples of REVERSE debounce it; in ACTIVE the
layout is page 3 in reverse and the selected page otherwise, in STARTUP and LIMP the fallback. The model's choices:
the WINDOW_DISABLED report comes before the TIMING report of the same event (log 35), and both carry command number 0
where a command's execution brings the start (log 43). -/
def Obligations.LayoutAtFrameStart : Prop :=
  ∀ (dropped : Option Lane) (s : State),
    let t := s.startFrame dropped
    let reverse := if s.reverse = s.comp.lastReverse then s.reverse else s.comp.debouncedReverse
    let raster := s.timing.pendingRaster.getD s.timing.raster
    let size : Nat × Nat := match raster with
      | .r1280x800 => (1280, 800)
      | .r1024x600 => (1024, 600)
      | .r800x480 => (800, 480)
    let leaves := fun r : WindowRecord => size.1 < r.x + r.w ∨ size.2 < r.y + r.h
    let kept := fun p : Page =>
      if raster = s.timing.raster then p else p.map fun r => if leaves r then { r with enabled := false } else r
    let gone := fun p : Page => [0, 1, 2, 3, 4, 5].filter fun w => (pageWindow p w).enabled && leaves (pageWindow p w)
    let listed := fun l : List Nat => byte1 l.length ++ l.flatMap byte1
    let pages : List (Fin 4) := [0, 1, 2, 3]
    let first :=
      if raster ≠ s.timing.raster
          ∧ ∃ p ∈ pages, gone (s.comp.pagesActive.get p) ≠ [] ∨ gone (s.comp.pagesPending.get p) ≠ [] then
        s.offer ⟨.windowDisabled, none, .ok, pages.flatMap fun p =>
          listed (gone (s.comp.pagesActive.get p)) ++ listed (gone (s.comp.pagesPending.get p))⟩
      else s
    t.timing.raster = raster
      ∧ t.comp = { s.comp with
        pagesPending := s.comp.pagesPending.map kept
        pagesActive := (if s.comp.commitRequested then s.comp.pagesPending else s.comp.pagesActive).map kept
        marksActive := if s.comp.commitRequested then s.comp.marksPending else s.comp.marksActive
        commitRequested := false, lastReverse := s.reverse, debouncedReverse := reverse
        shownPage := (match s.chan.supervision with
          | .active => if reverse then .page 3 else .page s.comp.selectedPage
          | _ => .fallback)
        plan := t.comp.plan }
      ∧ t.tone = { s.tone with active := if s.comp.commitRequested then s.tone.pending else s.tone.active }
      ∧ (t.timing.master = s.timing.master → t.chan = first.chan)
      ∧ (t.timing.master ≠ s.timing.master → ∃ data, t.chan = (first.offer ⟨.timing, none, .ok, data⟩).chan)
      ∧ (t.comp.shownPage = .fallback → t.comp.plan.map (·.window) = [0])
      ∧ (∀ p, t.comp.shownPage = .page p →
        t.comp.plan.map (·.window) = [0, 1, 2, 3, 4, 5].filter fun w => (pageWindow (t.comp.pagesActive.get p) w).enabled)

/-- R122, R123, R124, R126, R131 and R53: the frame plan of an output frame start has the enabled windows of the shown
page in ascending number, or in the fallback layout one window of lane 0, centred in the raster or cropped to it on
each axis. A window is LOST when its lane has no SHOWING slot, when the stale age is above the hold limit, or when its
source size exceeds the frame; STALE when the lane is not LOCKED; else NORMAL. The crop of a window that is not LOST
is its crop origin moved by the frame's correction when stabilize is on, clamped inside the frame, x rounded down to
even; its marks are shifted against the correction when they are anchored to the camera; its gains, band and means are
those of this start. -/
def Obligations.FramePlanIsMade : Prop :=
  ∀ (dropped : Option Lane) (s : State),
    let t := s.startFrame dropped
    let raster : Nat × Nat := match t.timing.raster with
      | .r1280x800 => (1280, 800)
      | .r1024x600 => (1024, 600)
      | .r800x480 => (800, 480)
    let g := (s.lane 0).rx.geometry
    let axis := fun size full : Nat => if full ≤ size then (0, full, (size - full) / 2) else ((full - size) / 2, size, 0)
    let fallback : WindowRecord := {
      enabled := true, lane := 0, x := (axis g.w raster.1).1, y := (axis g.h raster.2).1
      w := (axis g.w raster.1).2.1, h := (axis g.h raster.2).2.1, cx := (axis g.w raster.1).2.2 / 2 * 2
      cy := (axis g.h raster.2).2.2, scale := .one, stabilize := true, markSet := none, anchoring := .view }
    (t.comp.plan.map fun p => (p.window, p.record)) = (match t.comp.shownPage with
      | .fallback => [(0, fallback)]
      | .page n => ([0, 1, 2, 3, 4, 5].map fun w => (w, pageWindow (t.comp.pagesActive.get n) w)).filter (·.2.enabled))
    ∧ (∀ p ∈ t.comp.plan,
      let l := t.lane p.record.lane
      let size := match p.record.scale with
        | .one => (p.record.w, p.record.h)
        | .down => (2 * p.record.w, 2 * p.record.h)
        | .up => (p.record.w / 2, p.record.h / 2)
      let showing := ([0, 1, 2, 3] : List (Fin 4)).find? fun i => (l.store.ring.get i).any fun h => h.role == .showing
      (showing = none → p.content = .lost)
      ∧ (∀ i h, showing = some i → l.store.ring.get i = some h →
        p.content = (if s.comp.holdLimit < l.staleAge ∨ h.record.geometry.w < size.1 ∨ h.record.geometry.h < size.2
            then .lost
          else if l.rx.state = .locked then .normal
          else .stale)
        ∧ (∀ c, h.record.conditioned = some c → p.content ≠ .lost →
          let moved := fun (origin : Nat) (by_ : Int) (limit : Nat) =>
            (max 0 (min (limit : Int) (origin + if p.record.stabilize then by_ else 0))).toNat
          let shift := if p.record.stabilize = true ∧ p.record.anchoring = .camera then
              (match p.record.scale with
                | .one => (-c.corrX, -c.corrY)
                | .down => ((-c.corrX).tdiv 2, (-c.corrY).tdiv 2)
                | .up => (-2 * c.corrX, -2 * c.corrY))
            else (0, 0)
          (p.sw, p.sh) = size ∧ (p.shiftX, p.shiftY) = shift
            ∧ p.ox = moved p.record.cx c.corrX (h.record.geometry.w - size.1) / 2 * 2
            ∧ p.oy = moved p.record.cy c.corrY (h.record.geometry.h - size.2)
            ∧ p.view = some ⟨i, h.record.geometry, h.record.damaged, c.gains, c.band, l.dust.table.map (·.lastMean)⟩)))

/-! ### Supervision commands and reads -/

/-- R159 to R161, R164, R165 and R167 to R169: FAULT is asserted exactly in LIMP and while a lane is in LOCKED_OUT:
RESUME leaves it to the lanes, the expiry of the heartbeat timer asserts it, CLEAR_FLAGS never moves it. HEARTBEAT
replies with supervision state and period. RESUME replies with the state before it and makes it ACTIVE; an entry to
ACTIVE starts the heartbeat timer unless the period is 0. SET_SUPERVISION clamps the period to 100..5000, 0 meaning
off: with 0 the timer stops; otherwise a running timer keeps its expiry, and a stopped one starts in ACTIVE alone. The
expiry of the timer makes supervision LIMP, counts a loss, raises HEARTBEAT_LOST and offers a report. CLEAR_FLAGS
clears, with its mark, each flag that is named and marked reported, and leaves every other flag and mark; bits 17 to
23 name none; the reply carries the flags then set and those named that are still set. READ_COUNTERS carries the
device counters, the reset cause, count and tag, the supervision state and period, the depth of the command queue
after its message has left and HOLD as it then stands (for HOLD the model's choice, log 25), and each lane's purge
counters; with clear on, those counters are then 0. -/
def Obligations.SupervisionCompletes : Prop :=
  (∀ s : State, s.faultLine = true ↔ s.chan.supervision = .limp ∨ ∃ n, (s.lane n).rx.state = .lockedOut)
  ∧ (∀ (m : Moment) (s : State) (c : CmdMessage), c.payload = [] →
      (s.ReadyFor 1 c → exec (.heartbeat m) s =
        .next (s.replied m (c.reply .ok (byte1 s.chan.supervision.code ++ byte2 s.chan.heartbeatPeriod))))
      ∧ (s.ReadyFor 2 c →
        let r := s.replied m (c.reply .ok (byte1 s.chan.supervision.code))
        let t : State := { r with chan := { r.chan with
          supervision := .active
          heartbeatDue :=
            if s.chan.supervision = .active ∨ s.chan.heartbeatPeriod = 0 then s.chan.heartbeatDue
            else some (max s.now m.tick + msTicks s.chan.heartbeatPeriod) } }
        exec (.resume m) s = .next t ∧ (t.faultLine = true ↔ ∃ n, (s.lane n).rx.state = .lockedOut)))
  ∧ (∀ (m : Moment) (s : State) (c : CmdMessage) (hi lo : Byte), s.ReadyFor 4 c → c.payload = [hi, lo] →
      let period := if wordOf hi lo = 0 then 0 else clampNat 100 5000 (wordOf hi lo)
      let r := s.replied m (c.reply (if period = wordOf hi lo then .ok else .clamped) (byte2 period))
      exec (.setSupervision m) s = .next { r with chan := { r.chan with
        heartbeatPeriod := period
        heartbeatDue :=
          if period = 0 then none
          else match s.chan.heartbeatDue, s.chan.supervision with
            | some due, _ => some due
            | none, .active => some (max s.now m.tick + msTicks period)
            | none, _ => none } })
  ∧ (∀ (m : Moment) (s : State) (due : Nat), s.resetAsserted = false → s.chan.supervision = .active →
      s.chan.heartbeatDue = some due → due ≤ max s.now m.tick →
      let losses := min 4294967295 (s.chan.counters.heartbeatLosses + 1)
      let t : State := { s.advance m with chan := { s.chan with
        supervision := .limp, heartbeatDue := none
        counters := { s.chan.counters with heartbeatLosses := losses }
        flags := s.chan.flags ||| 0x010000, reported := s.chan.reported &&& 0xFEFFFF } }.offer
          ⟨.supervision, none, .ok, [1, 2] ++ byte2 s.chan.heartbeatPeriod ++ byte4 losses⟩
      exec (.heartbeatTimerExpiry m) s = .next t ∧ t.faultLine = true)
  ∧ (∀ (m : Moment) (s : State) (c : CmdMessage) (a b d : Byte), s.ReadyFor 5 c → c.payload = [a, b, d] →
      let named := BitVec.ofNat 24 (65536 * a.toNat + wordOf b d) &&& 0x1FFFF#24
      let flags := s.chan.flags &&& ~~~(named &&& s.chan.reported)
      let r := s.replied m (c.reply .ok (byte3 flags.toNat ++ byte3 (named &&& flags).toNat))
      let t : State := { r with chan := { r.chan with
        flags := flags, reported := s.chan.reported &&& ~~~(named &&& s.chan.reported) } }
      exec (.clearFlags m) s = .next t ∧ t.faultLine = s.faultLine)
  ∧ (∀ (m : Moment) (s : State) (c : CmdMessage) (clear : Bool), s.ReadyFor 6 c → c.payload = [boolByte clear] →
      let depth := s.chan.queue.length - 1
      let r := s.replied m (c.reply .ok (s.chan.counters.bytes ++ byte1 s.chan.resetCause.code
        ++ byte2 s.chan.restartCount ++ optByte1 (s.chan.restartTag.map (·.toNat)) ++ byte1 s.chan.supervision.code
        ++ byte2 s.chan.heartbeatPeriod ++ byte1 depth ++ byteBool (s.chan.hold && depth != 4)
        ++ s.lanes.toList.flatMap fun l =>
          byte4 l.purge.autoPurges ++ byte4 l.purge.manualPurges ++ byte4 l.purge.halts))
      exec (.readCounters m) s = .next
        (if clear then { r with
          chan := { r.chan with counters := ⟨0, 0, 0, 0, 0, 0⟩ }
          lanes := s.lanes.map fun l =>
            { l with purge := { l.purge with autoPurges := 0, manualPurges := 0, halts := 0 } } }
         else r))

/-- R26, R82, R85, R107, R178 and R183: READ_LANE carries the lane's state, settings and counters, and with clear on
sets the counters to 0. TEST_READ carries mode, pattern, checker state, inverted flag and error count, and sets the
error count to 0. READ_MOTION carries the section named: CONTEXT the settings, the anchor count, the jitter state, the
reference-valid flag, the job's status and frame number, whether there is a summary and its fields, and the motion
counters; the anchor sections six entries of the table and six outcomes of the summary from index 0 or 6 on, each list
after its count; what is absent is sent as 0. With clear on, which goes with CONTEXT alone, the motion counters are
then 0; a clear with another section is refused. READ_DUST_MAP carries one tile row of the table and changes nothing;
a row outside the table is refused. That READ_LANE sends an acquisition geometry of none as all ones in both its
fields is the model's choice (log 26). -/
def Obligations.ReadsComplete : Prop :=
  (∀ (m : Moment) (s : State) (c : CmdMessage) (n : Lane) (clear : Bool),
      let l := s.lane n
      (s.ReadyFor 11 c → c.payload = [fourByte n, boolByte clear] →
        let r := s.replied m (c.reply .ok (byte1 l.rx.state.code ++ byte1 l.rx.mode.code ++ byte1 l.rx.geometryMode.code
          ++ byte2 l.rx.configured.w ++ byte2 l.rx.configured.h ++ byte2 l.rx.geometry.w ++ byte2 l.rx.geometry.h
          ++ (match l.rx.acquisition with
            | some g => byte2 g.w ++ byte2 g.h
            | none => [0xFF, 0xFF, 0xFF, 0xFF])
          ++ byte1 l.rx.health ++ byte1 l.rx.attempts ++ optByte4 l.rx.average ++ byte1 l.rx.periods
          ++ byte2 l.rx.silenceTimeout ++ byte2 l.rx.recoveryDelay ++ byte1 l.rx.dmax ++ l.rx.counters.bytes))
        exec (.readLane m) s = .next
          (if clear then { r with lanes := s.lanes.modify n fun l => { l with rx := { l.rx with
            counters := ⟨0, 0, 0, 0, 0, 0, 0, 0, 0, 0, 0, 0, 0, 0, 0, 0, 0⟩ } } }
           else r))
      ∧ (s.ReadyFor 35 c → c.payload = [fourByte n] →
        let r := s.replied m (c.reply .ok (byte1 l.rx.mode.code ++ byte1 l.test.pattern.code ++ byte1 l.test.checker.code
          ++ byteBool l.test.inverted ++ byte2 l.test.errorCount))
        exec (.testRead m) s = .next { r with
          lanes := s.lanes.modify n fun l => { l with test := { l.test with errorCount := 0 } } }))
  ∧ (∀ (m : Moment) (s : State) (c : CmdMessage) (n : Lane),
      let k := (s.lane n).motion
      let g := k.settings
      let settings := byteBool g.enabled ++ byte1 g.sx ++ byte1 g.sy ++ byte1 g.nmin ++ byte2 g.sadCeiling
        ++ byte2 g.contrastFloor ++ byte1 g.factor ++ byte1 g.jmax ++ byte1 g.mx ++ byte1 g.my
      let job := match s.jobs.find? fun j => j.lane == n with
        | none => [0, 0]
        | some j => (if j.run.isSome then [2] else [1]) ++ byte1 j.number
      let summary := match k.summary with
        | none => List.replicate 15 0
        | some u => [1] ++ byte1 u.number ++ byteBool u.frozen ++ byteBool u.referenceUsed ++ byteBool u.stabilizerEnabled
          ++ (match u.result with | .valid => [0] | .void => [1]) ++ byte1 u.accepted ++ signed1 u.shiftX ++ signed1 u.shiftY
          ++ signed2 u.jitterX ++ signed2 u.jitterY ++ signed1 u.corrX ++ signed1 u.corrY
      let context := settings ++ byte1 k.anchors.length ++ signed2 k.jitterX ++ signed2 k.jitterY
        ++ byteBool k.referenceValid ++ job ++ summary ++ byte4 k.counters.jobsCompleted ++ byte4 k.counters.validResults
        ++ byte4 k.counters.voidResults ++ byte4 k.counters.frozenJobs ++ byte4 k.counters.jobsAbandoned
      let six := fun first : Nat =>
        let loaded := (k.anchors.drop first).take 6
        let found := ((k.summary.elim [] (·.anchors)).drop first).take 6
        byte1 loaded.length ++ (loaded.flatMap fun a => byte1 a.col ++ byte1 a.row ++ byteBool a.enabled)
          ++ byte1 found.length ++ found.flatMap fun a => byte1 a.col ++ byte1 a.row
            ++ byte1 (match a.outcome with
              | .accepted => 0 | .disabled => 1 | .outside => 2 | .notClear => 3 | .damaged => 4 | .lowContrast => 5
              | .highSad => 6 | .notEvaluated => 7)
            ++ (match a.measure with
              | some x => signed1 x.dx ++ signed1 x.dy ++ byte2 x.sad ++ byte2 x.contrast
              | none => [0, 0, 0, 0, 0, 0])
      (∀ clear : Bool, s.ReadyFor 18 c → c.payload = [fourByte n, 0, boolByte clear] →
        let r := s.replied m (c.reply .ok context)
        exec (.readMotion m) s = .next
          (if clear then { r with
            lanes := s.lanes.modify n fun l => { l with motion := { l.motion with counters := ⟨0, 0, 0, 0, 0⟩ } } }
           else r))
      ∧ (s.ReadyFor 18 c → c.payload = [fourByte n, 1, 0] →
        exec (.readMotion m) s = .next (s.replied m (c.reply .ok (six 0))))
      ∧ (s.ReadyFor 18 c → c.payload = [fourByte n, 2, 0] →
        exec (.readMotion m) s = .next (s.replied m (c.reply .ok (six 6))))
      ∧ (∀ part : Byte, s.ReadyFor 18 c → c.payload = [fourByte n, part, 1] → part ≠ 0 →
        exec (.readMotion m) s = .next (s.replied m (c.reply .badArg [])))
      ∧ (∀ row : Byte, s.ReadyFor 21 c → c.payload = [fourByte n, row] →
        let g := (s.lane n).rx.geometry
        let tiles := ((s.lane n).dust.table.drop (row.toNat * (g.w / 64))).take (g.w / 64)
        exec (.readDustMap m) s = .next (s.replied m (
          if row.toNat < g.h / 32 then
            c.reply .ok (byte1 (g.w / 64) ++ byte1 (g.h / 32) ++ [row] ++ byte2 (s.lane n).dust.level
              ++ byte1 (s.lane n).dust.band ++ byte1 tiles.length
              ++ tiles.flatMap fun t => byte1 t.condition ++ byte1 t.age)
          else c.reply .badArg []))))

/-! ### Settings and tables -/

/-- R23, R39, R62, R84, R105, R115, R152 and R153: the commands that set numbers. SET_LANE_LIMITS, SET_RELAY,
SET_REFRESH, SET_STABILIZER, SET_DUST and SET_PURGE take their numbers, clamped, and reply CLAMPED exactly when a
clamp changed one; SET_DUST is refused, and writes nothing, when B1 < B2 < B3 fails; a blow or rest in progress keeps
its timer. SET_RASTER makes another raster the pending raster, and the raster in force withdraws what was pending; the
reply carries both, none coded 255; a code outside the list is refused. SET_TIMING takes the mode, the priority list,
the sync offset clamped to 0..63 and the free-run period clamped to 20000..50000; a list that names a lane twice is
refused and writes nothing; the lane byte is read in FIXED alone. That its settings take their values at once is the
model's choice (log 19). -/
def Obligations.SettingsComplete : Prop :=
  (∀ (m : Moment) (s : State) (c : CmdMessage) (n : Lane) (a b d e f : Byte),
     (s.ReadyFor 8 c → c.payload = [fourByte n, a, b, d, e, f] →
       let silence := clampNat 10 1000 (wordOf a b)
       let recovery := clampNat 100 10000 (wordOf d e)
       let dmax := clampNat 0 32 f.toNat
       let same := silence = wordOf a b ∧ recovery = wordOf d e ∧ dmax = f.toNat
       exec (.setLaneLimits m) s = .next { s.replied m (c.reply (if same then .ok else .clamped) []) with
         lanes := s.lanes.modify n fun l => { l with rx := { l.rx with
           silenceTimeout := silence, recoveryDelay := recovery, dmax := dmax } } })
     ∧ (∀ look : Bool, s.ReadyFor 13 c → c.payload = [fourByte n, boolByte look, a, b] →
       let timeout := clampNat 10 500 (wordOf a b)
       exec (.setRelay m) s = .next { s.replied m (c.reply (if timeout = wordOf a b then .ok else .clamped) []) with
         lanes := s.lanes.modify n fun l => { l with relay := { l.relay with
           doubleLook := look, timeout := timeout } } })
     ∧ (s.ReadyFor 15 c → c.payload = [a, b] →
       let interval := clampNat 40 1248 (wordOf a b)
       let r := s.replied m (c.reply (if interval = wordOf a b then .ok else .clamped) (byte2 interval))
       exec (.setRefresh m) s = .next { r with arb := { s.arb with interval := interval } }))
  ∧ ((∀ (m : Moment) (s : State) (c : CmdMessage) (n : Lane) (on : Bool) (sx sy nmin s1 s0 f1 f0 a j mx my : Byte),
         s.ReadyFor 17 c → c.payload = [fourByte n, boolByte on, sx, sy, nmin, s1, s0, f1, f0, a, j, mx, my] →
         let given : Stabilizer :=
           ⟨on, sx.toNat, sy.toNat, nmin.toNat, wordOf s1 s0, wordOf f1 f0, a.toNat, j.toNat, mx.toNat, my.toNat⟩
         let taken : Stabilizer :=
           ⟨on, clampNat 0 16 sx.toNat, clampNat 0 8 sy.toNat, clampNat 1 12 nmin.toNat, clampNat 0 65280 (wordOf s1 s0),
             clampNat 0 61200 (wordOf f1 f0), clampNat 1 64 a.toNat, clampNat 1 64 j.toNat, clampNat 0 64 mx.toNat,
             clampNat 0 32 my.toNat⟩
         exec (.setStabilizer m) s = .next { s.replied m (c.reply (if taken = given then .ok else .clamped) []) with
           lanes := s.lanes.modify n fun l => { l with motion := { l.motion with settings := taken } } })
     ∧ (∀ (m : Moment) (s : State) (c : CmdMessage) (n : Lane) (trise kdrop gmax h1 l1 h2 l2 h3 l3 : Byte),
         s.ReadyFor 19 c → c.payload = [fourByte n, trise, kdrop, gmax, h1, l1, h2, l2, h3, l3] →
         let given : DustSettings := ⟨trise.toNat, kdrop.toNat, gmax.toNat, wordOf h1 l1, wordOf h2 l2, wordOf h3 l3⟩
         let taken : DustSettings :=
           ⟨trise.toNat, clampNat 1 14 kdrop.toNat, clampNat 16 64 gmax.toNat, clampNat 1 256 (wordOf h1 l1),
             clampNat 1 256 (wordOf h2 l2), clampNat 1 256 (wordOf h3 l3)⟩
         exec (.setDust m) s = .next
           (if taken.b1 < taken.b2 ∧ taken.b2 < taken.b3 then
             { s.replied m (c.reply (if taken = given then .ok else .clamped) []) with
               lanes := s.lanes.modify n fun l => { l with dust := { l.dust with settings := taken } } }
            else s.replied m (c.reply .badArg [])))
     ∧ (∀ (m : Moment) (s : State) (c : CmdMessage) (n : Lane) (p1 p0 c1 c0 a n1 n0 k : Byte) (auto : Bool),
         s.ReadyFor 22 c → c.payload = [fourByte n, p1, p0, c1, c0, a, n1, n0, k, boolByte auto] →
         let given : PurgeSettings := ⟨wordOf p1 p0, wordOf c1 c0, a.toNat, wordOf n1 n0, k.toNat, auto⟩
         let taken : PurgeSettings :=
           ⟨clampNat 50 2000 (wordOf p1 p0), clampNat 1 600 (wordOf c1 c0), clampNat 10 255 a.toNat,
             clampNat 1 500 (wordOf n1 n0), clampNat 1 8 k.toNat, auto⟩
         exec (.setPurge m) s = .next { s.replied m (c.reply (if taken = given then .ok else .clamped) []) with
           lanes := s.lanes.modify n fun l => { l with purge := { l.purge with settings := taken } } }))
  ∧ ((∀ (m : Moment) (s : State) (c : CmdMessage),
         (∀ k : Raster, s.ReadyFor 31 c → c.payload = [BitVec.ofNat 8 k.code] →
           let waits := if k = s.timing.raster then none else some k
           exec (.setRaster m) s =
             .next { s.replied m (c.reply .ok (byte1 s.timing.raster.code ++ optByte1 (waits.map Raster.code))) with
               timing := { s.timing with pendingRaster := waits } })
         ∧ (∀ b : Byte, s.ReadyFor 31 c → c.payload = [b] → 3 ≤ b.toNat →
           exec (.setRaster m) s = .next (s.replied m (c.reply .badArg []))))
     ∧ (∀ (m : Moment) (s : State) (c : CmdMessage) (mode : TimingMode) (lane : Byte) (p : Four Lane) (sync hi lo : Byte),
         s.ReadyFor 32 c →
         c.payload = [BitVec.ofNat 8 mode.code, lane, fourByte p.e0, fourByte p.e1, fourByte p.e2, fourByte p.e3, sync, hi,
           lo] →
         (∀ n, mode = .fixed n → lane = fourByte n) →
         let offset := clampNat 0 63 sync.toNat
         let freeRun := clampNat 20000 50000 (wordOf hi lo)
         let same := offset = sync.toNat ∧ freeRun = wordOf hi lo
         exec (.setTiming m) s = .next
           (if p.toList.Nodup then
             { s.replied m (c.reply (if same then .ok else .clamped) []) with
               timing := { s.timing with mode := mode, priority := p, syncOffset := offset, freeRun := freeRun } }
            else s.replied m (c.reply .badArg []))))

/-- R83, R106, R119, R134 and R135 to R137: LOAD_ANCHORS with up to 12 entries, each inside 20 columns and 25 rows and
no two on the same tile, replaces the lane's anchor table by them in payload order. LOAD_TONE writes 64 entries of one
pending tone table from entry 0, 64, 128 or 192 on; the active tables and the other entries stay. LOAD_MARKS replaces
a pending mark set by its palette and up to 8 marks in payload order, each size clamped to 1..2048, and replies
CLAMPED exactly when a size was clamped. COMMIT_TABLES requests the swap, SELECT_PAGE sets the selected page (a page
above 3 is refused), and SET_SUBSTITUTE sets the hold limit, clamped to 0..255. -/
def Obligations.TablesComplete : Prop :=
  ((∀ (m : Moment) (s : State) (c : CmdMessage) (n : Lane) (anchors : List Anchor),
       s.ReadyFor 16 c → c.payload = fourByte n :: BitVec.ofNat 8 anchors.length :: anchors.flatMap Anchor.bytes →
       anchors.length ≤ 12 → (∀ a ∈ anchors, a.col ≤ 19 ∧ a.row ≤ 24) → (anchors.map fun a => (a.col, a.row)).Nodup →
       exec (.loadAnchors m) s = .next { s.replied m (c.reply .ok []) with
         lanes := s.lanes.modify n fun l => { l with motion := { l.motion with anchors := anchors } } })
   ∧ (∀ (m : Moment) (s : State) (c : CmdMessage) (b : Fin 4) (start : Nat) (entries : List Byte),
       s.ReadyFor 20 c → c.payload = fourByte b :: BitVec.ofNat 8 start :: entries → entries.length = 64 →
       (start = 0 ∨ start = 64 ∨ start = 128 ∨ start = 192) →
       exec (.loadTone m) s = .next { s.replied m (c.reply .ok []) with
         tone := { s.tone with
           pending := s.tone.pending.modify b fun table =>
             table.take start ++ entries ++ table.drop (start + 64) } }))
  ∧ (∀ (m : Moment) (s : State) (c : CmdMessage) (set : Fin 4) (palette : Four Colour) (marks : List Mark),
       s.ReadyFor 27 c →
       c.payload = fourByte set :: palettePayload palette ++ [BitVec.ofNat 8 marks.length] ++ marks.flatMap Mark.payload →
       marks.length ≤ 8 →
       (∀ k ∈ marks, -2048 ≤ k.x ∧ k.x ≤ 2047 ∧ -2048 ≤ k.y ∧ k.y ≤ 2047 ∧ k.w < 4096 ∧ k.h < 4096) →
       let taken := marks.map fun k => { k with w := clampNat 1 2048 k.w, h := clampNat 1 2048 k.h }
       exec (.loadMarks m) s = .next { s.replied m (c.reply (if taken = marks then .ok else .clamped) []) with
         comp := { s.comp with marksPending := s.comp.marksPending.set set ⟨palette, taken⟩ } })
  ∧ (∀ (m : Moment) (s : State) (c : CmdMessage) (a b : Byte),
       (s.ReadyFor 28 c → c.payload = [] → exec (.commitTables m) s =
         .next { s.replied m (c.reply .ok []) with comp := { s.comp with commitRequested := true } })
       ∧ (s.ReadyFor 29 c → c.payload = [a] → exec (.selectPage m) s = .next
         (if h : a.toNat < 4 then
           { s.replied m (c.reply .ok []) with comp := { s.comp with selectedPage := ⟨a.toNat, h⟩ } }
          else s.replied m (c.reply .badArg [])))
       ∧ (s.ReadyFor 30 c → c.payload = [a, b] →
         let limit := clampNat 0 255 (wordOf a b)
         exec (.setSubstitute m) s =
           .next { s.replied m (c.reply (if limit = wordOf a b then .ok else .clamped) []) with
             comp := { s.comp with holdLimit := limit } }))

/-- R132, R133, R119 and R182: LOAD_WINDOW writes the pending record of a window that passes the structural tests
against the raster in force and the lane's geometry, its crop origin clamped to the lane's frame and cx then rounded
down to even; a record that fails a test is refused and writes nothing. CLEAR_WINDOW turns the pending record's
enabled field off and keeps its other fields; a page above 3 or a window above 5 is refused. The window is not drawn
after the next swap. That x, y, w, h, cx and cy are unsigned, so that a crop origin of 32,768 or more is clamped to
the largest, is the model's choice (log 33). -/
def Obligations.WindowCommandsComplete : Prop :=
  (∀ (m : Moment) (s : State) (c : CmdMessage) (page : Fin 4) (w : Nat) (q : WindowRecord),
      s.ReadyFor 25 c → c.payload = q.payload page w → w ≤ 5 → q.enabled = true →
      q.x < 65536 → q.y < 65536 → q.w < 65536 → q.h < 65536 → q.cx < 65536 → q.cy < 65536 →
      let g := (s.lane q.lane).rx.geometry
      let size : Nat × Nat := match q.scale with
        | .one => (q.w, q.h)
        | .down => (2 * q.w, 2 * q.h)
        | .up => (q.w / 2, q.h / 2)
      let fit := 2 ≤ q.w ∧ 2 ≤ q.h ∧ q.x + q.w ≤ s.timing.raster.width ∧ q.y + q.h ≤ s.timing.raster.height
        ∧ (q.scale = .up → q.w % 2 = 0 ∧ q.h % 2 = 0) ∧ size.1 ≤ g.w ∧ size.2 ≤ g.h
      let taken := { q with cx := evenDown (clampNat 0 (g.w - size.1) q.cx), cy := clampNat 0 (g.h - size.2) q.cy }
      exec (.loadWindow m) s = .next
        (if fit then
          { s.replied m (c.reply (if taken = q then .ok else .clamped) []) with
            comp := { s.comp with pagesPending := s.comp.pagesPending.modify page fun p => p.set w taken } }
         else s.replied m (c.reply .badArg [])))
  ∧ (∀ (m : Moment) (s : State) (c : CmdMessage) (p w : Byte), s.ReadyFor 26 c → c.payload = [p, w] →
      exec (.clearWindow m) s = .next
        (if h : p.toNat < 4 ∧ w.toNat ≤ 5 then
          { s.replied m (c.reply .ok []) with
            comp := { s.comp with
              pagesPending := s.comp.pagesPending.modify ⟨p.toNat, h.1⟩ fun page =>
                page.modify w.toNat fun r => { r with enabled := false } } }
         else s.replied m (c.reply .badArg []))
      ∧ (∀ (h : p.toNat < 4) (u : State) (dropped : Option Lane), w.toNat ≤ 5 → exec (.clearWindow m) s = .next u →
        let v := { u with comp := { u.comp with commitRequested := true } }.startFrame dropped
        v.comp.shownPage = .page ⟨p.toNat, h⟩ → ∀ e ∈ v.comp.plan, e.window ≠ w.toNat))

/-- R83, R106, R134, R153, R157 and R182: a command whose payload length is none that R182 gives it is refused with
BAD_LENGTH, a command of a lane that names a lane above 3 with BAD_ARG, and a message whose number is none of 1 to 35
is answered with UNKNOWN. With BAD_ARG is refused any on/off value above 1 and any code outside its list, each at its
place in the payload; more than 12 anchors, an anchor outside 20 columns and 25 rows, and two on one tile; a start
entry of LOAD_TONE other than 0, 64, 128 and 192; a mark set of LOAD_WINDOW that is neither 0 to 3 nor none; a mark
with a colour above 3 or an unknown mode; and the fixed lane above 3 in FIXED. Each does nothing else but leave the
queue. -/
def Obligations.WrongCommandsAreRefused : Prop :=
  (∀ (i : Instr) (k : Nat) (s : State) (c : CmdMessage),
      i.commandNumber = some k → s.ReadyFor k c → lengthAllowed k c.payload = false →
      exec i s = .next (s.replied i.moment (c.reply .badLength [])))
  ∧ (∀ (i : Instr) (k : Nat) (s : State) (c : CmdMessage),
      i.commandNumber = some k → takesLane k = true → s.ReadyFor k c → lengthAllowed k c.payload = true →
      4 ≤ (c.payload.getD 0 0).toNat →
      exec i s = .next (s.replied i.moment (c.reply .badArg [])))
  ∧ (∀ (i : Instr) (k : Nat) (s : State) (c : CmdMessage),
      i.commandNumber = some k → s.ReadyFor k c → lengthAllowed k c.payload = true →
      let at_ := fun offset : Nat => (c.payload.getD offset 0).toNat
      let codes : List (Nat × Nat × Nat) :=
        [(6, 0, 2), (7, 1, 2), (7, 2, 2), (11, 1, 2), (13, 1, 2), (17, 1, 2), (18, 1, 3), (18, 2, 2), (20, 0, 4), (22, 9, 2),
          (25, 0, 4), (25, 1, 6), (25, 2, 4), (25, 15, 3), (25, 16, 2), (25, 18, 2), (26, 0, 4), (26, 1, 6), (27, 0, 4),
          (29, 0, 4), (31, 0, 3), (32, 0, 3), (32, 2, 4), (32, 3, 4), (32, 4, 4), (32, 5, 4), (33, 1, 3), (33, 2, 2)]
      ((∃ x ∈ codes, x.1 = k ∧ x.2.2 ≤ at_ x.2.1)
        ∨ (k = 16 ∧ (12 < at_ 1
          ∨ (∃ e < at_ 1, 20 ≤ at_ (2 + 3 * e) ∨ 25 ≤ at_ (3 + 3 * e) ∨ 2 ≤ at_ (4 + 3 * e))
          ∨ (∃ e < at_ 1, ∃ f < e, at_ (2 + 3 * e) = at_ (2 + 3 * f) ∧ at_ (3 + 3 * e) = at_ (3 + 3 * f))))
        ∨ (k = 20 ∧ at_ 1 ≠ 0 ∧ at_ 1 ≠ 64 ∧ at_ 1 ≠ 128 ∧ at_ 1 ≠ 192)
        ∨ (k = 25 ∧ 4 ≤ at_ 17 ∧ at_ 17 < 255)
        ∨ (k = 27 ∧ ∃ e < at_ 13, 4 ≤ at_ (20 + 7 * e) % 16 ∨ 2 ≤ at_ (20 + 7 * e) / 16)
        ∨ (k = 32 ∧ at_ 0 = 1 ∧ 4 ≤ at_ 1)) →
      exec i s = .next (s.replied i.moment (c.reply .badArg [])))
  ∧ (∀ (m : Moment) (k : Nat) (s : State) (c : CmdMessage), s.ReadyFor k c → (k = 0 ∨ 35 < k) →
      exec (.unknownCommand m) s = .next (s.replied m (c.reply .unknown [])))

/-! ### Commands that move a lane -/

/-- R22 and R164: the short form, with a value that changes the lane, replies OK and then enables or disables it; a
value that does not leaves everything but its reply (and what the arbiter had waiting). The enabled lane is in
SEARCHING; the disabled one is OFF with its attempts cleared, its messages failed, its lane down and release
delivered: no slot of its ring keeps a frame, and it no longer asserts FAULT. The DISABLED report shows the health
count and the attempts as they stood before the command, and so does the ENABLED report (the model's choice, log 12);
expected line, damaged count, period error and last line mark stay (the model's choice, log 13), and a PURGE report of
a job that then starts comes before the TIMING report (the model's choice, log 35). The full form in OFF takes the
geometry mode and the configured geometry, clamped to the camera ranges and rounded down to multiples of 64 and 32,
and enables the lane when it is told to; in any other lane state it is refused with WRONG_STATE. -/
def Obligations.CameraConfigCompletes : Prop :=
  (∀ (m : Moment) (s : State) (c : CmdMessage) (n : Lane) (on : Bool),
      s.ReadyFor 7 c → c.payload = [fourByte n, boolByte on] →
      let r := s.replied m (c.reply .ok [])
      let rx := (s.lane n).rx
      ((on = true ↔ rx.state ≠ .off) → exec (.cameraConfig m) s = .next r.serve)
      ∧ (on = true → rx.state = .off →
        exec (.cameraConfig m) s = .next (((r.modRx n fun x =>
          { x with state := .searching, health := 0, average := none, periods := 0, acquisition := none }).offer
            (laneStateReport n .off .searching .enabled rx.health rx.attempts c.origin)).serve))
      ∧ (on = false → rx.state ≠ .off → ∃ t, exec (.cameraConfig m) s = .next t
        ∧ t = ((((((r.modRx n fun x =>
          { x with
            state := .off, attempts := 0, health := 0, average := none, periods := 0, openFrame := none
            expectedFrame := none, cleanFrames := 0, lockedRun := 0, silenceDue := none, recoveryDue := none
            acquisition := none }).offer
              (laneStateReport n rx.state .off .disabled rx.health rx.attempts c.origin)).deliverLaneDown n).storeRelease
                n).checkMaster n).serve)
        ∧ (t.lane n).rx.state = .off ∧ (t.lane n).rx.attempts = 0 ∧ (t.lane n).rx.acquisition = none
        ∧ (t.lane n).rx.geometry = rx.geometry ∧ (t.lane n).relay.queue = [] ∧ t.timing.master ≠ some n
        ∧ (∀ role i, (s.lane n).store.slotOf role = some i → (t.lane n).store.ring.get i = none)
        ∧ (∀ k, k ≠ n → (t.lane k).rx.judged = (s.lane k).rx.judged ∧ (t.lane k).relay = (s.lane k).relay)
        ∧ (∀ k, (t.lane k).test = (s.lane k).test) ∧ t.dram = s.dram ∧ t.pending = r.pending
        ∧ (t.faultLine = true ↔ s.chan.supervision = .limp ∨ ∃ k, k ≠ n ∧ (s.lane k).rx.state = .lockedOut)))
  ∧ (∀ (m : Moment) (s : State) (c : CmdMessage) (n : Lane) (on fixed : Bool) (w1 w0 h1 h0 : Byte),
      s.ReadyFor 7 c → c.payload = [fourByte n, boolByte on, boolByte fixed, w1, w0, h1, h0] →
      let g : Geometry := ⟨clampNat 320 1280 (wordOf w1 w0) / 64 * 64, clampNat 256 800 (wordOf h1 h0) / 32 * 32⟩
      let r := s.replied m (c.reply (if g.w = wordOf w1 w0 ∧ g.h = wordOf h1 h0 then .ok else .clamped) [])
      let u := r.modRx n fun x => { x with geometryMode := if fixed then .fixed else .auto, configured := g }
      ((s.lane n).rx.state ≠ .off → exec (.cameraConfig m) s = .next (s.replied m (c.reply .wrongState [])))
      ∧ ((s.lane n).rx.state = .off → on = false → exec (.cameraConfig m) s = .next u.serve)
      ∧ ((s.lane n).rx.state = .off → on = true → exec (.cameraConfig m) s = .next (((u.modRx n fun x =>
        { x with state := .searching, health := 0, average := none, periods := 0, acquisition := none }).offer
          (laneStateReport n .off .searching .enabled (s.lane n).rx.health (s.lane n).rx.attempts c.origin)).serve)))

/-- R17, R19, R24, R25 and R164: CAMERA_RESTART (but in OFF and LOCKED_OUT) and CAMERA_REARM (in LOCKED_OUT alone,
clearing the attempts) reply OK and make a channel restart: the lane is in SEARCHING with nothing of its frame, its
messages have failed and it is no timing master; CAMERA_REARM takes the lane out of those that assert FAULT, and
CAMERA_RESTART leaves the line. In any other lane state they are refused with WRONG_STATE. A channel restart, of cause
RECOVERY, CAMERA_RESTART, CAMERA_REARM or MODE, sets the Lane Receiver, offers a LANE_STATE report unless the lane was
in SEARCHING, delivers the lane down and ends the lane as timing master, in that order. The model's choices: the
report carries the health count and the attempts as they stood before the event (log 12), and a PURGE report of a job
that then starts comes before the TIMING report (log 35). -/
def Obligations.ChannelRestartCompletes : Prop :=
  (∀ (m : Moment) (s : State) (c : CmdMessage) (n : Lane), c.payload = [fourByte n] →
     let rx := (s.lane n).rx
     let restarted : State → Prop := fun t =>
       (t.lane n).rx.judged = { rx.judged with
         state := .searching, health := 0, average := none, periods := 0, mark := none, openFrame := none
         periodError := false, expectedFrame := none, expectedLine := 0, cleanFrames := 0, lockedRun := 0
         silenceDue := none, recoveryDue := none, acquisition := none, attempts := (t.lane n).rx.attempts }
       ∧ (t.lane n).relay.queue = [] ∧ t.timing.master ≠ some n
       ∧ (∀ k, k ≠ n → (t.lane k).rx.judged = (s.lane k).rx.judged ∧ (t.lane k).relay = (s.lane k).relay)
       ∧ (∀ k, (t.lane k).test = (s.lane k).test) ∧ t.dram = s.dram
       ∧ t.pending = (s.replied m (c.reply .ok [])).pending
       ∧ t.chan.queue = s.chan.queue.drop 1
     (s.ReadyFor 9 c → rx.state ≠ .off → rx.state ≠ .lockedOut →
       ∃ t, exec (.cameraRestart m) s = .next t
         ∧ t = ((s.replied m (c.reply .ok [])).channelRestart n .cameraRestart c.origin).serve
         ∧ restarted t ∧ (t.lane n).rx.attempts = rx.attempts ∧ t.faultLine = s.faultLine)
     ∧ (s.ReadyFor 9 c → (rx.state = .off ∨ rx.state = .lockedOut) →
       exec (.cameraRestart m) s = .next (s.replied m (c.reply .wrongState [])))
     ∧ (s.ReadyFor 10 c → rx.state = .lockedOut →
       ∃ t, exec (.cameraRearm m) s = .next t
         ∧ t = ((s.replied m (c.reply .ok [])).rearmRestart n c.origin).serve
         ∧ restarted t ∧ (t.lane n).rx.attempts = 0
         ∧ (t.faultLine = true ↔ s.chan.supervision = .limp ∨ ∃ k, k ≠ n ∧ (s.lane k).rx.state = .lockedOut))
     ∧ (s.ReadyFor 10 c → rx.state ≠ .lockedOut →
       exec (.cameraRearm m) s = .next (s.replied m (c.reply .wrongState []))))
  ∧ (∀ (s : State) (n : Lane) (origin : Origin),
      let rx := (s.lane n).rx
      let state : Nat := match rx.state with
        | .off => 0 | .searching => 1 | .acquiring => 2 | .locked => 3 | .faulted => 4 | .silent => 5 | .lockedOut => 6
      let searching := fun attempts : Nat => ({ s with lanes := s.lanes.modify n fun l => { l with rx := { l.rx with
        state := .searching, health := 0, average := none, periods := 0, mark := none, openFrame := none
        damagedCount := 0, periodError := false, expectedFrame := none, expectedLine := 0, cleanFrames := 0
        lockedRun := 0, silenceDue := none, recoveryDue := none, acquisition := none, attempts := attempts } } } : State)
      let told := fun (u : State) (code : Nat) =>
        if rx.state = .searching then u
        else u.offer ⟨.laneState, origin, .ok,
          byte1 n.val ++ byte1 state ++ [1] ++ byte1 code ++ byte1 rx.health ++ byte1 rx.attempts⟩
      (∀ x ∈ [(LaneCause.recovery, 6), (LaneCause.cameraRestart, 7), (LaneCause.mode, 9)],
        s.channelRestart n x.1 origin = ((told (searching rx.attempts) x.2).deliverLaneDown n).checkMaster n)
      ∧ s.rearmRestart n origin = ((told (searching 0) 8).deliverLaneDown n).checkMaster n)

/-- R38, R30, R40, R34 and R37: CAMERA_MESSAGE appends its message with its tag, which goes in flight at once on an
empty queue with no abort words owed; it is refused with LANE_DOWN unless the lane is ACQUIRING or LOCKED in NORMAL,
then with FULL at 4 messages. RELAY_FLUSH replies with how many messages it flushes, then reports each with FLUSHED,
the one in flight first, and empties the queue; two abort words are owed exactly when one was in flight. The progress
timer fails the message in flight with TIMEOUT: it leaves the queue with its report, two abort words are owed with the
resynchronisation, and the other messages wait. Every RELAY_FAILED report carries its message's tag, and command
number 12 (the model's choice, log 25). What no rule empties of the reply assembly buffer, the byte index and the
bytes taken stays (the model's choice, log 24). -/
def Obligations.RelayMessagesComplete : Prop :=
  (∀ (m : Moment) (s : State) (c : CmdMessage) (n : Lane) (bytes : List Byte),
      let l := s.lane n
      let holds := (l.rx.state = .acquiring ∨ l.rx.state = .locked) ∧ l.rx.mode = .normal
      (s.ReadyFor 12 c → c.payload = fourByte n :: bytes → 1 ≤ bytes.length → bytes.length ≤ 32 →
        exec (.cameraMessage m) s = .next
          (if ¬holds then s.replied m (c.reply .laneDown [])
           else if 4 ≤ l.relay.queue.length then s.replied m (c.reply .full [])
           else { s.replied m (c.reply .ok []) with
             lanes := s.lanes.modify n fun l => { l with relay :=
               if l.relay.inFlight = none ∧ l.relay.abortOwed = 0 then { l.relay with
                 queue := l.relay.queue ++ [⟨c.tag, bytes⟩], inFlight := some .sending, byteIndex := 0
                 offered := false, taken := 0, reply := []
                 progressDue := some (max s.now m.tick + msTicks l.relay.timeout) }
               else { l.relay with queue := l.relay.queue ++ [⟨c.tag, bytes⟩] } } }))
      ∧ (s.ReadyFor 14 c → c.payload = [fourByte n] →
        (l.relay.inFlight.isSome = true → l.relay.queue ≠ []) →
        let r := s.replied m (c.reply .ok (byte1 l.relay.queue.length))
        let fate := fun (k : RelayMessage) (phase taken replies : Nat) => (⟨.relayFailed, some (12, k.tag), .ok,
          byte1 n.val ++ [k.tag] ++ byte1 4 ++ byte1 phase ++ byte1 taken ++ byte1 replies⟩ : Notice)
        exec (.relayFlush m) s = .next (({ r with
          lanes := s.lanes.modify n fun l => { l with relay :=
            if l.relay.inFlight.isSome = true then { l.relay with
              queue := [], inFlight := none, progressDue := none, abortOwed := 2, sendToggle := true
              acceptedToggle := false, candidate := none }
            else { l.relay with queue := [], inFlight := none, progressDue := none } } }).offerAll
          (match l.relay.inFlight, l.relay.queue with
            | some phase, k :: rest =>
              fate k (match phase with | .sending => 1 | .awaitingReply => 2) l.relay.taken l.relay.reply.length
                :: rest.map fun k => fate k 0 0 0
            | _, queue => queue.map fun k => fate k 0 0 0))))
  ∧ (∀ (m : Moment) (s : State) (n : Lane) (due : Nat) (phase : RelayPhase) (k : RelayMessage) (rest : List RelayMessage),
      s.resetAsserted = false → due ≤ max s.now m.tick →
      let r := (s.lane n).relay
      r.inFlight = some phase → r.queue = k :: rest → r.progressDue = some due →
      exec (.progressTimerExpiry m n) s = .next (((s.advance m).modRelay n fun _ => { r with
        queue := rest, inFlight := none, progressDue := none, reply := [], abortOwed := 2, sendToggle := true
        acceptedToggle := false, candidate := none }).offer
          ⟨.relayFailed, some (12, k.tag), .ok, byte1 n.val ++ [k.tag] ++ byte1 0
            ++ byte1 (match phase with | .sending => 1 | .awaitingReply => 2) ++ byte1 r.taken ++ byte1 r.reply.length⟩))

/-- R56, R171, R172, R176 and R177: SET_LANE_MODE takes mode and pattern and replies with the mode before. The same
mode and pattern change nothing; an entry to CHECK or INTERNAL resets the checker, its inverted flag, run, error count
and error window among it, delivers lane down and release, which leave every slot of the lane's ring FREE, and ends
the lane as timing master, with the generator started in INTERNAL alone, its first FRAME_START one line time later, by
the free-run period and the lane geometry at the entry (the model's choice, log 22), and damaged count and period
error kept (the model's choice, log 13). The same mode with another pattern resets the checker in CHECK and INTERNAL,
and in INTERNAL sets the generator's shift state to all ones; a return to NORMAL stops the generator, clears the
pending error and, but in OFF and LOCKED_OUT, makes a channel restart of cause MODE (ChannelRestartCompletes says what
it does and reports, with the counts of log 12). At an entry a PURGE report of a job that then starts comes before the
TIMING report (the model's choice, log 35). INJECT_ERROR sets the pending injected error; it is refused with
WRONG_STATE outside INTERNAL and with BUSY while the pending error is set. -/
def Obligations.LaneModeCompletes : Prop :=
  (∀ (m : Moment) (s : State) (c : CmdMessage) (n : Lane) (mode : LaneMode) (pattern : Pattern),
      s.ReadyFor 33 c → c.payload = [fourByte n, BitVec.ofNat 8 mode.code, BitVec.ofNat 8 pattern.code] →
      let l := s.lane n
      let r := s.replied m (c.reply .ok (byte1 l.rx.mode.code))
      ∃ t, exec (.setLaneMode m) s = .next t ∧ t = (r.setLaneMode n mode pattern c.origin).serve
        ∧ (t.lane n).rx.mode = mode ∧ (t.lane n).test.pattern = pattern
        ∧ (mode = l.rx.mode → pattern = l.test.pattern → t = r.serve)
        ∧ (mode = l.rx.mode → pattern ≠ l.test.pattern →
          let hunting := { l.test with
            pattern := pattern, checker := .hunt, inverted := false, seedCount := 0, run := 0, errorCount := 0
            window := [] }
          t = { r with lanes := s.lanes.modify n fun l => { l with test := match mode with
            | .normal => { l.test with pattern := pattern }
            | .check => hunting
            | .internal => { hunting with
              genShift := List.replicate (match pattern with | .short => 9 | .long => 15) true } } }.serve)
        ∧ (mode ≠ l.rx.mode → mode ≠ .normal →
          (t.lane n).rx.judged = { l.rx.judged with
            mode := mode, openFrame := none, expectedFrame := none, expectedLine := 0, mark := none, average := none
            periods := 0, cleanFrames := 0, lockedRun := 0 }
          ∧ (t.lane n).relay.queue = [] ∧ t.timing.master ≠ some n
          ∧ (∀ role i, l.store.slotOf role = some i → (t.lane n).store.ring.get i = none)
          ∧ (l.store.ringOk → ∀ i, (t.lane n).store.ring.get i = none)
          ∧ t = ((({ r with lanes := s.lanes.modify n fun l => { l with
            rx := { l.rx with
              mode := mode, openFrame := none, expectedFrame := none, expectedLine := 0, mark := none, average := none
              periods := 0, cleanFrames := 0, lockedRun := 0 }
            test := (t.lane n).test } }.deliverLaneDown n).storeRelease n).checkMaster n).serve
          ∧ (let hunting := { l.test with
              pattern := pattern, checker := .hunt, inverted := false, seedCount := 0, run := 0, errorCount := 0
              window := [] }
            (mode = .check → (t.lane n).test = { hunting with genRun := none })
            ∧ (mode = .internal →
              let lineTime := usTicks s.timing.freeRun / (l.rx.geometry.h + 8)
              (t.lane n).test = { hunting with
                genRun := some ⟨max s.now m.tick + lineTime, lineTime, l.rx.geometry, 0⟩
                genShift := List.replicate (match pattern with | .short => 9 | .long => 15) true
                genFrame := 0, injectPending := false })))
        ∧ (mode ≠ l.rx.mode → mode = .normal →
          (t.lane n).test = { l.test with pattern := pattern, genRun := none, injectPending := false }
          ∧ (let normal : State := { r with lanes := s.lanes.modify n fun l => { l with
              rx := { l.rx with mode := .normal }, test := (t.lane n).test } }
            (l.rx.state ≠ .off → l.rx.state ≠ .lockedOut → t = (normal.channelRestart n .mode c.origin).serve)
            ∧ (l.rx.state = .off ∨ l.rx.state = .lockedOut → t = normal.serve))
          ∧ (l.rx.state ≠ .off → l.rx.state ≠ .lockedOut →
            (t.lane n).rx.state = .searching ∧ (t.lane n).rx.attempts = l.rx.attempts)
          ∧ (l.rx.state = .off ∨ l.rx.state = .lockedOut → (t.lane n).rx.state = l.rx.state))
        ∧ (∀ k, k ≠ n → (t.lane k).rx.judged = (s.lane k).rx.judged ∧ (t.lane k).relay = (s.lane k).relay
          ∧ (t.lane k).test = (s.lane k).test)
        ∧ t.dram = s.dram ∧ t.pending = r.pending ∧ t.chan.queue = s.chan.queue.drop 1)
  ∧ (∀ (m : Moment) (s : State) (c : CmdMessage) (n : Lane), s.ReadyFor 34 c → c.payload = [fourByte n] →
      exec (.injectError m) s = .next
        (if (s.lane n).rx.mode ≠ .internal then s.replied m (c.reply .wrongState [])
         else if (s.lane n).test.injectPending = true then s.replied m (c.reply .busy [])
         else { s.replied m (c.reply .ok []) with
           lanes := s.lanes.modify n fun l => { l with test := { l.test with injectPending := true } } }))

/-! ### The lens purge -/

/-- R109 and R111 to R117: PURGEn is asserted exactly in PULSE: from the event that begins a blow to the one that ends
it, whatever else happens, and no event of one lane moves another's line. PURGE_NOW, refused with BUSY in PULSE and
SETTLE, starts a blow: PULSE with its timer, the last soiled count none, the consecutive count kept, the manual count
raised, the rest's timer stopped, a return to HALTED remembered; a STARTED report follows the reply. PURGE_REARM
returns HALTED to IDLE with the consecutive count 0, and is refused with WRONG_STATE otherwise. The pulse timer ends
the blow and begins SETTLE with no job counted and 500 ms to run; the settle timer begins COOLDOWN with its rest; the
cooldown timer then halts the purge at its limit with LENS_SOILED raised and a HALTED report, blows again while the
lens is still soiled, or returns to IDLE, and to HALTED when it blew from there. A report without a command carries
the tag 0 (R183). -/
def Obligations.PurgeCompletes : Prop :=
  (∀ (s : State) (n : Lane), s.purgeLine n = true ↔ (s.lane n).purge.state = .pulse)
  ∧ (∀ (m : Moment) (s : State) (c : CmdMessage) (n : Lane), c.payload = [fourByte n] →
     let p := (s.lane n).purge
     (s.ReadyFor 23 c →
       let t : State := if p.state = .pulse ∨ p.state = .settle then s.replied m (c.reply .busy [])
        else ({ s.replied m (c.reply .ok []) with
          lanes := s.lanes.modify n fun l => { l with purge := { l.purge with
            state := .pulse, pulseDue := some (max s.now m.tick + msTicks l.purge.settings.pulse), lastSoiled := none
            cooldownDue := none, returnHalted := l.purge.returnHalted || l.purge.state == PurgeState.halted
            manualPurges := min 4294967295 (l.purge.manualPurges + 1) } } }).offer
          ⟨.purge, some (23, c.tag), .ok, byte1 n.val ++ [0, 2] ++ byte1 p.consecutive
            ++ optByte2 p.lastSoiled ++ [c.tag]⟩
       exec (.purgeNow m) s = .next t ∧ (t.purgeLine n = true ↔ p.state ≠ .settle)
         ∧ (∀ k, k ≠ n → t.purgeLine k = s.purgeLine k))
     ∧ (s.ReadyFor 24 c →
       let t : State := if p.state = .halted then
         { s.replied m (c.reply .ok []) with
           lanes := s.lanes.modify n fun l => { l with purge := { l.purge with
             state := .idle, consecutive := 0, returnHalted := false } } }
        else s.replied m (c.reply .wrongState [])
       exec (.purgeRearm m) s = .next t ∧ (∀ k, t.purgeLine k = s.purgeLine k)))
  ∧ (∀ (m : Moment) (s : State) (n : Lane) (due : Nat), s.resetAsserted = false → due ≤ max s.now m.tick →
       let p := (s.lane n).purge
       let now := max s.now m.tick
       let set := fun (q : Purge) => (s.advance m).modPurge n fun _ => q
       let goes := fun (i : Instr) (t : State) (blowing : Bool) =>
         exec i s = .next t ∧ t.purgeLine n = blowing ∧ ∀ k, k ≠ n → t.purgeLine k = s.purgeLine k
       let soiled := ∃ k, p.lastSoiled = some k ∧ p.settings.nsoil ≤ k
       let video := (s.lane n).rx.state = .locked ∧ (s.lane n).rx.mode = .normal
       (p.state = .pulse → p.pulseDue = some due → goes (.pulseTimerExpiry m n) (set { p with
         state := .settle, pulseDue := none, settleJobs := 0, settleDue := some (now + msTicks 500) }) false)
       ∧ (p.state = .settle → p.settleDue = some due → goes (.settleTimerExpiry m n) (set { p with
         state := .cooldown, settleDue := none, cooldownDue := some (now + msTicks (1000 * p.settings.cooldown)) }) false)
       ∧ (p.state = .cooldown → p.cooldownDue = some due →
         (p.returnHalted = true → goes (.cooldownTimerExpiry m n)
           (set { p with state := .halted, cooldownDue := none, returnHalted := false }) false)
         ∧ (p.returnHalted = false → soiled → p.settings.kmax ≤ p.consecutive →
           goes (.cooldownTimerExpiry m n) (((set { p with
             state := .halted, cooldownDue := none, halts := min 4294967295 (p.halts + 1) }).raise
               (.lensSoiled n)).offer ⟨.purge, none, .ok, byte1 n.val ++ [1, 0] ++ byte1 p.consecutive
                 ++ optByte2 p.lastSoiled ++ [0]⟩) false)
         ∧ (p.returnHalted = false → soiled → p.consecutive < p.settings.kmax → p.settings.auto = true → video →
           goes (.cooldownTimerExpiry m n) ((set { p with
             state := .pulse, cooldownDue := none, pulseDue := some (now + msTicks p.settings.pulse), lastSoiled := none
             consecutive := min 255 (p.consecutive + 1), autoPurges := min 4294967295 (p.autoPurges + 1) }).offer
               ⟨.purge, none, .ok, byte1 n.val ++ [0, 1] ++ byte1 (min 255 (p.consecutive + 1))
                 ++ optByte2 p.lastSoiled ++ [0]⟩) true)
         ∧ (p.returnHalted = false → (¬soiled ∨ (p.consecutive < p.settings.kmax ∧ ¬(p.settings.auto = true ∧ video))) →
           goes (.cooldownTimerExpiry m n) (set { p with state := .idle, cooldownDue := none }) false)))

/-! ### Packets and the lanes -/

/-- R180 and R179: what a packet with good checks is parsed as, for each of the three kinds and every value of its
fields; a LINE whose payload check differs is still a LINE. A bad header is one of fewer than 9 bytes, one whose
header check differs, one of a kind other than 1 to 3, a FRAME_START or FRAME_END longer than 9 bytes and a LINE
shorter than 11. -/
def Obligations.PacketsAreParsed : Prop :=
  ∀ (number w1 w3 : Nat) (reply flags : Byte) (payload : List Byte), number < 16 → w1 < 65536 → w3 < 65536 →
    let header := fun kind : Nat =>
      withCrc ([BitVec.ofNat 8 (16 * kind + number)] ++ byte2 w1 ++ byte2 w3 ++ [reply, flags])
    let relay : RelayFields := ⟨flags.getLsbD 7, reply, flags.getLsbD 6, flags.getLsbD 5, flags.getLsbD 4⟩
    parsePacket (header 1) = some ⟨.frameStart, number, w1, w3, relay, [], true⟩
      ∧ parsePacket (header 3) = some ⟨.frameEnd, number, w1, w3, relay, [], true⟩
      ∧ parsePacket (header 2 ++ withCrc payload) = some ⟨.line, number, w1, 0, relay, payload, true⟩
      ∧ (∀ a b : Byte, [a, b] ≠ crcBytes payload →
        parsePacket (header 2 ++ payload ++ [a, b]) = some ⟨.line, number, w1, 0, relay, payload, false⟩)
      ∧ (∀ kind < 16, kind ≠ 1 → kind ≠ 2 → kind ≠ 3 → parsePacket (header kind ++ payload) = none)
      ∧ (payload ≠ [] → parsePacket (header 1 ++ payload) = none ∧ parsePacket (header 3 ++ payload) = none)
      ∧ (payload.length < 2 → parsePacket (header 2 ++ payload) = none)
      ∧ (∀ bytes : List Byte, bytes.length < 9 → parsePacket bytes = none)
      ∧ (∀ bytes : List Byte, crcBytes (bytes.take 7) ≠ (bytes.drop 7).take 2 → parsePacket bytes = none)

/-- R2, R4 and R28: a packet for a lane in OFF or INTERNAL has no effect. In FAULTED, SILENT and LOCKED_OUT every
packet, and in SEARCHING one that is no FRAME_START, is counted, a bad header once more in header-errors, and handed
to the relay, and has no other effect. That header-errors counts it in FAULTED, SILENT and LOCKED_OUT too is the
model's choice (log 10). -/
def Obligations.PacketsThatOpenNothing : Prop :=
  ∀ (m : Moment) (s : State) (n : Lane) (bytes : List Byte), s.resetAsserted = false →
    let rx := (s.lane n).rx
    let p := parsePacket bytes
    let relay := Relay.takePacket n (max s.now m.tick) (p.map (·.relay)) (s.lane n).relay
    (rx.state = .off ∨ rx.mode = .internal → exec (.cameraPacket m n bytes) s = .next (s.advance m))
    ∧ (rx.mode ≠ .internal →
      (rx.state = .faulted ∨ rx.state = .silent ∨ rx.state = .lockedOut
        ∨ (rx.state = .searching ∧ ∀ q, p = some q → q.kind ≠ .frameStart)) →
      exec (.cameraPacket m n bytes) s = .next ((((s.advance m).modLane n fun l =>
        { l with
          relay := relay.1
          rx := { l.rx with counters := { l.rx.counters with
            packetsReceived := min 4294967295 (l.rx.counters.packetsReceived + 1)
            headerErrors :=
              if p = none then min 4294967295 (l.rx.counters.headerErrors + 1) else l.rx.counters.headerErrors } }
            }).offerAll relay.2).serve))

/-- R4, R6, R19, R28, R47 and R88: a FRAME_START in SEARCHING. While the store is not ready it is ignored in NORMAL;
failing its geometry test it counts a geometry error. Accepted, the lane is in ACQUIRING with that geometry as
acquisition geometry, its frame open, the silence timer started and a LANE_STATE report with cause ACQUIRED offered;
in NORMAL the lowest-numbered FREE slot is FILLING for it, unless a pending commit defers it or no slot is FREE, and
its statistics set is begun; in CHECK neither is. Ignored or refused it leaves slot ring, write buffer and statistics
as they were. The Relay Unit takes its header in every case. That the report carries the health count and the attempts
as they stood before the event is the model's choice (log 12). -/
def Obligations.SearchingTakesAFrameStart : Prop :=
  ∀ (m : Moment) (s : State) (n : Lane) (bytes : List Byte) (q : Packet),
    let rx := (s.lane n).rx
    let store := (s.lane n).store
    let dust := (s.lane n).dust
    let relay := Relay.takePacket n (max s.now m.tick) (some q.relay) (s.lane n).relay
    let heard := s.offerAll relay.2
    s.resetAsserted = false → rx.state = .searching → rx.mode ≠ .internal → parsePacket bytes = some q →
    q.kind = .frameStart →
    let acceptable := match rx.geometryMode with
      | .auto => 320 ≤ q.word1 ∧ q.word1 ≤ 1280 ∧ q.word1 % 64 = 0 ∧ 256 ≤ q.word3 ∧ q.word3 ≤ 800 ∧ q.word3 % 32 = 0
      | .fixed => q.word1 = rx.configured.w ∧ q.word3 = rx.configured.h
    let received := { rx.counters with packetsReceived := min 4294967295 (rx.counters.packetsReceived + 1) }
    let kept : State → Prop := fun t => (t.lane n).store = store ∧ (t.lane n).dust = dust
    ∃ t, exec (.cameraPacket m n bytes) s = .next t
      ∧ (rx.mode = .normal → s.arb.storeReady = false →
        (t.lane n).rx = { rx with counters := received } ∧ kept t ∧ t.chan = heard.chan)
      ∧ (rx.mode = .check ∨ s.arb.storeReady = true → ¬acceptable →
        (t.lane n).rx = { rx with counters := { received with
          geometryErrors := min 4294967295 (rx.counters.geometryErrors + 1) } } ∧ kept t ∧ t.chan = heard.chan)
      ∧ (rx.mode = .check ∨ s.arb.storeReady = true → acceptable → rx.openFrame = none → rx.expectedFrame = none →
        (t.lane n).rx = { rx with
          state := .acquiring, acquisition := some ⟨q.word1, q.word3⟩, health := 0, cleanFrames := 0, lockedRun := 0
          silenceDue := some (max s.now m.tick + msTicks rx.silenceTimeout)
          openFrame := some ⟨q.number, .acquiring⟩, expectedFrame := some ((q.number + 1) % 16), expectedLine := 0
          damagedCount := 0, periodError := false, mark := none
          counters := { received with framesStarted := min 4294967295 (rx.counters.framesStarted + 1) } }
        ∧ t.chan = (heard.offer (laneStateReport n .searching .acquiring .acquired rx.health rx.attempts none)).chan
        ∧ (rx.mode = .normal →
          (t.lane n).store = (if store.pendingCommit.isSome then
              { store with opening := .deferred q.number ⟨q.word1, q.word3⟩ [] }
            else match ([0, 1, 2, 3] : List (Fin 4)).find? fun i => (store.ring.get i).isNone with
              | some i => { store with
                ring := store.ring.set i (some ⟨.filling, ⟨q.number, ⟨q.word1, q.word3⟩, [], none⟩⟩), opening := .stored i }
              | none => { store with opening := .unstored })
          ∧ (t.lane n).dust = { dust with gathering := some ⟨q.number, ⟨q.word1, q.word3⟩, List.replicate (q.word3 / 32) 0,
            List.replicate (q.word1 / 64 * (q.word3 / 32)) 0, List.replicate (q.word1 / 64 * (q.word3 / 32)) 0⟩ })
        ∧ (rx.mode = .check → kept t))
      ∧ (∀ k, k ≠ n → t.lane k = s.lane k) ∧ t.timing = s.timing ∧ t.comp = s.comp ∧ t.dram = s.dram ∧ t.jobs = s.jobs
      ∧ (t.lane n).relay = relay.1 ∧ (t.lane n).test = (s.lane n).test
      ∧ (t.lane n).purge = (s.lane n).purge ∧ (t.lane n).motion = (s.lane n).motion ∧ t.pending = s.pending

/-- R5, R6, R13, R47, R51, R21 and R88: a FRAME_START in ACQUIRING or LOCKED, short of the 32nd fault, or without a
fault at any health count. One that announces another geometry counts a geometry error, is faulty and opens nothing.
Otherwise an open frame is overtaken: it is abandoned, its slot FREE, its lines discarded, counted as discarded and as
a sequence error, and the runs begin again; another frame number than the expected one counts a frame-number error;
either is one fault. Then the new frame is open, with the number after its own and line 0 expected and no damage, and
in NORMAL the lowest-numbered FREE slot is FILLING for it, unless a pending commit defers it or no slot is FREE. That
CHECK counts an overtaken frame as discarded too is the model's choice (log 14). -/
def Obligations.FrameStartsWhileReceiving : Prop :=
  ∀ (m : Moment) (s : State) (n : Lane) (bytes : List Byte) (q : Packet) (g : Geometry),
    let rx := (s.lane n).rx
    let store := (s.lane n).store
    let dust := (s.lane n).dust
    let relay := Relay.takePacket n (max s.now m.tick) (some q.relay) (s.lane n).relay
    let up := fun x : Nat => min 4294967295 (x + 1)
    s.resetAsserted = false → (rx.state = .acquiring ∨ rx.state = .locked) → rx.mode ≠ .internal →
    parsePacket bytes = some q → q.kind = .frameStart → rx.acquisition = some g →
    (rx.health + 1 < 32
      ∨ (g = ⟨q.word1, q.word3⟩ ∧ rx.openFrame = none ∧ ∀ e, rx.expectedFrame = some e → e = q.number)) →
    let heard := { rx with
      silenceDue := some (max s.now m.tick + msTicks rx.silenceTimeout)
      counters := { rx.counters with packetsReceived := up rx.counters.packetsReceived } }
    let overtaken := rx.openFrame.isSome
    let misnumbered := match rx.expectedFrame with
      | some e => e != q.number
      | none => false
    let left : LaneStore :=
      if overtaken then { store with
        ring := match store.opening with
          | .stored i => store.ring.set i none
          | _ => store.ring
        opening := .closed, buffer := store.buffer.filter fun b => b.tag != .current }
      else store
    ∃ t, exec (.cameraPacket m n bytes) s = .next t
      ∧ (g ≠ ⟨q.word1, q.word3⟩ → (t.lane n).rx = { heard with
          health := rx.health + 1
          counters := { heard.counters with geometryErrors := up rx.counters.geometryErrors } }
        ∧ (t.lane n).store = store ∧ (t.lane n).dust = dust)
      ∧ (g = ⟨q.word1, q.word3⟩ →
        (t.lane n).rx = { heard with
          health := if overtaken || misnumbered then rx.health + 1 else rx.health
          cleanFrames := if overtaken then 0 else rx.cleanFrames, lockedRun := if overtaken then 0 else rx.lockedRun
          openFrame := some ⟨q.number, if rx.state = .locked then .locked else .acquiring⟩
          expectedFrame := some ((q.number + 1) % 16), expectedLine := 0, damagedCount := 0, periodError := false
          mark := none
          counters := { heard.counters with
            framesStarted := up rx.counters.framesStarted
            framesDiscarded := if overtaken then up rx.counters.framesDiscarded else rx.counters.framesDiscarded
            sequenceErrors := if overtaken then up rx.counters.sequenceErrors else rx.counters.sequenceErrors
            frameNumberErrors := if misnumbered then up rx.counters.frameNumberErrors
              else rx.counters.frameNumberErrors } }
        ∧ (rx.mode = .normal →
          (t.lane n).store = (if left.pendingCommit.isSome then { left with opening := .deferred q.number g [] }
            else match ([0, 1, 2, 3] : List (Fin 4)).find? fun i => (left.ring.get i).isNone with
              | some i => { left with
                ring := left.ring.set i (some ⟨.filling, ⟨q.number, g, [], none⟩⟩), opening := .stored i }
              | none => { left with opening := .unstored })
          ∧ (t.lane n).dust = { dust with gathering := some ⟨q.number, g, List.replicate (g.h / 32) 0,
            List.replicate (g.w / 64 * (g.h / 32)) 0, List.replicate (g.w / 64 * (g.h / 32)) 0⟩ })
        ∧ (rx.mode = .check → (t.lane n).store = left
          ∧ (t.lane n).dust = if overtaken then { dust with gathering := none } else dust)
        ∧ (∀ tr, s.arb.port = some tr →
          let cut := overtaken && (store.buffer.head?.any fun b => b.tag == .current) && (match tr.kind with
            | .write lane _ _ _ _ => lane == n
            | _ => false)
          t.arb.port = some { tr with live := tr.live && !cut }))
      ∧ (t.lane n).relay = relay.1 ∧ t.chan = (s.offerAll relay.2).chan
      ∧ (t.lane n).motion = (s.lane n).motion ∧ (t.lane n).purge = (s.lane n).purge ∧ (t.lane n).test = (s.lane n).test
      ∧ (∀ k, k ≠ n → t.lane k = s.lane k) ∧ t.jobs = s.jobs ∧ t.comp = s.comp ∧ t.timing = s.timing
      ∧ t.dram = s.dram ∧ t.pending = s.pending

/-- R7 and R13: a LINE in ACQUIRING or LOCKED that finds no open frame, carries another frame number, has a line
number of H or more or one below the expected line number is ignored and faulty: it raises its counter and the health
count, and changes nothing else of the lane's frame; with a good payload check it still restarts the silence timer
(R3). -/
def Obligations.LinesOutOfSequenceAreFaulty : Prop :=
  ∀ (m : Moment) (s : State) (n : Lane) (bytes : List Byte) (q : Packet) (g : Geometry),
    let rx := (s.lane n).rx
    s.resetAsserted = false → (rx.state = .acquiring ∨ rx.state = .locked) → rx.mode ≠ .internal →
    parsePacket bytes = some q → q.kind = .line → rx.acquisition = some g → rx.health + 1 < 32 →
    let wrongNumber := ∃ f, rx.openFrame = some f ∧ f.number ≠ q.number
    let wrongLine := rx.openFrame = none
      ∨ ∃ f, rx.openFrame = some f ∧ f.number = q.number ∧ (g.h ≤ q.word1 ∨ q.word1 < rx.expectedLine)
    (wrongNumber ∨ wrongLine) → ∃ t, exec (.cameraPacket m n bytes) s = .next t
      ∧ (t.lane n).rx = { rx with
        health := rx.health + 1
        silenceDue := if q.payloadOk = true ∧ q.payload.length = 2 * g.w then
            some (max s.now m.tick + msTicks rx.silenceTimeout) else rx.silenceDue
        counters := { rx.counters with
          packetsReceived := min 4294967295 (rx.counters.packetsReceived + 1)
          sequenceErrors := (t.lane n).rx.counters.sequenceErrors
          frameNumberErrors := (t.lane n).rx.counters.frameNumberErrors } }
      ∧ (wrongNumber → (t.lane n).rx.counters.sequenceErrors = rx.counters.sequenceErrors
        ∧ (t.lane n).rx.counters.frameNumberErrors = min 4294967295 (rx.counters.frameNumberErrors + 1))
      ∧ (wrongLine → (t.lane n).rx.counters.sequenceErrors = min 4294967295 (rx.counters.sequenceErrors + 1)
        ∧ (t.lane n).rx.counters.frameNumberErrors = rx.counters.frameNumberErrors)
      ∧ (t.lane n).relay = (Relay.takePacket n (max s.now m.tick) (some q.relay) (s.lane n).relay).1
      ∧ (t.lane n).store = (s.lane n).store ∧ (t.lane n).dust = (s.lane n).dust ∧ (t.lane n).test = (s.lane n).test
      ∧ (∀ k, k ≠ n → t.lane k = s.lane k) ∧ t.timing = s.timing ∧ t.dram = s.dram ∧ t.jobs = s.jobs
      ∧ t.chan.apartReports = s.chan.apartReports ∧ t.pending = s.pending

/-- R7, R8, R11, R12, R48, R87 and R142: a LINE at the expected line number with a good payload, room in the write
buffer and a period that is in tolerance or untested is clean: it lowers the health count, sets expected line, mark
and average, and goes to the write buffer and the tile accumulator, or in CHECK to the checker. Stated for a line that
is not the timing master's offset line (OutputFramesStart states that one). The line period is measured after the line
one below alone: the period m in ticks, at most 16,777,215, seeds an average that is none with 16m; it moves the
average by truncate((16m − avg)/8) while fewer than 16 are averaged, and then only when it is within floor(avg/32) of
it: otherwise it is out of tolerance. That it is measured also when a LINE was ignored between the two is the model's
choice (log 44). The accumulator adds to each tile of tile row floor(y/32) its 64 luma samples and the 63 differences
of neighbours inside it, and 1 to the row's valid line count. -/
def Obligations.CleanLineIsTaken : Prop :=
  (∀ (m : Moment) (s : State) (n : Lane) (bytes : List Byte) (q : Packet) (g : Geometry) (f : OpenFrame),
     let rx := (s.lane n).rx
     let now := max s.now m.tick
     s.resetAsserted = false → (rx.state = .acquiring ∨ rx.state = .locked) → rx.mode ≠ .internal →
     parsePacket bytes = some q → q.kind = .line → rx.acquisition = some g → q.payloadOk = true →
     q.payload.length = 2 * g.w → rx.openFrame = some f → f.number = q.number → q.word1 = rx.expectedLine → q.word1 < g.h →
     (rx.mode = .check ∨ (s.lane n).store.buffer.length < 2) → (rx.measurePeriod q.word1 now).outOfTolerance = false →
     ¬(s.timing.master = some n ∧ q.word1 = s.timing.syncInForce) →
     ∃ t, exec (.cameraPacket m n bytes) s = .next t
       ∧ (t.lane n).rx = { rx with
         health := rx.health - 1, expectedLine := q.word1 + 1, mark := some ⟨q.word1, now⟩
         average := (rx.measurePeriod q.word1 now).average, periods := (rx.measurePeriod q.word1 now).periods
         silenceDue := some (now + msTicks rx.silenceTimeout)
         counters := { rx.counters with packetsReceived := min 4294967295 (rx.counters.packetsReceived + 1) } }
       ∧ (rx.mode = .normal → (s.lane n).store.opening ≠ .unstored →
         (t.lane n).store = { (s.lane n).store with
           buffer := (s.lane n).store.buffer ++ [⟨.current, q.word1, q.payload, 0⟩] })
       ∧ (rx.mode = .normal → (t.lane n).dust = { (s.lane n).dust with
         gathering := (s.lane n).dust.gathering.map (StatSet.addLine q.word1 q.payload) }
         ∧ (t.lane n).test = (s.lane n).test)
       ∧ (rx.mode = .check → (t.lane n).test = (s.lane n).test.takePayload q.payload
         ∧ (t.lane n).store = (s.lane n).store ∧ (t.lane n).dust = (s.lane n).dust)
       ∧ (∀ k, k ≠ n → t.lane k = s.lane k) ∧ t.timing = s.timing ∧ t.dram = s.dram ∧ t.jobs = s.jobs
       ∧ t.chan.apartReports = s.chan.apartReports ∧ t.pending = s.pending)
  ∧ (∀ (rx : Receiver) (line now : Nat),
       let o := rx.measurePeriod line now
       (∀ tick, rx.mark = some ⟨line, tick⟩ ∨ rx.mark = none → o = ⟨rx.average, rx.periods, false⟩)
       ∧ (∀ k tick, k + 1 ≠ line → rx.mark = some ⟨k, tick⟩ → o = ⟨rx.average, rx.periods, false⟩)
       ∧ (∀ k tick, k + 1 = line → rx.mark = some ⟨k, tick⟩ →
         let period := min 16777215 (now - tick)
         (rx.average = none → o = ⟨some (16 * period), 1, false⟩)
         ∧ (∀ avg, rx.average = some avg →
           let moved := ((avg : Int) + (16 * (period : Int) - avg).tdiv 8).toNat
           (rx.periods < 16 → o = ⟨some moved, rx.periods + 1, false⟩)
           ∧ (16 ≤ rx.periods → (16 * (period : Int) - avg).natAbs ≤ avg / 32 → o = ⟨some moved, rx.periods, false⟩)
           ∧ (16 ≤ rx.periods → avg / 32 < (16 * (period : Int) - avg).natAbs → o = ⟨some avg, rx.periods, true⟩))))
  ∧ (∀ (line : Nat) (payload : List Byte) (k : StatSet),
       let luma := fun x : Nat => (payload.getD (2 * x) 0).toNat
       let columns := k.geometry.w / 64
       let grown := fun (sum : Nat → Nat) (l : List Nat) =>
         l.mapIdx fun i v => if i / columns = line / 32 then v + sum (64 * (i % columns)) else v
       StatSet.addLine line payload k = { k with
         valid := k.valid.mapIdx fun row v => if row = line / 32 then v + 1 else v
         luma := grown (fun first => ((List.range 64).map fun i => luma (first + i)).sum) k.luma
         detail := grown (fun first => ((List.range 63).map fun i =>
           ((luma (first + i + 1) : Int) - luma (first + i)).natAbs).sum) k.detail })

/-- R7 to R9, R11 to R13, R20, R46, R47, R48 and R87: a LINE of the open frame, at the expected number or ahead of it,
that is faulty but not the 32nd fault: it is ahead of the expected line, its payload check fails, the write buffer is
full, or its period is out of tolerance. It is one fault. The lines it passes over and a payload that is not taken are
damaged, entered in the frame's record while they are among its first 32. It still sets expected line, mark and
average, and a good payload that the buffer has room for is stored and gathered (CleanLineIsTaken says what is added);
in CHECK the checker takes no faulty line. Stated for a line that is not the timing master's offset line
(OutputFramesStart states that one). -/
def Obligations.FaultyLinesAreTaken : Prop :=
  ∀ (m : Moment) (s : State) (n : Lane) (bytes : List Byte) (q : Packet) (g : Geometry) (f : OpenFrame),
    let rx := (s.lane n).rx
    let store := (s.lane n).store
    let now := max s.now m.tick
    let relay := Relay.takePacket n now (some q.relay) (s.lane n).relay
    let up := fun x k : Nat => if k = 0 then x else min 4294967295 (x + k)
    s.resetAsserted = false → (rx.state = .acquiring ∨ rx.state = .locked) → rx.mode ≠ .internal →
    parsePacket bytes = some q → q.kind = .line → rx.acquisition = some g → rx.openFrame = some f →
    f.number = q.number → rx.expectedLine ≤ q.word1 → q.word1 < g.h → rx.health + 1 < 32 →
    ¬(s.timing.master = some n ∧ q.word1 = s.timing.syncInForce) →
    let ahead := q.word1 - rx.expectedLine
    let good := q.payloadOk && q.payload.length == 2 * g.w
    let lost := good && rx.mode != .check && decide (2 ≤ store.buffer.length)
    let period := rx.measurePeriod q.word1 now
    let hurt := (List.range ahead).map (rx.expectedLine + ·) ++ (if good && !lost then [] else [q.word1])
    let entered := hurt.take (32 - rx.damagedCount)
    let listed : LaneStore := match store.opening with
      | .stored i => { store with ring := store.ring.modify i (Option.map fun h =>
        { h with record := { h.record with damaged := h.record.damaged ++ entered } }) }
      | .deferred number size list => { store with opening := .deferred number size (list ++ entered) }
      | _ => store
    let longer := store.buffer ++ [⟨.current, q.word1, q.payload, 0⟩]
    (0 < ahead ∨ good = false ∨ lost = true ∨ period.outOfTolerance = true) →
    ∃ t, exec (.cameraPacket m n bytes) s = .next t
      ∧ (t.lane n).rx = { rx with
        health := rx.health + 1, expectedLine := q.word1 + 1, mark := some ⟨q.word1, now⟩
        average := period.average, periods := period.periods
        periodError := rx.periodError || period.outOfTolerance, damagedCount := rx.damagedCount + hurt.length
        silenceDue := if good then some (now + msTicks rx.silenceTimeout) else rx.silenceDue
        counters := { rx.counters with
          packetsReceived := up rx.counters.packetsReceived 1
          sequenceErrors := up rx.counters.sequenceErrors (if ahead = 0 then 0 else 1)
          payloadErrors := up rx.counters.payloadErrors (if good then 0 else 1)
          bufferOverflows := up rx.counters.bufferOverflows (if lost then 1 else 0)
          periodErrors := up rx.counters.periodErrors (if period.outOfTolerance then 1 else 0)
          damagedLines := up rx.counters.damagedLines hurt.length } }
      ∧ (rx.mode = .normal → good = true → lost = false →
        (t.lane n).store = { listed with buffer := match store.opening with
          | .unstored => longer.dropWhile fun b => b.tag == .current
          | _ => longer }
        ∧ (t.lane n).dust = { (s.lane n).dust with
          gathering := (s.lane n).dust.gathering.map (StatSet.addLine q.word1 q.payload) })
      ∧ (rx.mode = .normal → (good = false ∨ lost = true) →
        (t.lane n).store = listed ∧ (t.lane n).dust = (s.lane n).dust)
      ∧ (rx.mode = .check → (t.lane n).store = store ∧ (t.lane n).dust = (s.lane n).dust)
      ∧ (t.lane n).test = (s.lane n).test ∧ (t.lane n).relay = relay.1 ∧ t.chan = (s.offerAll relay.2).chan
      ∧ (∀ k, k ≠ n → t.lane k = s.lane k) ∧ (t.lane n).motion = (s.lane n).motion
      ∧ (t.lane n).purge = (s.lane n).purge ∧ t.timing = s.timing ∧ t.comp = s.comp ∧ t.dram = s.dram
      ∧ t.jobs = s.jobs ∧ t.pending = s.pending

/-- R10, R13, R14, R15, R5, R9, R19 and R49: a FRAME_END in ACQUIRING or LOCKED, short of the 32nd fault. With no open
frame, or with another frame number, it is faulty and closes nothing. Otherwise it closes the frame: the lines from
the expected one up to H are missing, which is one fault, and damaged. The second clean frame in ACQUIRING locks the
lane: LOCKED, both runs 0, the lane geometry that of acquisition, the counter locks raised by one and a LANE_STATE
report with cause LOCK offered, with the health count and the attempts as the FRAME_END finds them once it is judged
(the model's choice, log 12). A frame closed in LOCKED with no more than Dmax damaged lines lengthens the run, which
clears the attempts at 300; one with more ends it. Either way the close is handed to the Frame Store Controller (R49)
with the missing lines entered in the frame's record. -/
def Obligations.FrameEndClosesTheFrame : Prop :=
  ∀ (m : Moment) (s : State) (n : Lane) (bytes : List Byte) (q : Packet) (g : Geometry),
    let rx := (s.lane n).rx
    let store := (s.lane n).store
    let relay := Relay.takePacket n (max s.now m.tick) (some q.relay) (s.lane n).relay
    let up := fun x k : Nat => if k = 0 then x else min 4294967295 (x + k)
    let ends := ∃ f, rx.openFrame = some f ∧ f.number = q.number
    let missing := g.h - rx.expectedLine
    s.resetAsserted = false → (rx.state = .acquiring ∨ rx.state = .locked) → rx.mode ≠ .internal →
    parsePacket bytes = some q → q.kind = .frameEnd → rx.acquisition = some g →
    (rx.health + 1 < 32 ∨ (ends ∧ missing = 0)) →
    let heard := { rx with
      silenceDue := some (max s.now m.tick + msTicks rx.silenceTimeout)
      counters := { rx.counters with packetsReceived := up rx.counters.packetsReceived 1 } }
    ∃ t, exec (.cameraPacket m n bytes) s = .next t
      ∧ (¬ends → (t.lane n).rx = (if rx.openFrame = none then { heard with
            health := rx.health + 1
            counters := { heard.counters with sequenceErrors := up rx.counters.sequenceErrors 1 } }
          else { heard with
            health := rx.health + 1
            counters := { heard.counters with frameNumberErrors := up rx.counters.frameNumberErrors 1 } })
        ∧ (t.lane n).store = store ∧ (t.lane n).dust = (s.lane n).dust ∧ t.jobs = s.jobs
        ∧ t.chan = (s.offerAll relay.2).chan)
      ∧ (∀ f, rx.openFrame = some f → f.number = q.number →
        let damaged := rx.damagedCount + missing
        let clean := damaged = 0 ∧ rx.periodError = false
        let locks := rx.state = .acquiring ∧ clean ∧ 1 ≤ rx.cleanFrames
        let health := if missing = 0 then rx.health else rx.health + 1
        let closed := { heard with
          openFrame := none, mark := none, damagedCount := damaged, health := health
          counters := { heard.counters with
            sequenceErrors := if missing = 0 then rx.counters.sequenceErrors else up rx.counters.sequenceErrors 1
            damagedLines := up rx.counters.damagedLines missing
            framesDiscarded := (t.lane n).rx.counters.framesDiscarded
            framesSkipped := (t.lane n).rx.counters.framesSkipped
            framesDropped := (t.lane n).rx.counters.framesDropped } }
        let tables := (t.lane n).dust
        (locks → (t.lane n).rx = { closed with
            state := .locked, cleanFrames := 0, lockedRun := 0, geometry := g
            counters := { closed.counters with locks := up rx.counters.locks 1 } }
          ∧ (g ≠ rx.geometry → (t.lane n).motion.jitterX = 0 ∧ (t.lane n).motion.jitterY = 0
            ∧ (t.lane n).motion.referenceValid = false ∧ tables.level = 0 ∧ tables.band = 0
            ∧ tables.table = List.replicate (g.w / 64 * (g.h / 32)) ⟨false, .clear, 0, 0, 0, 16, 0⟩
            ∧ ∀ p ∈ t.comp.plan, p.record.lane = n → p.content = .lost)
          ∧ (f.openedIn = .acquiring → (∀ j ∈ s.jobs.head?, j.run.isSome = true) →
            t.chan = ((s.offerAll relay.2).offer ⟨.laneState, none, .ok,
              byte1 n.val ++ [2, 3, 3] ++ byte1 health ++ byte1 rx.attempts⟩).chan
            ∧ (g ≠ rx.geometry → ∀ i, (store.slotOf .ready = some i ∨ store.slotOf .showing = some i) →
              (t.lane n).store.ring.get i = none)))
        ∧ (rx.state = .acquiring → clean → rx.cleanFrames = 0 → (t.lane n).rx = { closed with cleanFrames := 1 })
        ∧ (rx.state = .acquiring → ¬clean → (t.lane n).rx = { closed with cleanFrames := 0 })
        ∧ (rx.state = .locked → damaged ≤ rx.dmax → (t.lane n).rx = { closed with
          lockedRun := min 300 (rx.lockedRun + 1), attempts := if 299 ≤ rx.lockedRun then 0 else rx.attempts })
        ∧ (rx.state = .locked → rx.dmax < damaged → (t.lane n).rx = { closed with lockedRun := 0 })
        ∧ (let entered := ((List.range missing).map (rx.expectedLine + ·)).take (32 - rx.damagedCount)
          let judged := ((s.advance m).modLane n fun l => { l with
            relay := relay.1
            rx := { heard with
              damagedCount := damaged, health := health
              counters := { heard.counters with
                sequenceErrors := if missing = 0 then rx.counters.sequenceErrors else up rx.counters.sequenceErrors 1
                damagedLines := up rx.counters.damagedLines missing } }
            store := if rx.mode = .check then store else match store.opening with
              | .stored i => { store with ring := store.ring.modify i (Option.map fun h =>
                { h with record := { h.record with damaged := h.record.damaged ++ entered } }) }
              | .deferred number size listed => { store with opening := .deferred number size (listed ++ entered) }
              | _ => store }).offerAll relay.2
          let handed := if rx.mode = .check then judged else judged.storeClose n damaged rx.dmax f.openedIn
          let locked := handed.lock n
          let kept := handed.modRx n fun _ => (t.lane n).rx
          t = (if locks then locked.modRx n fun r => { r with openFrame := none, mark := none } else kept).serve))
      ∧ (t.lane n).relay = relay.1
      ∧ (∀ k, k ≠ n → (t.lane k).rx.judged = (s.lane k).rx.judged ∧ (t.lane k).relay = (s.lane k).relay)
      ∧ (∀ k, (t.lane k).test = (s.lane k).test) ∧ t.timing = s.timing ∧ t.dram = s.dram
      ∧ t.chan.apartReports = s.chan.apartReports ∧ t.pending = s.pending

/-- R3, R13, R16, R18, R19, R21 and R164: a bad header in ACQUIRING or LOCKED counts a header error and raises the
health count; from 31 it takes the lane down to FAULTED with the count at 32 and the recovery timer started, or at the
fourth attempt to LOCKED_OUT with the count at 0. The silence timer takes a receiving lane to SILENT with one more
attempt and the recovery timer started, and at the fourth attempt to LOCKED_OUT with no recovery timer; its frame is
dropped, its messages fail, it is no timing master, LANE_FAULT and, in LOCKED_OUT, LANE_LOCKOUT are raised. The entry
to LOCKED_OUT asserts FAULT; any other down entry and the recovery leave it. A down entry counts faults or silences,
and lockouts at the fourth attempt, offers a LANE_STATE report with cause HEALTH or SILENCE, delivers the lane down
(LaneDownReachesTheBlocks) and ends the lane as timing master, in that order. The recovery timer brings FAULTED and
SILENT back to SEARCHING with the attempts kept, by a channel restart of cause RECOVERY (ChannelRestartCompletes). The
model's choices: a down entry's report carries the attempts after their increment (log 12); expected line, damaged
count, period error and last line mark stay (log 13); a PURGE report of a job that then starts comes before the TIMING
report (log 35). -/
def Obligations.LanesGoDown : Prop :=
  (∀ (m : Moment) (s : State) (n : Lane) (due : Nat), s.resetAsserted = false → due ≤ max s.now m.tick →
     let rx := (s.lane n).rx
     let others : State → Prop := fun t =>
       (t.lane n).relay.queue = [] ∧ t.timing.master ≠ some n
         ∧ (∀ k, k ≠ n → (t.lane k).rx.judged = (s.lane k).rx.judged ∧ (t.lane k).relay = (s.lane k).relay)
         ∧ (∀ k, (t.lane k).test = (s.lane k).test) ∧ t.dram = s.dram ∧ t.pending = s.pending
     ((rx.state = .acquiring ∨ rx.state = .locked) → rx.silenceDue = some due → rx.attempts ≤ 3 →
       ∃ t, exec (.silenceTimerExpiry m n) s = .next t
         ∧ t = ((s.advance m).downEntry n .silence).serve ∧ others t
         ∧ (t.lane n).rx.judged = { rx.judged with
           state := if rx.attempts = 3 then .lockedOut else .silent, attempts := rx.attempts + 1, health := 0
           recoveryDue := if rx.attempts = 3 then rx.recoveryDue
             else some (max s.now m.tick + msTicks rx.recoveryDelay)
           openFrame := none, silenceDue := none, cleanFrames := 0, lockedRun := 0, expectedFrame := none }
         ∧ t.chan.isSet (.laneFault n) = true ∧ t.chan.isReported (.laneFault n) = false
         ∧ (rx.attempts = 3 → t.chan.isSet (.laneLockout n) = true ∧ t.faultLine = true)
         ∧ (rx.attempts ≠ 3 → t.faultLine = s.faultLine))
     ∧ ((rx.state = .faulted ∨ rx.state = .silent) → rx.recoveryDue = some due →
       ∃ t, exec (.recoveryTimerExpiry m n) s = .next t
         ∧ t = ((s.advance m).channelRestart n .recovery none).serve ∧ others t
         ∧ (t.lane n).rx.state = .searching ∧ (t.lane n).rx.health = 0 ∧ (t.lane n).rx.attempts = rx.attempts
         ∧ (t.lane n).rx.acquisition = none ∧ (t.lane n).rx.recoveryDue = none ∧ t.faultLine = s.faultLine))
  ∧ (∀ (m : Moment) (s : State) (n : Lane) (bytes : List Byte),
       let rx := (s.lane n).rx
       s.resetAsserted = false → (rx.state = .acquiring ∨ rx.state = .locked) → rx.mode ≠ .internal →
       parsePacket bytes = none → rx.attempts ≤ 3 →
       ∃ t, exec (.cameraPacket m n bytes) s = .next t
         ∧ (rx.health < 31 → (t.lane n).rx = { rx with
           health := rx.health + 1
           counters := { rx.counters with
             packetsReceived := min 4294967295 (rx.counters.packetsReceived + 1)
             headerErrors := min 4294967295 (rx.counters.headerErrors + 1) } } ∧ t.timing = s.timing
           ∧ t.faultLine = s.faultLine)
         ∧ (rx.health = 31 → (t.lane n).rx.judged = { rx.judged with
             state := if rx.attempts = 3 then .lockedOut else .faulted, attempts := rx.attempts + 1
             health := if rx.attempts = 3 then 0 else 32
             recoveryDue := if rx.attempts = 3 then rx.recoveryDue
               else some (max s.now m.tick + msTicks rx.recoveryDelay)
             openFrame := none, silenceDue := none, cleanFrames := 0, lockedRun := 0, expectedFrame := none }
           ∧ (t.lane n).relay.queue = [] ∧ t.timing.master ≠ some n
           ∧ (rx.attempts = 3 → t.faultLine = true) ∧ (rx.attempts ≠ 3 → t.faultLine = s.faultLine))
         ∧ (∀ k, k ≠ n → (t.lane k).rx.judged = (s.lane k).rx.judged ∧ (t.lane k).relay = (s.lane k).relay)
         ∧ (∀ k, (t.lane k).test = (s.lane k).test) ∧ t.dram = s.dram ∧ t.pending = s.pending)
  ∧ (∀ (s : State) (n : Lane) (silent : Bool),
       let rx := (s.lane n).rx
       let up := fun x : Nat => min 4294967295 (x + 1)
       let state : Nat := match rx.state with
         | .off => 0 | .searching => 1 | .acquiring => 2 | .locked => 3 | .faulted => 4 | .silent => 5 | .lockedOut => 6
       let attempts := min 4 (rx.attempts + 1)
       let lockout := decide (attempts = 4)
       let raised := BitVec.ofNat 24 ((if lockout then 17 else 1) * 2 ^ n.val)
       let down : State := { s with
         lanes := s.lanes.modify n fun l => { l with rx := { l.rx with
           attempts := attempts, state := if lockout then .lockedOut else if silent then .silent else .faulted
           health := if lockout || silent then 0 else 32
           recoveryDue := if lockout then l.rx.recoveryDue else some (s.now + msTicks l.rx.recoveryDelay)
           openFrame := none, silenceDue := none, cleanFrames := 0, lockedRun := 0, expectedFrame := none
           counters := { l.rx.counters with
             lockouts := if lockout then up l.rx.counters.lockouts else l.rx.counters.lockouts
             faults := if silent then l.rx.counters.faults else up l.rx.counters.faults
             silences := if silent then up l.rx.counters.silences else l.rx.counters.silences } } }
         chan := { s.chan with flags := s.chan.flags ||| raised, reported := s.chan.reported &&& ~~~raised } }
       let report : Notice := ⟨.laneState, none, .ok, byte1 n.val ++ byte1 state
         ++ [if lockout then 6 else if silent then 5 else 4, if silent then 5 else 4]
         ++ byte1 rx.health ++ byte1 attempts⟩
       s.downEntry n (if silent then .silence else .health) = ((down.offer report).deliverLaneDown n).checkMaster n)

/-- R5 to R10, R13, R16 and R21: the 32nd fault through a FRAME_START, a LINE or a FRAME_END with a good header, from
a health count of 31: the packet's faults and damaged lines are counted, and the lane goes down by a down entry of
cause HEALTH (LanesGoDown says what that is) with the count at 32. The packet has no further effect: a FRAME_START
opens no frame, a LINE is not taken, so that neither line period nor mark nor expected line moves and nothing is
stored, and a FRAME_END closes no frame. The model's choices: a LINE at the expected line number still counts all its
errors and, bad or lost, is entered as damaged (log 11), and a FRAME_START in CHECK counts the frame it overtakes as
discarded (log 14), and after it and after the down entry the fields that R6 and R16 do not list stay (log 13). -/
def Obligations.ThirtySecondFaultGoesDown : Prop :=
  ∀ (m : Moment) (s : State) (n : Lane) (bytes : List Byte) (q : Packet) (g : Geometry),
    let rx := (s.lane n).rx
    let store := (s.lane n).store
    let relay := Relay.takePacket n (max s.now m.tick) (some q.relay) (s.lane n).relay
    let up := fun x k : Nat => if k = 0 then x else min 4294967295 (x + k)
    s.resetAsserted = false → (rx.state = .acquiring ∨ rx.state = .locked) → rx.mode ≠ .internal →
    parsePacket bytes = some q → rx.acquisition = some g → rx.health = 31 →
    let heard := { rx.counters with packetsReceived := up rx.counters.packetsReceived 1 }
    let sequence := { heard with sequenceErrors := up rx.counters.sequenceErrors 1 }
    let misnumbered := { heard with frameNumberErrors := up rx.counters.frameNumberErrors 1 }
    let down := fun (counters : LaneCounters) (hurt : List Nat) =>
      let entered := if rx.mode = .check then [] else hurt.take (32 - rx.damagedCount)
      let left : LaneStore := match store.opening with
        | .stored i => { store with ring := store.ring.modify i (Option.map fun h =>
          { h with record := { h.record with damaged := h.record.damaged ++ entered } }) }
        | .deferred number size listed => { store with opening := .deferred number size (listed ++ entered) }
        | _ => store
      (((({ s.advance m with lanes := s.lanes.modify n fun l => { l with
        relay := relay.1, store := left
        rx := { l.rx with
          health := 32, damagedCount := rx.damagedCount + hurt.length
          counters := { counters with damagedLines := up rx.counters.damagedLines hurt.length } } } } : State).offerAll
            relay.2).downEntry n .health).serve)
    let wrongNumber := ∃ f, rx.openFrame = some f ∧ f.number ≠ q.number
    let rightNumber := ∃ f, rx.openFrame = some f ∧ f.number = q.number
    (q.kind = .frameStart →
      (g ≠ ⟨q.word1, q.word3⟩ → exec (.cameraPacket m n bytes) s =
        .next (down { heard with geometryErrors := up rx.counters.geometryErrors 1 } []))
      ∧ (g = ⟨q.word1, q.word3⟩ →
        let overtaken := rx.openFrame.isSome
        let other := rx.expectedFrame.any fun e => e != q.number
        let cut := overtaken && store.buffer.head?.any fun b => b.tag == .current
        let ring := match store.opening with
          | .stored i => store.ring.set i none
          | _ => store.ring
        overtaken = true ∨ other = true →
        exec (.cameraPacket m n bytes) s = .next (((({ s.advance m with
          arb := { s.arb with port := s.arb.port.map fun tr => { tr with live := tr.live && !(cut && (match tr.kind with
            | .write lane _ _ _ _ => lane == n
            | _ => false)) } }
          lanes := s.lanes.modify n fun l => { l with
            relay := relay.1
            store := if overtaken then { store with
                ring := ring, opening := .closed, buffer := store.buffer.filter fun b => b.tag != .current }
              else store
            dust := if overtaken then { l.dust with gathering := none } else l.dust
            rx := { l.rx with
              health := 32
              counters := { heard with
                framesDiscarded := up rx.counters.framesDiscarded (if overtaken then 1 else 0)
                sequenceErrors := up rx.counters.sequenceErrors (if overtaken then 1 else 0)
                frameNumberErrors := up rx.counters.frameNumberErrors (if other then 1 else 0) } } } } : State).offerAll
                  relay.2).downEntry n .health).serve)))
    ∧ (q.kind = .line →
      (wrongNumber → exec (.cameraPacket m n bytes) s = .next (down misnumbered []))
      ∧ ((rx.openFrame = none ∨ (rightNumber ∧ (g.h ≤ q.word1 ∨ q.word1 < rx.expectedLine))) →
        exec (.cameraPacket m n bytes) s = .next (down sequence []))
      ∧ (rightNumber → rx.expectedLine < q.word1 → q.word1 < g.h → exec (.cameraPacket m n bytes) s =
        .next (down sequence ((List.range (q.word1 - rx.expectedLine)).map (rx.expectedLine + ·))))
      ∧ (rightNumber → q.word1 = rx.expectedLine → q.word1 < g.h →
        let good := q.payloadOk && q.payload.length == 2 * g.w
        let lost := good && rx.mode != .check && decide (2 ≤ store.buffer.length)
        let out := (rx.measurePeriod q.word1 (max s.now m.tick)).outOfTolerance
        good = false ∨ lost = true ∨ out = true → exec (.cameraPacket m n bytes) s =
          .next (down { heard with
            payloadErrors := up rx.counters.payloadErrors (if good then 0 else 1)
            bufferOverflows := up rx.counters.bufferOverflows (if lost then 1 else 0)
            periodErrors := up rx.counters.periodErrors (if out then 1 else 0) }
            (if good && !lost then [] else [q.word1]))))
    ∧ (q.kind = .frameEnd →
      (wrongNumber → exec (.cameraPacket m n bytes) s = .next (down misnumbered []))
      ∧ (rx.openFrame = none → exec (.cameraPacket m n bytes) s = .next (down sequence []))
      ∧ (rightNumber → rx.expectedLine < g.h → exec (.cameraPacket m n bytes) s =
        .next (down sequence ((List.range (g.h - rx.expectedLine)).map (rx.expectedLine + ·)))))

/-! ### Relay and link test -/

/-- R28 to R30 and R180: the forward word that answers each packet, built from the context as the header left it: a
part-abort word while abort words are owed, which counts one off, and with the last of them the head message goes in
flight, when none is; the byte at the byte index with the send toggle and its end mark while a message is being sent,
which is then offered; otherwise an idle word with the held toggle. -/
def Obligations.EveryPacketIsAnswered : Prop :=
  ∀ (n : Lane) (now : Nat) (fields : Option RelayFields) (r : Relay),
    let u := match fields with
      | none => { r with candidate := none }
      | some f => (r.takeHeader n now f).1
    let t := (r.takePacket n now fields).1
    let word := fun (b : Byte) (toggle last abort ack : Bool) =>
      let body : List Byte := [b, BitVec.ofNat 8 (128 * toggle.toNat + 64 * last.toNat + 32 * abort.toNat
        + 16 * ack.toNat)]
      some (body ++ crcBytes body)
    (0 < u.abortOwed →
      let sent := { u with abortOwed := u.abortOwed - 1, forwardWord := word 0 false false true false }
      t = if u.abortOwed = 1 ∧ u.queue ≠ [] ∧ u.inFlight = none then
        { sent with
          inFlight := some .sending, byteIndex := 0, offered := false, taken := 0, reply := []
          progressDue := some (now + msTicks u.timeout) }
      else sent)
    ∧ (∀ k rest, u.abortOwed = 0 → u.inFlight = some .sending → u.queue = k :: rest →
      t = { u with
        offered := true
        forwardWord := word (k.bytes.getD u.byteIndex 0) u.sendToggle (u.byteIndex + 1 == k.bytes.length) false
          u.acceptedToggle })
    ∧ (u.abortOwed = 0 → u.inFlight ≠ some .sending →
      t = { u with forwardWord := word 0 (!u.sendToggle) false false u.acceptedToggle })

/-- R30 to R33, R35 and R37: a good header. In SENDING an ack toggle equal to the send toggle takes the byte offered
and moves to the next, or to AWAITING_REPLY after the last, where the reply fields of the same header are read at
once. In AWAITING_REPLY a new reply byte, at once without the double look and else when the candidate agrees, joins
the reply, or with reply end finishes the message with its RELAY_DONE report, and the next message goes in flight. A
new byte with 32 held fails the message with OVERLONG, and two abort words are owed. A new camera abort fails the
message in flight with ABORTED and resynchronises, before anything else is read. With none in flight a header sets the
candidate and the abort flag seen last, and a new abort resynchronises. The model's choices: no candidate is left
after OVERLONG (log 23), whose reply stays (log 24); a report carries command number 12 (log 25). -/
def Obligations.HeadersMoveTheMessage : Prop :=
  ∀ (n : Lane) (now : Nat) (f : RelayFields) (r : Relay),
    let look : Candidate := ⟨f.replyToggle, f.reply, f.replyEnd⟩
    let seen := { r with abortSeen := f.abort, candidate := some look }
    let restarted := some (now + msTicks r.timeout)
    let failed := fun (k : RelayMessage) (reason phase : Nat) => (⟨.relayFailed, some (12, k.tag), .ok,
      byte1 n.val ++ [k.tag] ++ byte1 reason ++ byte1 phase ++ byte1 r.taken ++ byte1 r.reply.length⟩ : Notice)
    let next := fun (u : Relay) (rest : List RelayMessage) =>
      if rest = [] then { u with queue := rest, inFlight := none, progressDue := none }
      else { u with
        queue := rest, inFlight := some .sending, byteIndex := 0, offered := false, taken := 0, reply := []
        progressDue := restarted }
    let new := f.replyToggle ≠ r.acceptedToggle ∧ (r.doubleLook = false ∨ r.candidate = some look)
    (∀ (k : RelayMessage) (rest : List RelayMessage), r.queue = k :: rest → r.abortOwed = 0 →
      (f.abort = false ∨ r.abortSeen = true) →
      (r.inFlight = some .sending → r.offered = true → f.ack = r.sendToggle →
        (r.byteIndex + 1 < k.bytes.length → r.takeHeader n now f = ({ seen with
          taken := r.taken + 1, sendToggle := !r.sendToggle, progressDue := restarted, byteIndex := r.byteIndex + 1
          offered := false }, []))
        ∧ (r.byteIndex + 1 = k.bytes.length →
          (¬new → r.takeHeader n now f = ({ seen with
            taken := r.taken + 1, sendToggle := !r.sendToggle, progressDue := restarted
            inFlight := some .awaitingReply }, []))
          ∧ r.takeHeader n now f = { r with
            taken := r.taken + 1, sendToggle := !r.sendToggle, progressDue := restarted
            inFlight := some .awaitingReply }.takeHeader n now f))
      ∧ (r.inFlight = some .sending → (r.offered = false ∨ f.ack ≠ r.sendToggle) → r.takeHeader n now f = (seen, []))
      ∧ (r.inFlight = some .awaitingReply →
        (¬new → r.takeHeader n now f = (seen, []))
        ∧ (new → r.reply.length < 32 → f.replyEnd = false → r.takeHeader n now f = ({ seen with
          acceptedToggle := f.replyToggle, progressDue := restarted, reply := r.reply ++ [f.reply] }, []))
        ∧ (new → r.reply.length < 32 → f.replyEnd = true → r.takeHeader n now f = (next { seen with
            acceptedToggle := f.replyToggle, reply := r.reply ++ [f.reply] } rest,
          [⟨.relayDone, some (12, k.tag), .ok, byte1 n.val ++ [k.tag] ++ byte1 (r.reply.length + 1) ++ r.reply
            ++ [f.reply]⟩]))
        ∧ (new → 32 ≤ r.reply.length → r.takeHeader n now f = ({ seen with
            queue := rest, inFlight := none, progressDue := none, sendToggle := true, acceptedToggle := false
            candidate := none, abortOwed := 2 }, [failed k 3 2]))))
    ∧ (f.abort = true → r.abortSeen = false →
      (∀ (phase : RelayPhase) (k : RelayMessage) (rest : List RelayMessage),
        r.inFlight = some phase → r.queue = k :: rest → r.abortOwed = 0 →
        r.takeHeader n now f = (next { seen with sendToggle := true, acceptedToggle := false, reply := [] } rest,
          [failed k 1 (match phase with | .sending => 1 | .awaitingReply => 2)]))
      ∧ (r.inFlight = none → (r.queue = [] ∨ 0 < r.abortOwed) →
        r.takeHeader n now f = ({ seen with sendToggle := true, acceptedToggle := false }, [])))
    ∧ ((f.abort = false ∨ r.abortSeen = true) → r.inFlight = none → (r.queue = [] ∨ 0 < r.abortOwed) →
      r.takeHeader n now f = (seen, []))

/-- R173, R174, R175, R2 and R28: the generator's packet, when it is due: a FRAME_START at the frame's start, its
LINEs one line time apart, and a FRAME_END one line time after the last; its frame number rises by one and wraps at
16, and the next frame starts H + 8 line times after this one. The checker takes a LINE's bits, also in OFF, where the
lane discards the packet; otherwise the lane counts and judges it. A checker in SYNC that stands one shift length
behind the generator agrees with every bit of the generator's next payload, or of its complement with the inverted
flag set, and stays so; a pending injected error adds exactly 1 to its count and is cleared (section 10.5). Each bit
of a sequence is the exclusive-or of the bits 5 and 9 places before it for SHORT, 14 and 15 for LONG; a payload
carries them most significant bit first, the first inverted by a pending error. In HUNT the checker loads a seed, then
predicts from the bits received; a run of one kind broken begins again, and 64 of one kind bring SYNC, inverted after
64 wrong ones. In SYNC it predicts from its own bits, counts each error, and goes to HUNT at 16 errors among the last
256 bits. -/
def Obligations.GeneratorAndCheckerAgree : Prop :=
  (∀ (m : Moment) (s : State) (n : Lane) (g : GeneratorRun),
     let l := s.lane n
     s.resetAsserted = false → l.rx.mode = .internal → l.test.genRun = some g →
     (if g.made = 0 then g.frameStart else if g.made ≤ g.geometry.h then g.frameStart + g.made * g.lineTime
       else g.frameStart + (g.geometry.h + 1) * g.lineTime) ≤ max s.now m.tick →
     let lineTime := usTicks s.timing.freeRun / (l.rx.geometry.h + 8)
     let line := l.test.makePayload g.geometry.w
     let made : Packet × LinkTest :=
       if g.made = 0 then
         (⟨.frameStart, l.test.genFrame, l.rx.geometry.w, l.rx.geometry.h, ⟨false, 0, false, false, false⟩, [], true⟩,
           { l.test with genRun := some ⟨g.frameStart, lineTime, l.rx.geometry, 1⟩ })
       else if g.made ≤ g.geometry.h then
         (⟨.line, l.test.genFrame, g.made - 1, 0, ⟨false, 0, false, false, false⟩, line.1, true⟩,
           { line.2 with genRun := some { g with made := g.made + 1 } }.takePayload line.1)
       else
         (⟨.frameEnd, l.test.genFrame, 0, 0, ⟨false, 0, false, false, false⟩, [], true⟩,
           { l.test with
             genFrame := (l.test.genFrame + 1) % 16
             genRun := some { g with frameStart := g.frameStart + (g.geometry.h + 8) * g.lineTime, made := 0 } })
     let u := (s.advance m).modTest n fun _ => made.2
     exec (.generatorPacket m n) s = .next
       (if l.rx.state = .off then u else ((u.countPacket n).lanePacket n (some made.1)).serve))
  ∧ (∀ (t : LinkTest) (w : Nat), 0 < w →
       t.checker = .sync → t.chkShift.length = t.pattern.seedLength →
       t.genShift = (t.pattern.generate t.pattern.seedLength t.chkShift).2 → (t.window.countP id) ≤ 14 →
       let line := t.makePayload w
       let after := line.2.takePayload (if t.inverted then line.1.map fun b => ~~~b else line.1)
       line.1.length = 2 * w ∧ after.checker = .sync ∧ after.inverted = t.inverted
         ∧ after.errorCount = (if t.injectPending then min 65535 (t.errorCount + 1) else t.errorCount)
         ∧ after.injectPending = false ∧ after.chkShift.length = t.pattern.seedLength
         ∧ after.genShift = (t.pattern.generate t.pattern.seedLength after.chkShift).2)
  ∧ (∀ (p : Pattern) (k : Nat) (shift : List Bool),
       let taps : Nat × Nat := match p with | .short => (5, 9) | .long => (14, 15)
       shift.length = taps.2 →
       let bits := (p.generate (k + taps.2) shift).1
       bits.length = k + taps.2 ∧ bits.take taps.2 = shift ∧ p.generate k shift = (bits.take k, bits.drop k)
         ∧ (∀ i, taps.2 ≤ i → i < k + taps.2 →
           bits.getD i false = (bits.getD (i - taps.1) false != bits.getD (i - taps.2) false)))
  ∧ (∀ (t : LinkTest) (w : Nat) (payload : List Byte),
       let line := t.makePayload w
       let bits := (t.pattern.generate (16 * w) t.genShift).1
       line.2 = { t with genShift := (t.pattern.generate (16 * w) t.genShift).2, injectPending := false }
         ∧ (∀ i < 2 * w, ∀ j < 8, (line.1.getD i 0).getLsbD (7 - j)
           = (bits.getD (8 * i + j) false != (t.injectPending && 8 * i + j == 0)))
         ∧ t.takePayload payload
           = (payload.flatMap fun b => (List.range 8).map fun j => b.getLsbD (7 - j)).foldl LinkTest.takeBit t)
  ∧ (∀ (t : LinkTest) (b : Bool),
       let predicted := match t.pattern with
         | .short => t.chkShift.getD 4 false != t.chkShift.getD 0 false
         | .long => t.chkShift.getD 1 false != t.chkShift.getD 0 false
       let length := match t.pattern with | .short => 9 | .long => 15
       let correct := predicted == b
       let shift := t.chkShift.drop 1 ++ [b]
       let goesOn := t.run = 0 ∨ t.runCorrect = correct
       (t.checker = .hunt → t.seedCount < length → t.takeBit b = { t with
         chkShift := (t.chkShift ++ [b]).drop (t.chkShift.length + 1 - length), seedCount := t.seedCount + 1 })
       ∧ (t.checker = .hunt → length ≤ t.seedCount →
         (¬goesOn → t.takeBit b = { t with chkShift := shift, run := 0, seedCount := 0 })
         ∧ (goesOn → t.run + 1 ≠ 64 → t.takeBit b = { t with chkShift := shift, run := t.run + 1, runCorrect := correct })
         ∧ (goesOn → t.run + 1 = 64 → t.takeBit b = { t with
           checker := .sync, inverted := !correct, run := 64, runCorrect := correct, window := []
           chkShift := if correct then shift else shift.map fun x => !x }))
       ∧ (t.checker = .sync →
         let error := b != (predicted != t.inverted)
         let window := t.window.drop (t.window.length - 255) ++ [error]
         let counted := { t with
           errorCount := if error then min 65535 (t.errorCount + 1) else t.errorCount
           chkShift := t.chkShift.drop 1 ++ [predicted], window := window }
         t.takeBit b = if 16 ≤ window.countP id then { counted with
             checker := .hunt, inverted := false, seedCount := 0, run := 0, window := [] }
           else counted))

/-! ### Tiles, the frame store and jobs -/

/-- R90 to R96: the classification of a measured tile. Uninitialised, it takes the measurement as its background.
CLEAR, it becomes DUSTY exactly when it is brighter by Trise and its detail has fallen to Kdrop/16; DUSTY, it stays so
within half of Trise and two sixteenths more. A DUSTY tile keeps its background and ages; a CLEAR one moves it an
eighth of the way. -/
def Obligations.TilesAreClassified : Prop :=
  ∀ (k : DustSettings) (t : TileRecord) (v luma detail : Nat),
    let c := classifyTile k t v luma detail
    let mu := luma / (64 * v)
    let act := detail / (63 * v)
    (v = 0 → c = ⟨t, t.gain⟩)
    ∧ (0 < v → t.initialised = false →
      c = ⟨⟨true, .clear, 16 * mu, 16 * act, 0, t.gain, mu⟩, 16⟩)
    ∧ (0 < v → t.initialised = true →
      let dusty := match t.state with
        | .clear => (16 * k.trise : Int) ≤ 16 * mu - t.mean ∧ 256 * act ≤ t.activity * k.kdrop
        | .dusty => (8 * k.trise : Int) ≤ 16 * mu - t.mean ∧ 256 * act ≤ t.activity * (k.kdrop + 2)
      (dusty → c = ⟨{ t with state := .dusty, age := min 255 (t.age + 1), lastMean := mu },
        clampNat 16 k.gmax (t.activity / max act 1)⟩)
      ∧ (¬dusty → c = ⟨{ t with
        state := .clear, age := 0, lastMean := mu
        mean := ((t.mean : Int) + (16 * (mu : Int) - t.mean).tdiv 8).toNat
        activity := ((t.activity : Int) + (16 * (act : Int) - t.activity).tdiv 8).toNat }, 16⟩))

/-- R41, R48, R49 and R60: the completion of a lane write puts the segment's bytes at the address R41 gives and no
other byte anywhere; then the head line has one segment more written, or leaves the buffer after its last, also while
a commit is pending that another line, or the rest of this one, still holds up. A frame opened in ACQUIRING whose last
line this was is committed: its slot is freed. A write whose line was discarded leaves the DRAM and the lanes as they
were (log 16); one beyond the DRAM faults (log 18). That the bytes move at the completion is the model's choice (log
17). -/
def Obligations.LaneWriteCompletes : Prop :=
  ∀ (m : Moment) (s : State) (n : Lane) (slot : Fin 4) (line k : Nat) (data : List Byte) (due : Nat) (live : Bool),
    s.arb.port = some ⟨.write n slot line k data, due, live⟩ → due ≤ max s.now m.tick →
    let address := n.val * 8388608 + slot.val * 2097152 + line * 2560 + 512 * k
    let freed := { s.advance m with arb := { s.arb with port := none } }
    let store := (s.lane n).store
    let others : State → Prop := fun t =>
      (∀ i, i ≠ n → (t.lane i).store = (s.lane i).store) ∧ (∀ i, (t.lane i).test = (s.lane i).test
          ∧ (t.lane i).rx.judged = (s.lane i).rx.judged ∧ (t.lane i).relay = (s.lane i).relay)
        ∧ t.timing = s.timing ∧ t.comp = s.comp ∧ t.tx = s.tx ∧ t.tone = s.tone
        ∧ t.chan.apartReports = s.chan.apartReports ∧ t.pending = s.pending ∧ t.arb.owed = s.arb.owed
    (live = false → exec (.laneWriteComplete m) s = .next freed.serve)
    ∧ (live = true → 33554432 < address + data.length → exec (.laneWriteComplete m) s = .fault .dramAddress)
    ∧ (live = true → address + data.length ≤ 33554432 → ∃ t, exec (.laneWriteComplete m) s = .next t
      ∧ (∀ i < data.length, some (Memory.read (address + i) t.dram) = data[i]?)
      ∧ (∀ a, (a < address ∨ address + data.length ≤ a) → Memory.read a t.dram = Memory.read a s.dram))
    ∧ (∀ b rest, live = true → address + data.length ≤ 33554432 → store.buffer = b :: rest →
      (512 * (b.written + 1) < b.payload.length →
        (store.pendingCommit = none ∨ ∃ c ∈ b :: rest, c.tag = .committing) →
        ∃ t, exec (.laneWriteComplete m) s = .next t ∧ others t
          ∧ (t.lane n).store = { store with buffer := { b with written := b.written + 1 } :: rest })
      ∧ (b.payload.length ≤ 512 * (b.written + 1) →
        (store.pendingCommit = none ∨ ∃ c ∈ rest, c.tag = .committing) → store.opening ≠ .unstored →
        ∃ t, exec (.laneWriteComplete m) s = .next t ∧ others t ∧ t.jobs = s.jobs
          ∧ (t.lane n).store = { store with buffer := rest })
      ∧ (∀ damaged dmax, b.payload.length ≤ 512 * (b.written + 1) → rest = [] → store.opening = .closed →
        store.pendingCommit = some ⟨slot, damaged, dmax, .acquiring⟩ → (∀ j ∈ s.jobs.head?, j.run.isSome = true) →
        ∃ t, exec (.laneWriteComplete m) s = .next t ∧ others t ∧ t.jobs = s.jobs
          ∧ (t.lane n).store = { store with ring := store.ring.set slot none, buffer := [], pendingCommit := none }))

/-- R47, R49, R50, R51, R63, R88 and R89: the commit of a closed frame. One opened in ACQUIRING, and one with more
than Dmax damaged lines, which is counted as discarded, leaves its slot FREE. Otherwise the slot is CONDITIONING and
its job enters the queue's tail with its tile statistics; it takes the place of a queued job of the lane, whose slot
is FREE and whose frame is counted as skipped; while the lane's job runs it is skipped itself. Then a deferred opening
takes the lowest-numbered FREE slot with the damaged lines kept for it, and the engine starts what it can, in that
order (the model's choice, log 15). A close commits at once when the buffer holds no line of the frame, else with the
last such line written, and a frame with no slot is discarded. -/
def Obligations.CommitsMakeJobs : Prop :=
  (∀ (n : Lane) (p : PendingCommit) (s : State),
      let store := (s.lane n).store
      let dust := (s.lane n).dust
      let own := s.jobs.find? fun j => j.lane == n
      let fit := p.openedIn = .locked ∧ p.damaged ≤ p.dmax
      let taken := fit ∧ own.any (·.run.isSome) = false
      let freed := match own with
        | some j => store.ring.set j.slot none
        | none => store.ring
      let ring := if taken then freed.modify p.slot (Option.map fun h => { h with role := .conditioning })
        else store.ring.set p.slot none
      let job : Job := ⟨n, p.slot, (store.ring.get p.slot).elim 0 (·.record.number), none⟩
      let up := fun x : Nat => min 4294967295 (x + 1)
      let u : State := { s with
        lanes := s.lanes.modify n fun l => { l with
          rx := { l.rx with counters := { l.rx.counters with
            framesDiscarded := if p.openedIn = .locked ∧ p.dmax < p.damaged then up l.rx.counters.framesDiscarded
              else l.rx.counters.framesDiscarded
            framesSkipped := if fit ∧ own.isSome = true then up l.rx.counters.framesSkipped
              else l.rx.counters.framesSkipped } }
          dust := if taken then { dust with jobSet := dust.closedSet, closedSet := none }
            else { dust with closedSet := none }
          store := match store.opening with
            | .deferred number g damaged =>
              match ([0, 1, 2, 3] : List (Fin 4)).find? fun i => (ring.get i).isNone with
              | some i => { store with
                pendingCommit := none, opening := .stored i
                ring := ring.set i (some ⟨.filling, ⟨number, g, damaged, none⟩⟩) }
              | none => { store with
                pendingCommit := none, opening := .unstored, ring := ring
                buffer := store.buffer.dropWhile fun b => b.tag == .current }
            | _ => { store with pendingCommit := none, ring := ring } }
        jobs := if taken then
            if own.isSome = true then s.jobs.map fun k => if k.lane = n then job else k else s.jobs ++ [job]
          else s.jobs }
      s.commit n p = u.startJobs)
  ∧ (∀ (n : Lane) (damaged dmax : Nat) (openedIn : OpenedIn) (s : State),
      let store := (s.lane n).store
      (∀ slot, store.opening = .stored slot →
        let p : PendingCommit := ⟨slot, damaged, dmax, openedIn⟩
        let u := { s with lanes := s.lanes.modify n fun l => { l with
          store := { store with
            pendingCommit := some p, opening := .closed
            buffer := store.buffer.map fun b => { b with tag := .committing } }
          dust := { l.dust with closedSet := l.dust.gathering, gathering := none } } }
        s.storeClose n damaged dmax openedIn = if store.buffer = [] then u.commit n p else u)
      ∧ (store.opening = .closed → s.storeClose n damaged dmax openedIn = s)
      ∧ ((store.opening = .unstored ∨ ∃ number g list, store.opening = .deferred number g list) →
        let cut := fun tr : Transfer => (store.buffer.head?.any fun b => b.tag == .current) && (match tr.kind with
          | .write lane _ _ _ _ => lane == n
          | _ => false)
        s.storeClose n damaged dmax openedIn = { s with
          arb := { s.arb with port := s.arb.port.map fun tr => { tr with live := tr.live && !cut tr } }
          lanes := s.lanes.modify n fun l => { l with
            store := { store with opening := .closed, buffer := store.buffer.filter fun b => b.tag != .current }
            dust := { l.dust with gathering := none }
            rx := { l.rx with counters := { l.rx.counters with
              framesDiscarded := if openedIn = .locked then min 4294967295 (l.rx.counters.framesDiscarded + 1)
                else l.rx.counters.framesDiscarded } } } }))
  ∧ (∀ (m : Moment) (s : State) (n : Lane) (slot : Fin 4) (line k : Nat) (data : List Byte) (due : Nat)
        (b : BufferedLine) (rest : List BufferedLine) (p : PendingCommit),
      s.arb.port = some ⟨.write n slot line k data, due, true⟩ → due ≤ max s.now m.tick →
      n.val * 8388608 + slot.val * 2097152 + line * 2560 + 512 * k + data.length ≤ 33554432 →
      (s.lane n).store.buffer = b :: rest → b.payload.length ≤ 512 * (b.written + 1) →
      (∀ c ∈ rest, c.tag = .current) → (s.lane n).store.pendingCommit = some p → (s.lane n).store.opening ≠ .unstored →
      ∃ t, exec (.laneWriteComplete m) s = .next t
        ∧ t = ({ s.advance m with
          dram := t.dram, arb := { s.arb with port := none }
          lanes := s.lanes.modify n fun l => { l with store := { l.store with buffer := rest } } }.commit n p).serve)

/-- R41, R58, R60 and R66: the completion of a fetch holds the bytes read from the DRAM for its output line, and the
completion of a conditioning read hands them to the running job, which waits for its anchor's next segment while one
is missing (AnchorsAreSearched says what the last one makes). Either frees the port, the arbiter grants, and the DRAM
stays as it was. A read whose data is discarded only frees the port; one beyond the DRAM faults (log 18). The model's
choices: the bytes are read at the completion (log 17), and output line k takes line place k mod 2 (log 28). -/
def Obligations.PortReadsComplete : Prop :=
  ∀ (m : Moment) (s : State) (due : Nat) (live : Bool), due ≤ max s.now m.tick →
    let freed := { s.advance m with arb := { s.arb with port := none } }
    let address := fun (n : Lane) (slot : Fin 4) (line k : Nat) =>
      n.val * 8388608 + slot.val * 2097152 + line * 2560 + 512 * k
    let bytes := fun a n : Nat => (List.range n).map fun i => Memory.read (a + i) s.dram
    (∀ line (f : FetchItem), s.arb.port = some ⟨.fetch line f, due, live⟩ →
      let from_ := address f.lane f.slot f.line f.segment
      (live = false → exec (.compositorFetchComplete m) s = .next freed.serve)
      ∧ (live = true → 33554432 < from_ + f.bytes → exec (.compositorFetchComplete m) s = .fault .dramAddress)
      ∧ (live = true → from_ + f.bytes ≤ 33554432 → ∀ got,
        (if line % 2 = 0 then s.readBuffer.place0 else s.readBuffer.place1) = .filling line got →
        let held := LinePlace.filling line (got ++ [⟨f.window, f.segment, bytes from_ f.bytes⟩])
        let t := { freed with readBuffer :=
          if line % 2 = 0 then { s.readBuffer with place0 := held } else { s.readBuffer with place1 := held } }.serve
        exec (.compositorFetchComplete m) s = .next t ∧ t.dram = s.dram))
    ∧ (∀ n slot line k length, s.arb.port = some ⟨.read n slot line k length, due, live⟩ →
      let from_ := address n slot line k
      (live = false → exec (.conditioningReadComplete m) s = .next freed.serve)
      ∧ (live = true → 33554432 < from_ + length → exec (.conditioningReadComplete m) s = .fault .dramAddress)
      ∧ (live = true → from_ + length ≤ 33554432 →
        ∃ t, exec (.conditioningReadComplete m) s = .next t ∧ t.dram = s.dram ∧ t.timing = s.timing
          ∧ t.pending = s.pending)
      ∧ (live = true → from_ + length ≤ 33554432 → ∀ j rest run i a, s.jobs = j :: rest → j.run = some run →
        run.current = some (i, a) → run.got.length + 1 < 32 + 2 * run.settings.sy →
        exec (.conditioningReadComplete m) s = .next { freed with
          jobs := { j with run := some { run with got := run.got ++ [bytes from_ length] } } :: rest }.serve))

/-- R66, R74, R75, R76, R77 and R78: the last of an anchor's 32 + 2·Sy reads makes its search and its judgement. The
segments read are the 16 patch lines of the job's slot and then the window lines of the reference slot
(StoreGrantsInOrder says which is asked for when). The SAD of a candidate (dx, dy), with dx within Sx and dy within Sy
of 0, is the sum of the absolute differences of luma between the 16 × 16 patch at 64c + 24 and the reference block dx
pixels to its left and dy lines above it; the best candidate has the least SAD, ties broken by the smaller |dx| +
|dy|, |dy|, dy and dx; the contrast is the sum of the differences of neighbouring pixels of the patch. The anchor is
DAMAGED when a line of the patch or of the best block stands in either frame's damaged line list, else LOW_CONTRAST
under the floor, else HIGH_SAD over the ceiling, else ACCEPTED. With an anchor left to search the job goes on;
otherwise it completes in the same event (JobCompletes), the next job starts, and the arbiter grants. That the last
segment's bytes are read at its completion is the model's choice (log 17). -/
def Obligations.AnchorsAreSearched : Prop :=
  ∀ (m : Moment) (s : State) (n : Lane) (slot : Fin 4) (line k length due : Nat) (j : Job) (rest : List Job)
    (run : RunningJob) (i : Nat) (a : Anchor),
    let from_ := n.val * 8388608 + slot.val * 2097152 + line * 2560 + 512 * k
    s.arb.port = some ⟨.read n slot line k length, due, true⟩ → due ≤ max s.now m.tick → from_ + length ≤ 33554432 →
    s.jobs = j :: rest → j.run = some run → run.verdicts.findIdx? (· == .toSearch) = some i → run.anchors[i]? = some a →
    32 + 2 * run.settings.sy ≤ run.got.length + 1 →
    let got := run.got ++ [(List.range length).map fun i => Memory.read (from_ + i) s.dram]
    let luma := fun (row x : Nat) => (((got.getD row []).getD (2 * x) 0).toNat : Int)
    let left := 64 * (a.col % 4) + 24
    let block := fun (dx dy : Int) (x y : Nat) =>
      luma (16 + ((run.settings.sy : Int) - dy).toNat + y) (((left : Int) - dx).toNat + x)
    let sad := fun dx dy : Int => ((List.range 16).map fun y => ((List.range 16).map fun x =>
      (luma y (left + x) - block dx dy x y).natAbs).sum).sum
    let contrast := ((List.range 16).map fun y => ((List.range 15).map fun x =>
      (luma y (left + x + 1) - luma y (left + x)).natAbs).sum).sum
    let inside := fun dx dy : Int => dx.natAbs ≤ run.settings.sx ∧ dy.natAbs ≤ run.settings.sy
    let store := (s.lane j.lane).store
    let damaged := fun i : Fin 4 => (store.ring.get i).elim [] (·.record.damaged)
    let hurt := fun top : Int => (damaged j.slot ++ run.reference.elim [] damaged).any fun l =>
      decide (top ≤ (l : Int)) && decide ((l : Int) < top + 16)
    ∃ best : AnchorMeasure,
      inside best.dx best.dy ∧ best.sad = sad best.dx best.dy ∧ best.contrast = contrast
      ∧ (∀ dx dy, inside dx dy → (dx, dy) ≠ (best.dx, best.dy) →
        best.sad < sad dx dy
        ∨ (best.sad = sad dx dy ∧ (best.dx.natAbs + best.dy.natAbs < dx.natAbs + dy.natAbs
          ∨ (best.dx.natAbs + best.dy.natAbs = dx.natAbs + dy.natAbs ∧ (best.dy.natAbs < dy.natAbs
            ∨ (best.dy.natAbs = dy.natAbs ∧ (best.dy < dy ∨ (best.dy = dy ∧ best.dx < dx))))))))
      ∧ (let outcome : AnchorOutcome :=
          if hurt (32 * a.row + 8) || hurt (32 * a.row + 8 - best.dy) then .damaged
          else if best.contrast < run.settings.contrastFloor then .lowContrast
          else if run.settings.sadCeiling < best.sad then .highSad
          else .accepted
        let after := { run with got := [], verdicts := run.verdicts.set i (.done outcome (some best)) }
        let u : State := { s.advance m with
          arb := { s.arb with port := none }, jobs := { j with run := some after } :: rest }
        exec (.conditioningReadComplete m) s = .next
          (if AnchorVerdict.toSearch ∈ after.verdicts then u.serve else u.completeJob.startJobs.serve))

/-- R63, R65, R66, R72, R73 and R90: while a job runs no other starts, and the head of the queue starts at once when
none does. A job that starts latches its settings and its anchors; it is frozen when its lane's purge is in PULSE or
SETTLE; its reference is the READY slot, or else the SHOWING one, while the reference-valid flag is set; the jitter
state is clamped to 16·Jmax, or (0, 0) without a reference. A job that is not frozen classifies every tile by its
statistics. An anchor of such a job with a reference is DISABLED, OUTSIDE the frame, NOT_CLEAR or to be searched; any
other is NOT_EVALUATED. A job with no anchor to search completes at once, and the next starts. -/
def Obligations.JobsStart : Prop :=
  (∀ s : State, ∀ j ∈ s.startJobs.jobs.head?, j.run.isSome = true)
  ∧ (∀ s : State, (∀ j ∈ s.jobs.head?, j.run.isSome = true) → s.startJobs = s)
  ∧ (∀ (s : State) (j : Job) (rest : List Job) (h : HeldSlot) (set : StatSet),
      let l := s.lane j.lane
      s.jobs = j :: rest → j.run = none → l.store.ring.get j.slot = some h → l.dust.jobSet = some set →
      let holding := fun role : Role =>
        ([0, 1, 2, 3] : List (Fin 4)).find? fun i => (l.store.ring.get i).any fun k => k.role == role
      let reference := if l.motion.referenceValid then (holding .ready).or (holding .showing) else none
      let frozen := l.purge.state == .pulse || l.purge.state == .settle
      let columns := set.geometry.w / 64
      let classes := l.dust.table.mapIdx fun i t =>
        classifyTile l.dust.settings t (set.valid.getD (i / columns) 0) (set.luma.getD i 0) (set.detail.getD i 0)
      let g := h.record.geometry
      let clear := fun a : Anchor => (classes[a.row * (g.w / 64) + a.col]?).any fun c =>
        c.record.initialised && c.record.state == .clear
      let judged := fun a : Anchor =>
        if frozen = true ∨ reference = none then AnchorVerdict.done .notEvaluated none
        else if a.enabled = false then .done .disabled none
        else if g.w / 64 ≤ a.col ∨ g.h / 32 ≤ a.row then .done .outside none
        else if clear a then .toSearch
        else .done .notClear none
      let run : RunningJob := {
        anchors := l.motion.anchors, settings := l.motion.settings, dust := l.dust.settings
        asoil := l.purge.settings.asoil, frozen := frozen, reference := reference
        classes := if frozen then none else some classes, verdicts := l.motion.anchors.map judged, got := [] }
      let limit : Int := 16 * l.motion.settings.jmax
      let within := fun d : Int => if reference = none then 0 else max (-limit) (min limit d)
      let u := { s with
        jobs := { j with run := some run } :: rest
        lanes := s.lanes.modify j.lane fun l => { l with motion := { l.motion with
          jitterX := within l.motion.jitterX, jitterY := within l.motion.jitterY } } }
      s.startJobs = if AnchorVerdict.toSearch ∈ run.verdicts then u else u.completeJob.startJobs)

/-- R52, R68, R71, R79 to R82, R97 to R101, R109, R110, R112 and R114: the completion of the running job. Its slot
becomes READY with the record's fields, and another READY slot becomes FREE and counts as dropped. The shift is the
lower median of the accepted anchors' offsets on each axis when at least Nmin are accepted, and (0, 0) otherwise. The
jitter state is, on each axis, E − round(E·a/64) with E = D + 16·s, clamped to 16·Jmax, the correction round(D'/16),
clamped to the margin, and both are 0 with the stabilizer disabled; the reference-valid flag is set. The summary is
this job's, with the verdict of each of its anchors, and the motion counters count it, as valid or void and, when it
was frozen, as frozen. A job that is not frozen brings its tiles with their gains slewed, the dust level and the band.
The purge counts the completion in SETTLE, and the second ends it; of a job that is not frozen it takes the soiled
count, and in IDLE, with auto purge on in a LOCKED lane in NORMAL, it blows at Nsoil, with a STARTED report and PURGEn
asserted. The model's choices: 'Reference used' of a frozen job is yes when R65 step 3 named a reference (log 41), and
the STARTED report carries command number 0 where a command's execution brings the completion (log 43). -/
def Obligations.JobCompletes : Prop :=
  ∀ (s : State) (j : Job) (rest : List Job) (run : RunningJob), s.jobs = j :: rest → j.run = some run →
    let n := j.lane
    let l := s.lane n
    let t := s.completeJob
    let up := fun x : Nat => min 4294967295 (x + 1)
    let m : Measurement :=
      if run.frozen = true ∨ run.reference = none then ⟨.void, 0, 0, 0⟩
      else
        let accepted := run.verdicts.filterMap fun v => match v with
          | .done .accepted found => found
          | _ => none
        let median := fun l : List Int => (l.mergeSort fun a b => decide (a ≤ b)).getD ((l.length - 1) / 2) 0
        if run.settings.nmin ≤ accepted.length then
          ⟨.valid, accepted.length, median (accepted.map (·.dx)), median (accepted.map (·.dy))⟩
        else ⟨.void, accepted.length, 0, 0⟩
    let k := run.settings
    let round := fun (x : Int) (d : Nat) => x.sign * ((2 * x.natAbs + d) / (2 * d) : Nat)
    let within := fun (limit : Nat) (x : Int) => max (-(limit : Int)) (min (limit : Int) x)
    let jitter := fun d shift : Int =>
      if k.enabled then within (16 * k.jmax) (d + 16 * shift - round ((d + 16 * shift) * k.factor) 64) else 0
    let jitterX := jitter l.motion.jitterX m.shiftX
    let jitterY := jitter l.motion.jitterY m.shiftY
    let corrX := if k.enabled then within k.mx (round jitterX 16) else 0
    let corrY := if k.enabled then within k.my (round jitterY 16) else 0
    let done : Conditioned := ⟨m.result, m.accepted, m.shiftX, m.shiftY, corrX, corrY, (t.lane n).dust.level,
      (t.lane n).dust.band, (t.lane n).dust.table.map (·.gain), run.frozen⟩
    let anchors := List.zipWith (fun (a : Anchor) (v : AnchorVerdict) => match v with
      | .done outcome found => (⟨a.col, a.row, outcome, found⟩ : AnchorResult)
      | .toSearch => ⟨a.col, a.row, .notEvaluated, none⟩) run.anchors run.verdicts
    let p := l.purge
    let ended := p.state = .settle ∧ 1 ≤ p.settleJobs
    let counted : Purge :=
      if ended then { p with
        settleJobs := p.settleJobs + 1, state := .cooldown, settleDue := none
        cooldownDue := some (s.now + msTicks (1000 * p.settings.cooldown)) }
      else if p.state = .settle then { p with settleJobs := p.settleJobs + 1 }
      else p
    let soiled := (t.lane n).dust.table.countP fun k => run.asoil ≤ k.age
    let consecutive := if soiled < p.settings.nsoil then 0 else p.consecutive
    let blows := run.frozen = false ∧ p.settings.nsoil ≤ soiled ∧ p.settings.auto = true ∧ p.state = .idle
      ∧ l.rx.state = .locked ∧ l.rx.mode = .normal
    t.jobs = rest
      ∧ (∀ h, l.store.ring.get j.slot = some h → h.role = .conditioning →
        (t.lane n).store.ring.get j.slot = some ⟨.ready, { h.record with conditioned := some done }⟩
        ∧ (∀ i, i ≠ j.slot → (t.lane n).store.ring.get i
            = if l.store.slotOf .ready = some i then none else l.store.ring.get i))
      ∧ (t.lane n).rx = { l.rx with counters := { l.rx.counters with
        framesDropped := if (l.store.slotOf .ready).isSome then up l.rx.counters.framesDropped
          else l.rx.counters.framesDropped } }
      ∧ (t.lane n).motion = { l.motion with
        jitterX := jitterX, jitterY := jitterY, referenceValid := true
        summary := some ⟨j.number, run.frozen, run.reference.isSome, run.settings.enabled, m.result, m.accepted, m.shiftX,
          m.shiftY, jitterX, jitterY, corrX, corrY, anchors⟩
        counters := { l.motion.counters with
          jobsCompleted := up l.motion.counters.jobsCompleted
          validResults := if m.result = .valid then up l.motion.counters.validResults else l.motion.counters.validResults
          voidResults := if m.result = .void then up l.motion.counters.voidResults else l.motion.counters.voidResults
          frozenJobs := if run.frozen then up l.motion.counters.frozenJobs else l.motion.counters.frozenJobs } }
      ∧ (run.classes = none → (t.lane n).dust = { l.dust with jobSet := none })
      ∧ (∀ classes, run.classes = some classes →
        let table := classes.map fun c : TileClass => { c.record with
          gain := if c.record.gain < c.target then min c.target (c.record.gain + 4) else max c.target (c.record.gain - 4) }
        let level := 256 * (table.countP fun k => k.state == .dusty) / table.length
        let bound := fun b : Nat => [0, run.dust.b1, run.dust.b2].getD b run.dust.b3
        let moves := (l.dust.band < 3 ∧ bound (l.dust.band + 1) ≤ level)
          ∨ (0 < l.dust.band ∧ level + 16 < bound l.dust.band)
        let highest := if run.dust.b3 ≤ level then 3 else if run.dust.b2 ≤ level then 2
          else if run.dust.b1 ≤ level then 1 else 0
        (t.lane n).dust = { l.dust with
          jobSet := none, table := table, level := level, band := if moves then highest else l.dust.band })
      ∧ (run.frozen = true → (t.lane n).purge = counted ∧ t.chan = s.chan)
      ∧ (run.frozen = false → ¬blows →
        (t.lane n).purge = { counted with lastSoiled := some soiled, consecutive := consecutive } ∧ t.chan = s.chan)
      ∧ (blows →
        (t.lane n).purge = { p with
          state := .pulse, pulseDue := some (s.now + msTicks p.settings.pulse), lastSoiled := none
          consecutive := min 255 (p.consecutive + 1), autoPurges := up p.autoPurges }
        ∧ t.chan = (s.offer ⟨.purge, none, .ok, byte1 n.val ++ [0, 0] ++ byte1 (min 255 (p.consecutive + 1))
          ++ byte2 soiled ++ [0]⟩).chan)
      ∧ (t.purgeLine n = true ↔ blows ∨ p.state = .pulse)
      ∧ (∀ k, k ≠ n → t.lane k = s.lane k) ∧ (t.lane n).relay = l.relay ∧ (t.lane n).test = l.test
      ∧ t.timing = s.timing ∧ t.comp = s.comp ∧ t.dram = s.dram ∧ t.arb = s.arb ∧ t.pending = s.pending
      ∧ t.chan.apartReports = s.chan.apartReports

/-! ### The output frame -/

/-- R141 to R144: the three starts of an output frame, in BLANKING alone. The timer starts one without a master. The
flywheel deadline forces one and counts it, and the third drops the master. The master's offset line takes its average
and mark, and starts one with the flywheel count 0; early, it starts none; any other line leaves the generator as it
was. A packet with that line, clean or faulty short of the 32nd fault, does to its lane what R7, R8, R11, R12, R46,
R48 and R87 say (as CleanLineIsTaken and FaultyLinesAreTaken state it of other lines), and then, in the same event,
starts the frame. -/
def Obligations.OutputFramesStart : Prop :=
  (∀ (m : Moment) (s : State) (due : Nat), s.resetAsserted = false → s.timing.phase = .blanking →
      due ≤ max s.now m.tick →
      (s.timing.watch = some (.timer due) →
        exec (.outputTimerExpiry m) s = .next ((s.advance m).startFrame none).serve)
      ∧ (s.timing.watch = some (.deadline due) → ∃ t, exec (.flywheelDeadlineExpiry m) s = .next t
        ∧ t = ({ s.advance m with timing := { s.timing with flywheel := min 3 (s.timing.flywheel + 1) } }.startFrame
          (if 2 ≤ s.timing.flywheel then s.timing.master else none)).serve
        ∧ (∀ n, s.timing.master = some n → 2 ≤ s.timing.flywheel → t.timing.master ≠ some n)
        ∧ (t.timing.master = s.timing.master → t.timing.flywheel = min 3 (s.timing.flywheel + 1))
        ∧ t.timing.lastStart = max s.now m.tick))
  ∧ (∀ (n : Lane) (line frame : Nat) (s : State),
      let average := match s.timing.offsetMark with
        | some k =>
          if (k.frame + 1) % 16 = frame then
            let period := min 16777215 (s.now - k.tick)
            some (match s.timing.average with
              | some avg => ((avg : Int) + (16 * (period : Int) - avg).tdiv 8).toNat
              | none => 16 * period)
          else s.timing.average
        | none => s.timing.average
      let taken := { s.timing with average := average, offsetMark := some ⟨frame, s.now⟩ }
      (s.timing.master = some n → line = s.timing.syncInForce →
        (s.timing.phase = .blanking →
          s.lineToTiming n line frame = { s with timing := { taken with flywheel := 0 } }.startFrame none)
        ∧ (s.timing.phase ≠ .blanking → s.lineToTiming n line frame = { s with timing := taken }))
      ∧ (s.timing.master ≠ some n ∨ line ≠ s.timing.syncInForce → s.lineToTiming n line frame = s))
  ∧ (∀ (m : Moment) (s : State) (n : Lane) (bytes : List Byte) (q : Packet) (g : Geometry) (f : OpenFrame),
      let rx := (s.lane n).rx
      let store := (s.lane n).store
      let now := max s.now m.tick
      let relay := Relay.takePacket n now (some q.relay) (s.lane n).relay
      let up := fun x k : Nat => if k = 0 then x else min 4294967295 (x + k)
      s.resetAsserted = false → (rx.state = .acquiring ∨ rx.state = .locked) → rx.mode = .normal →
      parsePacket bytes = some q → q.kind = .line → rx.acquisition = some g → rx.openFrame = some f →
      f.number = q.number → rx.expectedLine ≤ q.word1 → q.word1 < g.h →
      s.timing.master = some n → q.word1 = s.timing.syncInForce →
      let ahead := q.word1 - rx.expectedLine
      let good := q.payloadOk && q.payload.length == 2 * g.w
      let lost := good && decide (2 ≤ store.buffer.length)
      let period := rx.measurePeriod q.word1 now
      let fault := decide (0 < ahead) || !good || lost || period.outOfTolerance
      let hurt := (List.range ahead).map (rx.expectedLine + ·) ++ (if good && !lost then [] else [q.word1])
      let entered := hurt.take (32 - rx.damagedCount)
      let listed : LaneStore := match store.opening with
        | .stored i => { store with ring := store.ring.modify i (Option.map fun h =>
          { h with record := { h.record with damaged := h.record.damaged ++ entered } }) }
        | .deferred number size list => { store with opening := .deferred number size (list ++ entered) }
        | _ => store
      let longer := store.buffer ++ [⟨.current, q.word1, q.payload, 0⟩]
      let seen : State := ({ s.advance m with lanes := s.lanes.modify n fun l => { l with
        relay := relay.1
        store := if good && !lost then { listed with buffer := match store.opening with
            | .unstored => longer.dropWhile fun b => b.tag == .current
            | _ => longer }
          else listed
        dust := if good && !lost then { l.dust with gathering := l.dust.gathering.map (StatSet.addLine q.word1 q.payload) }
          else l.dust
        rx := { rx with
          health := if fault then rx.health + 1 else rx.health - 1
          expectedLine := q.word1 + 1, mark := some ⟨q.word1, now⟩, average := period.average, periods := period.periods
          periodError := rx.periodError || period.outOfTolerance, damagedCount := rx.damagedCount + hurt.length
          silenceDue := if good then some (now + msTicks rx.silenceTimeout) else rx.silenceDue
          counters := { rx.counters with
            packetsReceived := up rx.counters.packetsReceived 1
            sequenceErrors := up rx.counters.sequenceErrors (if ahead = 0 then 0 else 1)
            payloadErrors := up rx.counters.payloadErrors (if good then 0 else 1)
            bufferOverflows := up rx.counters.bufferOverflows (if lost then 1 else 0)
            periodErrors := up rx.counters.periodErrors (if period.outOfTolerance then 1 else 0)
            damagedLines := up rx.counters.damagedLines hurt.length } } } } : State).offerAll relay.2
      let framePeriod := fun k : OffsetMark => min 16777215 (now - k.tick)
      let average := match s.timing.offsetMark, s.timing.average with
        | none, avg => avg
        | some k, none => if (k.frame + 1) % 16 = q.number then some (16 * framePeriod k) else none
        | some k, some avg =>
          some (if (k.frame + 1) % 16 = q.number then ((avg : Int) + (16 * (framePeriod k : Int) - avg).tdiv 8).toNat
            else avg)
      let taken := { s.timing with average := average, offsetMark := some ⟨q.number, now⟩ }
      (fault = true → rx.health + 1 < 32) →
      exec (.cameraPacket m n bytes) s = .next
        (if s.timing.phase = .blanking then ({ seen with timing := { taken with flywheel := 0 } }.startFrame none).serve
         else { seen with timing := taken }.serve))

/-- R41, R57, R58, R104, R127, R128 and R130: the drawing of an output line. Each pixel is that of the covering window
of the highest number, output black where none covers it: of a NORMAL window the source pixel, its luma conditioned by
the tile's gain about its mean and then by the tone table of the frame's band, under the window's marks in index
order; of a STALE one the same under the substitute block; of a LOST one grey under the block, with no marks. The
line's fetch list names, window by window, the segments that cover the source range of the source line, a damaged line
replaced by the nearest preceding undamaged line, or else the nearest following one. The next line is complete when
nothing of its list is missing, and until then the Compositor waits for the first missing segment. The model's
choices: output line k takes line place k mod 2, and is drawn when its last segment has come (log 28); an output line
is fetched from the beginning of the one before it on, also when that one holds no data (log 42); a byte that has not
been fetched reads 0, and a tile outside the record's gain list or the table's means has gain 16 and mean 0 (log 38). -/
def Obligations.OutputLinesAreDrawn : Prop :=
  (∀ (s : State) (got : List Fetched) (x y : Nat),
      let covers := fun p : PlanWindow =>
        p.record.x ≤ x ∧ x < p.record.x + p.record.w ∧ p.record.y ≤ y ∧ y < p.record.y + p.record.h
      ((∀ p ∈ s.comp.plan, ¬covers p) → s.pixel got x y = ⟨16, 128⟩)
      ∧ (∀ (below above : List PlanWindow) (p : PlanWindow),
        s.comp.plan = below ++ p :: above → covers p → (∀ k ∈ above, ¬covers k) →
        let i := x - p.record.x
        let j := y - p.record.y
        let sample := fun k : Colour => if x % 2 = 0 then k.cb.toNat else k.cr.toNat
        let third := s.comp.marksActive.e0.palette.e3
        let blocked := fun px : Pixel => if i < 16 ∧ j < 16 then ⟨third.y.toNat, sample third⟩ else px
        let mark := fun (palette : Four Colour) (px : Pixel) (k : Mark) =>
          if k.x + p.shiftX ≤ i ∧ (i : Int) < k.x + p.shiftX + k.w ∧ k.y + p.shiftY ≤ j ∧ (j : Int) < k.y + p.shiftY + k.h
          then (match k.mode with
            | .opaqueMark => (⟨(palette.get k.colour).y.toNat, sample (palette.get k.colour)⟩ : Pixel)
            | .half => ⟨(px.y + (palette.get k.colour).y.toNat) / 2, (px.c + sample (palette.get k.colour)) / 2⟩)
          else px
        let marked := fun px : Pixel => match p.record.markSet with
          | none => px
          | some w => (s.comp.marksActive.get w).marks.foldl (mark (s.comp.marksActive.get w).palette) px
        (p.content = .lost → s.pixel got x y = blocked ⟨64, 128⟩)
        ∧ (∀ (v : FrameView) (b : Fin 4), p.view = some v → v.band = b.val →
          let column := p.ox + (match p.record.scale with | .one => i | .down => 2 * i | .up => i / 2)
          let line := p.oy + (match p.record.scale with | .one => j | .down => 2 * j | .up => j / 2)
          let held := fun offset : Nat => got.find? fun f => f.window == p.window && f.segment == offset / 512
          let read : Nat → Nat := fun offset => (held offset).elim 0 fun f => (f.data.getD (offset % 512) 0).toNat
          let tile := line / 32 * (v.geometry.w / 64) + column / 64
          let mean : Int := v.means.getD tile 0
          let raw : Int := ↑(read (2 * column))
          let luma := max 0 (min 255 (mean + roundDiv ((raw - mean) * (v.gains.getD tile 16 : Nat)) 16))
          let source : Pixel := ⟨((s.tone.active.get b).getD luma.toNat 0).toNat,
            read (2 * (2 * (column / 2) + x % 2) + 1)⟩
          (p.content = .normal → s.pixel got x y = marked source)
          ∧ (p.content = .stale → s.pixel got x y = blocked (marked source))))
      ∧ s.drawLine got y = (List.range s.timing.raster.width).flatMap fun x =>
        [BitVec.ofNat 8 (s.pixel got x y).y, BitVec.ofNat 8 (s.pixel got x y).c])
  ∧ (∀ (damaged : List Nat) (h line : Nat),
      (line ∉ damaged → concealed damaged h line = line)
      ∧ (line ∈ damaged →
        (∀ k < line, k ∉ damaged → (∀ i, k < i → i < line → i ∈ damaged) → concealed damaged h line = k)
        ∧ ((∀ k < line, k ∈ damaged) → ∀ k, line < k → k < h → k ∉ damaged → (∀ i, line < i → i < k → i ∈ damaged) →
          concealed damaged h line = k)))
  ∧ (∀ (p : PlanWindow) (y : Nat),
      let covered := p.record.y ≤ y ∧ y < p.record.y + p.record.h
      (p.content = .lost ∨ p.view = none ∨ ¬covered → p.fetchItems y = [])
      ∧ (∀ v, p.content ≠ .lost → p.view = some v → covered →
        let j := y - p.record.y
        let line := p.oy + (match p.record.scale with | .one => j | .down => 2 * j | .up => j / 2)
        let first := 2 * p.ox / 512
        p.fetchItems y = (List.range ((2 * (p.ox + p.sw - 1) + 1) / 512 + 1 - first)).map fun k =>
          ⟨p.window, p.record.lane, v.slot, concealed v.damaged v.geometry.h line, first + k,
            min 512 (2 * v.geometry.w - 512 * (first + k))⟩))
  ∧ (∀ s : State,
      let k := s.timing.nextLine
      let place := if k % 2 = 0 then s.readBuffer.place0 else s.readBuffer.place1
      let held := match place with
        | .filling line got => if line = k then got else []
        | _ => []
      let missing := (s.comp.plan.flatMap fun p => p.fetchItems k).filter fun i =>
        !(held.any fun f => f.window == i.window && f.segment == i.segment)
      let due := s.timing.phase = .picture ∧ k < s.timing.raster.height ∧ ∀ line, place ≠ .complete k line
      (due → missing = [] → s.completeNext = { s with readBuffer :=
        if k % 2 = 0 then { s.readBuffer with place0 := .complete k (s.drawLine held k) }
        else { s.readBuffer with place1 := .complete k (s.drawLine held k) } })
      ∧ (∀ i more, due → missing = i :: more → s.completeNext = s ∧ s.fetchRequest = some (.fetch k i))
      ∧ (¬due → s.completeNext = s ∧ s.fetchRequest = none))

/-- R58, R59, R140, R150, R151, R156 and R183: the beginning of active line k, k + 1 line times after the start of its
frame. The line before it has ended, and its place is free. A complete line is sent as it stands. An incomplete line
underruns: the line sent last is sent instead, output black for line 0, its place is emptied, a fetch for it on the
port goes on with its data discarded, the underrun is counted and OUTPUT_UNDERRUN is raised. The status line event
sends the record of the values as they stand with up to four of the oldest notices, under one check, filled to a
line's length; every set flag is then marked reported and those notices have left, and the oldest message's execution
comes next while an entry is free. One line time later BLANKING follows. The model's choices: the fill starts with
luma (log 27), and output line k takes line place k mod 2 (log 28). -/
def Obligations.OutputLinesComplete : Prop :=
  (∀ (m : Moment) (s : State),
     let k := s.timing.nextLine
     let raster : Nat × Nat × Nat := match s.timing.raster with
       | .r1280x800 => (1280, 800, 960)
       | .r1024x600 => (1024, 600, 1280)
       | .r800x480 => (800, 480, 1600)
     let place := fun b : ReadBuffer => if k % 2 = 0 then b.place0 else b.place1
     let emptied := fun (line : Nat) (b : ReadBuffer) =>
       if line % 2 = 0 then { b with place0 := LinePlace.empty } else { b with place1 := LinePlace.empty }
     let freed := if k = 0 then s.readBuffer else emptied (k - 1) s.readBuffer
     let begun : State := { s.advance m with timing := { s.timing with nextLine := k + 1 } }
     s.resetAsserted = false → s.timing.phase = .picture → k < raster.2.1 →
     s.timing.lastStart + (k + 1) * raster.2.2 ≤ max s.now m.tick →
     ∃ t, exec (.activeLineBegin m) s = .next t ∧ t.timing = { s.timing with nextLine := k + 1 }
       ∧ (∀ pixels, place s.readBuffer = .complete k pixels →
         t.tx = ⟨.activeLine pixels, pixels⟩ ∧ place t.readBuffer = .complete k pixels ∧ t.chan = s.chan
           ∧ t = { begun with tx := ⟨.activeLine pixels, pixels⟩, readBuffer := freed }.serve)
       ∧ ((∀ pixels, place s.readBuffer ≠ .complete k pixels) →
         let instead := if k = 0 then (List.replicate raster.1 [(16 : Byte), 128]).flatten else s.tx.lastLine
         t.tx = ⟨.activeLine instead, instead⟩ ∧ place t.readBuffer = .empty
           ∧ t.chan = { s.chan with
             counters := { s.chan.counters with underruns := min 4294967295 (s.chan.counters.underruns + 1) }
             flags := s.chan.flags ||| 0x008000, reported := s.chan.reported &&& 0xFF7FFF }
           ∧ t = { begun with
             tx := ⟨.activeLine instead, instead⟩, chan := t.chan, readBuffer := emptied k freed
             arb := { s.arb with port := s.arb.port.map fun tr : Transfer => { tr with
               live := tr.live && (match tr.kind with | .fetch line _ => line != k | _ => true) } } }.serve)
       ∧ t.lanes = s.lanes ∧ t.jobs = s.jobs ∧ t.comp = s.comp ∧ t.tone = s.tone ∧ t.dram = s.dram
       ∧ t.arb.owed = s.arb.owed ∧ t.arb.storeReady = s.arb.storeReady ∧ t.pending = s.pending)
  ∧ (∀ (m : Moment) (s : State), s.resetAsserted = false →
       let raster : Nat × Nat × Nat := match s.timing.raster with
         | .r1280x800 => (1280, 800, 960)
         | .r1024x600 => (1024, 600, 1280)
         | .r800x480 => (800, 480, 1600)
       let c := s.chan
       let t := s.timing
       let record := byte2 t.frameNumber
         ++ byte1 (match c.supervision with | .startup => 0 | .active => 1 | .limp => 2)
         ++ byte1 (match s.comp.shownPage with | .page p => p.val | .fallback => 255)
         ++ byte1 (c.hold.toNat + 2 * t.holdover.toNat) ++ byte1 c.queue.length
         ++ byte1 (match c.resetCause with | .powerOn => 0 | .pin => 1 | .restartCommand => 2)
         ++ byte2 c.restartCount ++ [c.restartTag.getD 255] ++ byte3 c.flags.toNat
         ++ (match t.mode with | .auto => [0, 0] | .fixed n => [1, fourByte n] | .free => [2, 0])
         ++ [(t.master.map fourByte).getD 255] ++ byte1 (min 4 c.notices.length)
         ++ s.lanes.toList.flatMap fun l =>
           byte1 (match l.rx.state with
             | .off => 0 | .searching => 1 | .acquiring => 2 | .locked => 3 | .faulted => 4 | .silent => 5 | .lockedOut => 6)
           ++ byte1 (match l.rx.mode with | .normal => 0 | .check => 1 | .internal => 2)
           ++ byte1 l.dust.band ++ byte2 l.dust.level
           ++ signed1 (l.motion.summary.elim 0 (·.corrX)) ++ signed1 (l.motion.summary.elim 0 (·.corrY))
           ++ byte1 (match l.purge.state with | .idle => 0 | .pulse => 1 | .settle => 2 | .cooldown => 3 | .halted => 4)
       let checked := record ++ (c.notices.take 4).flatMap Notice.bytes
       let sent := checked ++ crcBytes checked
       (t.phase = .picture → raster.2.1 ≤ t.nextLine →
           t.lastStart + (raster.2.1 + 1) * raster.2.2 ≤ max s.now m.tick →
         exec (.statusLineEvent m) s = .next { s.advance m with
           chan := { c with reported := c.reported ||| c.flags, notices := c.notices.drop 4 }
           tx := { s.tx with video := .statusLine (sent
             ++ ((List.replicate raster.1 [(16 : Byte), 128]).flatten).take (2 * raster.1 - sent.length)) }
           readBuffer := { s.readBuffer with place1 := .empty }
           timing := { t with phase := .statusLine }
           pending := executionDue ⟨max s.now m.tick, m.reverse⟩ c.queue (c.notices.length - 4) ++ s.pending })
       ∧ (t.phase = .statusLine → t.lastStart + (raster.2.1 + 2) * raster.2.2 ≤ max s.now m.tick →
         exec (.statusLineEnd m) s = .next { s.advance m with
           timing := { t with phase := .blanking }, tx := { s.tx with video := .blanking } }))

/-! ### The cab command lane -/

/-- R155, R156, R181 and R179: a whole message with a good check, of any number, tag and payload up to 72 bytes, is
accepted, with HOLD set at a depth of 12 and, with a notice entry free, the oldest message's execution coming next, or
dropped for overrun with 16 queued; either restarts a running heartbeat timer. A wrong check, a length above 72 and a
gap of 1 ms are check errors. Bytes before the start byte are skipped. Bytes that follow a message in its run arrive
after its execution (the model's choice, log 9). -/
def Obligations.CommandMessagesArrive : Prop :=
  ∀ (m : Moment) (s : State) (c : CmdMessage), s.resetAsserted = false → c.payload.length ≤ 72 →
    let now := max s.now m.tick
    let beat := s.chan.heartbeatDue.map fun _ => now + msTicks s.chan.heartbeatPeriod
    let bad : CommandChannel := { s.chan with
      receiver := .idle
      counters := { s.chan.counters with checkErrors := min 4294967295 (s.chan.counters.checkErrors + 1) }
      flags := s.chan.flags ||| 0x002000, reported := s.chan.reported &&& 0xFFDFFF }
    let body := [c.number, c.tag, BitVec.ofNat 8 c.payload.length] ++ c.payload
    let at_ : Moment := ⟨now, m.reverse⟩
    let due := fun queue : List CmdMessage => executionDue at_ queue s.chan.notices.length
    let refused : State := { s.advance m with chan := bad, pending := due s.chan.queue ++ s.pending }
    (s.chan.receiver = .idle →
      (s.chan.queue.length < 16 → exec (.commandMessageArrival m c.wire) s = .next { s.advance m with
        chan := { s.chan with
          queue := s.chan.queue ++ [c], hold := s.chan.hold || 12 ≤ s.chan.queue.length + 1, heartbeatDue := beat
          counters := { s.chan.counters with accepted := min 4294967295 (s.chan.counters.accepted + 1) } }
        pending := due (s.chan.queue ++ [c]) ++ s.pending })
      ∧ (16 ≤ s.chan.queue.length → exec (.commandMessageArrival m c.wire) s = .next { s.advance m with
        chan := { s.chan with
          heartbeatDue := beat
          counters := { s.chan.counters with overruns := min 4294967295 (s.chan.counters.overruns + 1) }
          flags := s.chan.flags ||| 0x001000, reported := s.chan.reported &&& 0xFFEFFF }
        pending := due s.chan.queue ++ s.pending })
      ∧ (∀ a b : Byte, [a, b] ≠ crcBytes body →
        exec (.commandMessageArrival m (0x7E :: body ++ [a, b])) s = .next refused)
      ∧ (∀ a b length : Byte, 72 < length.toNat →
        exec (.commandMessageArrival m [0x7E, a, b, length]) s = .next refused)
      ∧ (∀ noise : List Byte, 0x7E ∉ noise →
        exec (.commandMessageArrival m (noise ++ c.wire)) s = exec (.commandMessageArrival m c.wire) s)
      ∧ (∀ (t : State) (b : Byte) (more : List Byte), exec (.commandMessageArrival m c.wire) s = .next t →
        exec (.commandMessageArrival m (c.wire ++ b :: more)) s = .next { t with
          pending := due t.chan.queue ++ .commandMessageArrival at_ (b :: more) :: s.pending }))
    ∧ (∀ bytes due, s.chan.receiver = .inProgress bytes due → due ≤ now →
      exec (.backlaneGapTimeout m) s = .next { s.advance m with chan := bad })

/-! ### Whole-machine statements -/

/-- R138: the six composition commands change no state of the Frame Store Controller, the Conditioning Engine or the
lanes; their replies carry no table content; and one that is refused with any code writes nothing. -/
def Obligations.CompositionCommandsStayApart : Prop :=
  ∀ (m : Moment) (i : Instr) (s : State),
    i ∈ [.loadWindow m, .clearWindow m, .loadMarks m, .commitTables m, .selectPage m, .setSubstitute m] →
    ∃ t, exec i s = .next t ∧ t.lanes = s.lanes ∧ t.arb = s.arb ∧ t.readBuffer = s.readBuffer ∧ t.jobs = s.jobs
      ∧ t.dram = s.dram ∧ t.timing = s.timing ∧ t.tx = s.tx
      ∧ t.tone = s.tone ∧ t.chan.receiver = s.chan.receiver ∧ t.chan.flags = s.chan.flags
      ∧ (t.chan.notices = s.chan.notices ∧ t.comp = s.comp ∧ t.pending = s.pending
        ∨ ∃ c code, s.chan.queue.head? = some c ∧ t = { s.replied m (c.reply code []) with comp := t.comp }
          ∧ ((code = .ok ∨ code = .clamped) ∨ t.comp = s.comp))

/-- Every value of a safe run holds right after reset: R1, R27, R42, R108, R139 and R154. -/
def Obligations.SafeAtReset : Prop := State.reset.Safe

/-- The DRAM keeps its canonical form at every step, and only POWER_ON and the completion of a lane write change it
(R41, R48; log 7, log 8; that a write moves its bytes at its completion: log 17). -/
def Obligations.DramKeepsItsForm : Prop :=
  (∀ s t : State, Memory.wf s.dram = true → step s = .next t → Memory.wf t.dram = true)
  ∧ (∀ (i : Instr) (s t : State), (match i with | .powerOn _ | .laneWriteComplete _ => False | _ => True) →
      exec i s = .next t → t.dram = s.dram)

/-- R60: a transfer that has been granted holds the port until its completion. Whatever happens before it is due, a
POWER_ON apart, it stays on the port with its kind and its time of completion; only whether its data still counts may
change. -/
def Obligations.TransfersHoldThePort : Prop :=
  ∀ (i : Instr) (s t : State) (tr : Transfer), (match i with | .powerOn _ => False | _ => True) →
    exec i s = .next t → s.arb.port = some tr → max s.now i.moment.tick < tr.due →
    ∃ live, t.arb.port = some { tr with live := live }

/-- R141: an output frame starts only in BLANKING. Outside it no event but a reset changes the output frame number or
the moment of the last start. -/
def Obligations.FramesStartInBlanking : Prop :=
  ∀ (i : Instr) (s t : State),
    (match i with | .powerOn _ | .pinResetAssert _ | .pinResetRelease _ | .restart _ => False | _ => True) →
    exec i s = .next t → s.timing.phase ≠ .blanking →
    t.timing.lastStart = s.timing.lastStart ∧ t.timing.frameNumber = s.timing.frameNumber

/-- Three invariants that every step keeps, one by one. The health count and the attempts keep their ranges, with 32
the count of FAULTED alone and four attempts those of LOCKED_OUT (R13, R16). Each purge timer runs exactly in its
state (R110 to R113, R116). A relay message is in flight exactly while one is queued and no abort words are owed, with
the progress timer running exactly then, and messages stand in the queue only while the lane is in ACQUIRING or LOCKED
in NORMAL (R30). -/
def Obligations.LanesStaySound : Prop :=
  ∀ s t : State, step s = .next t →
    ((∀ n, (s.lane n).rx.healthOk) → ∀ n, (t.lane n).rx.healthOk)
    ∧ ((∀ n, (s.lane n).purge.timersOk) → ∀ n, (t.lane n).purge.timersOk)
    ∧ ((∀ n, (s.lane n).relay.flightOk) → ∀ n, (t.lane n).relay.flightOk)
    ∧ ((∀ n, (s.lane n).messagesOk) → ∀ n, (t.lane n).messagesOk)

/-- R44, R48 and R63: at every step a line write buffer holds at most two lines; the job queue holds at most one job a
lane, so at most four jobs, of which the head alone runs; and, with that, no two slots of a lane have one role, a
FILLING slot being that of the open frame or of the pending commit, and a CONDITIONING slot that of a job of the lane
(R47, R49, R50). -/
def Obligations.StoreStaysSound : Prop :=
  ∀ s t : State, step s = .next t →
    ((∀ n, (s.lane n).store.bufferOk) → ∀ n, (t.lane n).store.bufferOk)
    ∧ (s.jobsOk → t.jobsOk ∧ t.jobs.length ≤ 4)
    ∧ (s.storeOk → t.storeOk)

/-- R147, R141 and R139: at every step the timing master, whenever one exists, stays a lane in LOCKED and in mode
NORMAL, and the start watch stays the flywheel deadline while a master exists and the timer while none exists, with no
watch exactly while RESET_N is asserted. -/
def Obligations.MasterStaysLocked : Prop :=
  ∀ s t : State, step s = .next t → (s.masterOk → t.masterOk) ∧ (s.watchOk → t.watchOk)

/-- R154 to R161: at every step the command queue stays within 16 messages with HOLD set from a depth of 12 on and
clear from 4 down, the notice queue stays within 16 notices, only the seventeen flags are set, and a clear flag is not
marked reported. -/
def Obligations.ChannelStaysSound : Prop :=
  ∀ s t : State, step s = .next t →
    s.chan.queueOk ∧ s.chan.noticesOk ∧ s.chan.flagsOk → t.chan.queueOk ∧ t.chan.noticesOk ∧ t.chan.flagsOk
end

