-- ==== Sys2Proof/Decode.lean ====
section
/-! DEFINITION. The command that a word spells by the bits of spec/opcode_table.json. -/

namespace Sys2Proof

/-- No row of the table gives bits: the part has no encoding of its events, and a command message's bytes are an
operand of COMMAND_MESSAGE_ARRIVAL (R181). So no word spells a command (log 39). -/
def decodeTableWord (_nbits _w : Nat) : Option Instr := none

end Sys2Proof
end

