-- ==== Sys2Proof/Laws/State.lean ====
section
/-! SUPPORT. The small lemmas of the state: one per field per update, so that no later proof unfolds a record update; and
what a four-fold family reads after a change. -/

namespace Sys2Proof

/-! ### Four -/

@[simp] theorem Four.get_set_same {α : Type} (v : Four α) (i : Fin 4) (a : α) : (v.set i a).get i = a := by
  match i with
  | 0 | 1 | 2 | 3 => rfl

theorem Four.get_set_other {α : Type} (v : Four α) {i j : Fin 4} (a : α) (h : j ≠ i) : (v.set i a).get j = v.get j := by
  match i, j with
  | 0, 0 | 1, 1 | 2, 2 | 3, 3 => exact absurd rfl h
  | 0, 1 | 0, 2 | 0, 3 | 1, 0 | 1, 2 | 1, 3 | 2, 0 | 2, 1 | 2, 3 | 3, 0 | 3, 1 | 3, 2 => rfl

theorem Four.get_set {α : Type} (v : Four α) (i j : Fin 4) (a : α) :
    (v.set i a).get j = if j = i then a else v.get j := by
  by_cases h : j = i
  · subst h; simp
  · rw [Four.get_set_other v a h, if_neg h]

@[simp] theorem Four.get_modify_same {α : Type} (v : Four α) (i : Fin 4) (f : α → α) :
    (v.modify i f).get i = f (v.get i) := Four.get_set_same v i _

theorem Four.get_modify_other {α : Type} (v : Four α) {i j : Fin 4} (f : α → α) (h : j ≠ i) :
    (v.modify i f).get j = v.get j := Four.get_set_other v _ h

@[simp] theorem Four.get_map {α β : Type} (f : α → β) (v : Four α) (i : Fin 4) : (v.map f).get i = f (v.get i) := by
  match i with
  | 0 | 1 | 2 | 3 => rfl

@[simp] theorem Four.get_const {α : Type} (a : α) (i : Fin 4) : (Four.const a).get i = a := by
  match i with
  | 0 | 1 | 2 | 3 => rfl

theorem Four.ext_get {α : Type} {v w : Four α} (h : ∀ i, v.get i = w.get i) : v = w := by
  have h0 := h 0; have h1 := h 1; have h2 := h 2; have h3 := h 3
  cases v; cases w; simp_all [Four.get]

namespace Machine

/-! ### The updates of the state, field by field -/

@[simp] theorem State.advance_resetAsserted (m : Moment) (s : State) : (s.advance m).resetAsserted = s.resetAsserted := rfl
@[simp] theorem State.advance_lanes (m : Moment) (s : State) : (s.advance m).lanes = s.lanes := rfl
@[simp] theorem State.advance_jobs (m : Moment) (s : State) : (s.advance m).jobs = s.jobs := rfl
@[simp] theorem State.advance_dram (m : Moment) (s : State) : (s.advance m).dram = s.dram := rfl
@[simp] theorem State.advance_arb (m : Moment) (s : State) : (s.advance m).arb = s.arb := rfl
@[simp] theorem State.advance_readBuffer (m : Moment) (s : State) : (s.advance m).readBuffer = s.readBuffer := rfl
@[simp] theorem State.advance_tone (m : Moment) (s : State) : (s.advance m).tone = s.tone := rfl
@[simp] theorem State.advance_comp (m : Moment) (s : State) : (s.advance m).comp = s.comp := rfl
@[simp] theorem State.advance_timing (m : Moment) (s : State) : (s.advance m).timing = s.timing := rfl
@[simp] theorem State.advance_tx (m : Moment) (s : State) : (s.advance m).tx = s.tx := rfl
@[simp] theorem State.advance_chan (m : Moment) (s : State) : (s.advance m).chan = s.chan := rfl
@[simp] theorem State.advance_pending (m : Moment) (s : State) : (s.advance m).pending = s.pending := rfl

@[simp] theorem State.advance_now (m : Moment) (s : State) : (s.advance m).now = max s.now m.tick := rfl
@[simp] theorem State.advance_reverse (m : Moment) (s : State) : (s.advance m).reverse = m.reverse := rfl

@[simp] theorem State.modLane_now (n : Lane) (f : LaneBlocks → LaneBlocks) (s : State) : (s.modLane n f).now = s.now := rfl
@[simp] theorem State.modLane_resetAsserted (n : Lane) (f : LaneBlocks → LaneBlocks) (s : State) : (s.modLane n f).resetAsserted = s.resetAsserted := rfl
@[simp] theorem State.modLane_reverse (n : Lane) (f : LaneBlocks → LaneBlocks) (s : State) : (s.modLane n f).reverse = s.reverse := rfl
@[simp] theorem State.modLane_jobs (n : Lane) (f : LaneBlocks → LaneBlocks) (s : State) : (s.modLane n f).jobs = s.jobs := rfl
@[simp] theorem State.modLane_dram (n : Lane) (f : LaneBlocks → LaneBlocks) (s : State) : (s.modLane n f).dram = s.dram := rfl
@[simp] theorem State.modLane_arb (n : Lane) (f : LaneBlocks → LaneBlocks) (s : State) : (s.modLane n f).arb = s.arb := rfl
@[simp] theorem State.modLane_readBuffer (n : Lane) (f : LaneBlocks → LaneBlocks) (s : State) : (s.modLane n f).readBuffer = s.readBuffer := rfl
@[simp] theorem State.modLane_tone (n : Lane) (f : LaneBlocks → LaneBlocks) (s : State) : (s.modLane n f).tone = s.tone := rfl
@[simp] theorem State.modLane_comp (n : Lane) (f : LaneBlocks → LaneBlocks) (s : State) : (s.modLane n f).comp = s.comp := rfl
@[simp] theorem State.modLane_timing (n : Lane) (f : LaneBlocks → LaneBlocks) (s : State) : (s.modLane n f).timing = s.timing := rfl
@[simp] theorem State.modLane_tx (n : Lane) (f : LaneBlocks → LaneBlocks) (s : State) : (s.modLane n f).tx = s.tx := rfl
@[simp] theorem State.modLane_chan (n : Lane) (f : LaneBlocks → LaneBlocks) (s : State) : (s.modLane n f).chan = s.chan := rfl
@[simp] theorem State.modLane_pending (n : Lane) (f : LaneBlocks → LaneBlocks) (s : State) : (s.modLane n f).pending = s.pending := rfl

@[simp] theorem State.modRx_now (n : Lane) (f : Receiver → Receiver) (s : State) : (s.modRx n f).now = s.now := rfl
@[simp] theorem State.modRx_resetAsserted (n : Lane) (f : Receiver → Receiver) (s : State) : (s.modRx n f).resetAsserted = s.resetAsserted := rfl
@[simp] theorem State.modRx_reverse (n : Lane) (f : Receiver → Receiver) (s : State) : (s.modRx n f).reverse = s.reverse := rfl
@[simp] theorem State.modRx_jobs (n : Lane) (f : Receiver → Receiver) (s : State) : (s.modRx n f).jobs = s.jobs := rfl
@[simp] theorem State.modRx_dram (n : Lane) (f : Receiver → Receiver) (s : State) : (s.modRx n f).dram = s.dram := rfl
@[simp] theorem State.modRx_arb (n : Lane) (f : Receiver → Receiver) (s : State) : (s.modRx n f).arb = s.arb := rfl
@[simp] theorem State.modRx_readBuffer (n : Lane) (f : Receiver → Receiver) (s : State) : (s.modRx n f).readBuffer = s.readBuffer := rfl
@[simp] theorem State.modRx_tone (n : Lane) (f : Receiver → Receiver) (s : State) : (s.modRx n f).tone = s.tone := rfl
@[simp] theorem State.modRx_comp (n : Lane) (f : Receiver → Receiver) (s : State) : (s.modRx n f).comp = s.comp := rfl
@[simp] theorem State.modRx_timing (n : Lane) (f : Receiver → Receiver) (s : State) : (s.modRx n f).timing = s.timing := rfl
@[simp] theorem State.modRx_tx (n : Lane) (f : Receiver → Receiver) (s : State) : (s.modRx n f).tx = s.tx := rfl
@[simp] theorem State.modRx_chan (n : Lane) (f : Receiver → Receiver) (s : State) : (s.modRx n f).chan = s.chan := rfl
@[simp] theorem State.modRx_pending (n : Lane) (f : Receiver → Receiver) (s : State) : (s.modRx n f).pending = s.pending := rfl

@[simp] theorem State.modRelay_now (n : Lane) (f : Relay → Relay) (s : State) : (s.modRelay n f).now = s.now := rfl
@[simp] theorem State.modRelay_resetAsserted (n : Lane) (f : Relay → Relay) (s : State) : (s.modRelay n f).resetAsserted = s.resetAsserted := rfl
@[simp] theorem State.modRelay_reverse (n : Lane) (f : Relay → Relay) (s : State) : (s.modRelay n f).reverse = s.reverse := rfl
@[simp] theorem State.modRelay_jobs (n : Lane) (f : Relay → Relay) (s : State) : (s.modRelay n f).jobs = s.jobs := rfl
@[simp] theorem State.modRelay_dram (n : Lane) (f : Relay → Relay) (s : State) : (s.modRelay n f).dram = s.dram := rfl
@[simp] theorem State.modRelay_arb (n : Lane) (f : Relay → Relay) (s : State) : (s.modRelay n f).arb = s.arb := rfl
@[simp] theorem State.modRelay_readBuffer (n : Lane) (f : Relay → Relay) (s : State) : (s.modRelay n f).readBuffer = s.readBuffer := rfl
@[simp] theorem State.modRelay_tone (n : Lane) (f : Relay → Relay) (s : State) : (s.modRelay n f).tone = s.tone := rfl
@[simp] theorem State.modRelay_comp (n : Lane) (f : Relay → Relay) (s : State) : (s.modRelay n f).comp = s.comp := rfl
@[simp] theorem State.modRelay_timing (n : Lane) (f : Relay → Relay) (s : State) : (s.modRelay n f).timing = s.timing := rfl
@[simp] theorem State.modRelay_tx (n : Lane) (f : Relay → Relay) (s : State) : (s.modRelay n f).tx = s.tx := rfl
@[simp] theorem State.modRelay_chan (n : Lane) (f : Relay → Relay) (s : State) : (s.modRelay n f).chan = s.chan := rfl
@[simp] theorem State.modRelay_pending (n : Lane) (f : Relay → Relay) (s : State) : (s.modRelay n f).pending = s.pending := rfl

@[simp] theorem State.modStore_now (n : Lane) (f : LaneStore → LaneStore) (s : State) : (s.modStore n f).now = s.now := rfl
@[simp] theorem State.modStore_resetAsserted (n : Lane) (f : LaneStore → LaneStore) (s : State) : (s.modStore n f).resetAsserted = s.resetAsserted := rfl
@[simp] theorem State.modStore_reverse (n : Lane) (f : LaneStore → LaneStore) (s : State) : (s.modStore n f).reverse = s.reverse := rfl
@[simp] theorem State.modStore_jobs (n : Lane) (f : LaneStore → LaneStore) (s : State) : (s.modStore n f).jobs = s.jobs := rfl
@[simp] theorem State.modStore_dram (n : Lane) (f : LaneStore → LaneStore) (s : State) : (s.modStore n f).dram = s.dram := rfl
@[simp] theorem State.modStore_arb (n : Lane) (f : LaneStore → LaneStore) (s : State) : (s.modStore n f).arb = s.arb := rfl
@[simp] theorem State.modStore_readBuffer (n : Lane) (f : LaneStore → LaneStore) (s : State) : (s.modStore n f).readBuffer = s.readBuffer := rfl
@[simp] theorem State.modStore_tone (n : Lane) (f : LaneStore → LaneStore) (s : State) : (s.modStore n f).tone = s.tone := rfl
@[simp] theorem State.modStore_comp (n : Lane) (f : LaneStore → LaneStore) (s : State) : (s.modStore n f).comp = s.comp := rfl
@[simp] theorem State.modStore_timing (n : Lane) (f : LaneStore → LaneStore) (s : State) : (s.modStore n f).timing = s.timing := rfl
@[simp] theorem State.modStore_tx (n : Lane) (f : LaneStore → LaneStore) (s : State) : (s.modStore n f).tx = s.tx := rfl
@[simp] theorem State.modStore_chan (n : Lane) (f : LaneStore → LaneStore) (s : State) : (s.modStore n f).chan = s.chan := rfl
@[simp] theorem State.modStore_pending (n : Lane) (f : LaneStore → LaneStore) (s : State) : (s.modStore n f).pending = s.pending := rfl

@[simp] theorem State.modMotion_now (n : Lane) (f : Motion → Motion) (s : State) : (s.modMotion n f).now = s.now := rfl
@[simp] theorem State.modMotion_resetAsserted (n : Lane) (f : Motion → Motion) (s : State) : (s.modMotion n f).resetAsserted = s.resetAsserted := rfl
@[simp] theorem State.modMotion_reverse (n : Lane) (f : Motion → Motion) (s : State) : (s.modMotion n f).reverse = s.reverse := rfl
@[simp] theorem State.modMotion_jobs (n : Lane) (f : Motion → Motion) (s : State) : (s.modMotion n f).jobs = s.jobs := rfl
@[simp] theorem State.modMotion_dram (n : Lane) (f : Motion → Motion) (s : State) : (s.modMotion n f).dram = s.dram := rfl
@[simp] theorem State.modMotion_arb (n : Lane) (f : Motion → Motion) (s : State) : (s.modMotion n f).arb = s.arb := rfl
@[simp] theorem State.modMotion_readBuffer (n : Lane) (f : Motion → Motion) (s : State) : (s.modMotion n f).readBuffer = s.readBuffer := rfl
@[simp] theorem State.modMotion_tone (n : Lane) (f : Motion → Motion) (s : State) : (s.modMotion n f).tone = s.tone := rfl
@[simp] theorem State.modMotion_comp (n : Lane) (f : Motion → Motion) (s : State) : (s.modMotion n f).comp = s.comp := rfl
@[simp] theorem State.modMotion_timing (n : Lane) (f : Motion → Motion) (s : State) : (s.modMotion n f).timing = s.timing := rfl
@[simp] theorem State.modMotion_tx (n : Lane) (f : Motion → Motion) (s : State) : (s.modMotion n f).tx = s.tx := rfl
@[simp] theorem State.modMotion_chan (n : Lane) (f : Motion → Motion) (s : State) : (s.modMotion n f).chan = s.chan := rfl
@[simp] theorem State.modMotion_pending (n : Lane) (f : Motion → Motion) (s : State) : (s.modMotion n f).pending = s.pending := rfl

@[simp] theorem State.modDust_now (n : Lane) (f : Dust → Dust) (s : State) : (s.modDust n f).now = s.now := rfl
@[simp] theorem State.modDust_resetAsserted (n : Lane) (f : Dust → Dust) (s : State) : (s.modDust n f).resetAsserted = s.resetAsserted := rfl
@[simp] theorem State.modDust_reverse (n : Lane) (f : Dust → Dust) (s : State) : (s.modDust n f).reverse = s.reverse := rfl
@[simp] theorem State.modDust_jobs (n : Lane) (f : Dust → Dust) (s : State) : (s.modDust n f).jobs = s.jobs := rfl
@[simp] theorem State.modDust_dram (n : Lane) (f : Dust → Dust) (s : State) : (s.modDust n f).dram = s.dram := rfl
@[simp] theorem State.modDust_arb (n : Lane) (f : Dust → Dust) (s : State) : (s.modDust n f).arb = s.arb := rfl
@[simp] theorem State.modDust_readBuffer (n : Lane) (f : Dust → Dust) (s : State) : (s.modDust n f).readBuffer = s.readBuffer := rfl
@[simp] theorem State.modDust_tone (n : Lane) (f : Dust → Dust) (s : State) : (s.modDust n f).tone = s.tone := rfl
@[simp] theorem State.modDust_comp (n : Lane) (f : Dust → Dust) (s : State) : (s.modDust n f).comp = s.comp := rfl
@[simp] theorem State.modDust_timing (n : Lane) (f : Dust → Dust) (s : State) : (s.modDust n f).timing = s.timing := rfl
@[simp] theorem State.modDust_tx (n : Lane) (f : Dust → Dust) (s : State) : (s.modDust n f).tx = s.tx := rfl
@[simp] theorem State.modDust_chan (n : Lane) (f : Dust → Dust) (s : State) : (s.modDust n f).chan = s.chan := rfl
@[simp] theorem State.modDust_pending (n : Lane) (f : Dust → Dust) (s : State) : (s.modDust n f).pending = s.pending := rfl

@[simp] theorem State.modPurge_now (n : Lane) (f : Purge → Purge) (s : State) : (s.modPurge n f).now = s.now := rfl
@[simp] theorem State.modPurge_resetAsserted (n : Lane) (f : Purge → Purge) (s : State) : (s.modPurge n f).resetAsserted = s.resetAsserted := rfl
@[simp] theorem State.modPurge_reverse (n : Lane) (f : Purge → Purge) (s : State) : (s.modPurge n f).reverse = s.reverse := rfl
@[simp] theorem State.modPurge_jobs (n : Lane) (f : Purge → Purge) (s : State) : (s.modPurge n f).jobs = s.jobs := rfl
@[simp] theorem State.modPurge_dram (n : Lane) (f : Purge → Purge) (s : State) : (s.modPurge n f).dram = s.dram := rfl
@[simp] theorem State.modPurge_arb (n : Lane) (f : Purge → Purge) (s : State) : (s.modPurge n f).arb = s.arb := rfl
@[simp] theorem State.modPurge_readBuffer (n : Lane) (f : Purge → Purge) (s : State) : (s.modPurge n f).readBuffer = s.readBuffer := rfl
@[simp] theorem State.modPurge_tone (n : Lane) (f : Purge → Purge) (s : State) : (s.modPurge n f).tone = s.tone := rfl
@[simp] theorem State.modPurge_comp (n : Lane) (f : Purge → Purge) (s : State) : (s.modPurge n f).comp = s.comp := rfl
@[simp] theorem State.modPurge_timing (n : Lane) (f : Purge → Purge) (s : State) : (s.modPurge n f).timing = s.timing := rfl
@[simp] theorem State.modPurge_tx (n : Lane) (f : Purge → Purge) (s : State) : (s.modPurge n f).tx = s.tx := rfl
@[simp] theorem State.modPurge_chan (n : Lane) (f : Purge → Purge) (s : State) : (s.modPurge n f).chan = s.chan := rfl
@[simp] theorem State.modPurge_pending (n : Lane) (f : Purge → Purge) (s : State) : (s.modPurge n f).pending = s.pending := rfl

@[simp] theorem State.modTest_now (n : Lane) (f : LinkTest → LinkTest) (s : State) : (s.modTest n f).now = s.now := rfl
@[simp] theorem State.modTest_resetAsserted (n : Lane) (f : LinkTest → LinkTest) (s : State) : (s.modTest n f).resetAsserted = s.resetAsserted := rfl
@[simp] theorem State.modTest_reverse (n : Lane) (f : LinkTest → LinkTest) (s : State) : (s.modTest n f).reverse = s.reverse := rfl
@[simp] theorem State.modTest_jobs (n : Lane) (f : LinkTest → LinkTest) (s : State) : (s.modTest n f).jobs = s.jobs := rfl
@[simp] theorem State.modTest_dram (n : Lane) (f : LinkTest → LinkTest) (s : State) : (s.modTest n f).dram = s.dram := rfl
@[simp] theorem State.modTest_arb (n : Lane) (f : LinkTest → LinkTest) (s : State) : (s.modTest n f).arb = s.arb := rfl
@[simp] theorem State.modTest_readBuffer (n : Lane) (f : LinkTest → LinkTest) (s : State) : (s.modTest n f).readBuffer = s.readBuffer := rfl
@[simp] theorem State.modTest_tone (n : Lane) (f : LinkTest → LinkTest) (s : State) : (s.modTest n f).tone = s.tone := rfl
@[simp] theorem State.modTest_comp (n : Lane) (f : LinkTest → LinkTest) (s : State) : (s.modTest n f).comp = s.comp := rfl
@[simp] theorem State.modTest_timing (n : Lane) (f : LinkTest → LinkTest) (s : State) : (s.modTest n f).timing = s.timing := rfl
@[simp] theorem State.modTest_tx (n : Lane) (f : LinkTest → LinkTest) (s : State) : (s.modTest n f).tx = s.tx := rfl
@[simp] theorem State.modTest_chan (n : Lane) (f : LinkTest → LinkTest) (s : State) : (s.modTest n f).chan = s.chan := rfl
@[simp] theorem State.modTest_pending (n : Lane) (f : LinkTest → LinkTest) (s : State) : (s.modTest n f).pending = s.pending := rfl

@[simp] theorem State.modCounters_now (n : Lane) (f : LaneCounters → LaneCounters) (s : State) : (s.modCounters n f).now = s.now := rfl
@[simp] theorem State.modCounters_resetAsserted (n : Lane) (f : LaneCounters → LaneCounters) (s : State) : (s.modCounters n f).resetAsserted = s.resetAsserted := rfl
@[simp] theorem State.modCounters_reverse (n : Lane) (f : LaneCounters → LaneCounters) (s : State) : (s.modCounters n f).reverse = s.reverse := rfl
@[simp] theorem State.modCounters_jobs (n : Lane) (f : LaneCounters → LaneCounters) (s : State) : (s.modCounters n f).jobs = s.jobs := rfl
@[simp] theorem State.modCounters_dram (n : Lane) (f : LaneCounters → LaneCounters) (s : State) : (s.modCounters n f).dram = s.dram := rfl
@[simp] theorem State.modCounters_arb (n : Lane) (f : LaneCounters → LaneCounters) (s : State) : (s.modCounters n f).arb = s.arb := rfl
@[simp] theorem State.modCounters_readBuffer (n : Lane) (f : LaneCounters → LaneCounters) (s : State) : (s.modCounters n f).readBuffer = s.readBuffer := rfl
@[simp] theorem State.modCounters_tone (n : Lane) (f : LaneCounters → LaneCounters) (s : State) : (s.modCounters n f).tone = s.tone := rfl
@[simp] theorem State.modCounters_comp (n : Lane) (f : LaneCounters → LaneCounters) (s : State) : (s.modCounters n f).comp = s.comp := rfl
@[simp] theorem State.modCounters_timing (n : Lane) (f : LaneCounters → LaneCounters) (s : State) : (s.modCounters n f).timing = s.timing := rfl
@[simp] theorem State.modCounters_tx (n : Lane) (f : LaneCounters → LaneCounters) (s : State) : (s.modCounters n f).tx = s.tx := rfl
@[simp] theorem State.modCounters_chan (n : Lane) (f : LaneCounters → LaneCounters) (s : State) : (s.modCounters n f).chan = s.chan := rfl
@[simp] theorem State.modCounters_pending (n : Lane) (f : LaneCounters → LaneCounters) (s : State) : (s.modCounters n f).pending = s.pending := rfl

@[simp] theorem State.modArb_now (f : Arbiter → Arbiter) (s : State) : (s.modArb f).now = s.now := rfl
@[simp] theorem State.modArb_resetAsserted (f : Arbiter → Arbiter) (s : State) : (s.modArb f).resetAsserted = s.resetAsserted := rfl
@[simp] theorem State.modArb_reverse (f : Arbiter → Arbiter) (s : State) : (s.modArb f).reverse = s.reverse := rfl
@[simp] theorem State.modArb_lanes (f : Arbiter → Arbiter) (s : State) : (s.modArb f).lanes = s.lanes := rfl
@[simp] theorem State.modArb_jobs (f : Arbiter → Arbiter) (s : State) : (s.modArb f).jobs = s.jobs := rfl
@[simp] theorem State.modArb_dram (f : Arbiter → Arbiter) (s : State) : (s.modArb f).dram = s.dram := rfl
@[simp] theorem State.modArb_readBuffer (f : Arbiter → Arbiter) (s : State) : (s.modArb f).readBuffer = s.readBuffer := rfl
@[simp] theorem State.modArb_tone (f : Arbiter → Arbiter) (s : State) : (s.modArb f).tone = s.tone := rfl
@[simp] theorem State.modArb_comp (f : Arbiter → Arbiter) (s : State) : (s.modArb f).comp = s.comp := rfl
@[simp] theorem State.modArb_timing (f : Arbiter → Arbiter) (s : State) : (s.modArb f).timing = s.timing := rfl
@[simp] theorem State.modArb_tx (f : Arbiter → Arbiter) (s : State) : (s.modArb f).tx = s.tx := rfl
@[simp] theorem State.modArb_chan (f : Arbiter → Arbiter) (s : State) : (s.modArb f).chan = s.chan := rfl
@[simp] theorem State.modArb_pending (f : Arbiter → Arbiter) (s : State) : (s.modArb f).pending = s.pending := rfl

@[simp] theorem State.modArb_arb (f : Arbiter → Arbiter) (s : State) : (s.modArb f).arb = f s.arb := rfl

@[simp] theorem State.modComp_now (f : Compositor → Compositor) (s : State) : (s.modComp f).now = s.now := rfl
@[simp] theorem State.modComp_resetAsserted (f : Compositor → Compositor) (s : State) : (s.modComp f).resetAsserted = s.resetAsserted := rfl
@[simp] theorem State.modComp_reverse (f : Compositor → Compositor) (s : State) : (s.modComp f).reverse = s.reverse := rfl
@[simp] theorem State.modComp_lanes (f : Compositor → Compositor) (s : State) : (s.modComp f).lanes = s.lanes := rfl
@[simp] theorem State.modComp_jobs (f : Compositor → Compositor) (s : State) : (s.modComp f).jobs = s.jobs := rfl
@[simp] theorem State.modComp_dram (f : Compositor → Compositor) (s : State) : (s.modComp f).dram = s.dram := rfl
@[simp] theorem State.modComp_arb (f : Compositor → Compositor) (s : State) : (s.modComp f).arb = s.arb := rfl
@[simp] theorem State.modComp_readBuffer (f : Compositor → Compositor) (s : State) : (s.modComp f).readBuffer = s.readBuffer := rfl
@[simp] theorem State.modComp_tone (f : Compositor → Compositor) (s : State) : (s.modComp f).tone = s.tone := rfl
@[simp] theorem State.modComp_timing (f : Compositor → Compositor) (s : State) : (s.modComp f).timing = s.timing := rfl
@[simp] theorem State.modComp_tx (f : Compositor → Compositor) (s : State) : (s.modComp f).tx = s.tx := rfl
@[simp] theorem State.modComp_chan (f : Compositor → Compositor) (s : State) : (s.modComp f).chan = s.chan := rfl
@[simp] theorem State.modComp_pending (f : Compositor → Compositor) (s : State) : (s.modComp f).pending = s.pending := rfl

@[simp] theorem State.modComp_comp (f : Compositor → Compositor) (s : State) : (s.modComp f).comp = f s.comp := rfl

@[simp] theorem State.modTiming_now (f : Timing → Timing) (s : State) : (s.modTiming f).now = s.now := rfl
@[simp] theorem State.modTiming_resetAsserted (f : Timing → Timing) (s : State) : (s.modTiming f).resetAsserted = s.resetAsserted := rfl
@[simp] theorem State.modTiming_reverse (f : Timing → Timing) (s : State) : (s.modTiming f).reverse = s.reverse := rfl
@[simp] theorem State.modTiming_lanes (f : Timing → Timing) (s : State) : (s.modTiming f).lanes = s.lanes := rfl
@[simp] theorem State.modTiming_jobs (f : Timing → Timing) (s : State) : (s.modTiming f).jobs = s.jobs := rfl
@[simp] theorem State.modTiming_dram (f : Timing → Timing) (s : State) : (s.modTiming f).dram = s.dram := rfl
@[simp] theorem State.modTiming_arb (f : Timing → Timing) (s : State) : (s.modTiming f).arb = s.arb := rfl
@[simp] theorem State.modTiming_readBuffer (f : Timing → Timing) (s : State) : (s.modTiming f).readBuffer = s.readBuffer := rfl
@[simp] theorem State.modTiming_tone (f : Timing → Timing) (s : State) : (s.modTiming f).tone = s.tone := rfl
@[simp] theorem State.modTiming_comp (f : Timing → Timing) (s : State) : (s.modTiming f).comp = s.comp := rfl
@[simp] theorem State.modTiming_tx (f : Timing → Timing) (s : State) : (s.modTiming f).tx = s.tx := rfl
@[simp] theorem State.modTiming_chan (f : Timing → Timing) (s : State) : (s.modTiming f).chan = s.chan := rfl
@[simp] theorem State.modTiming_pending (f : Timing → Timing) (s : State) : (s.modTiming f).pending = s.pending := rfl

@[simp] theorem State.modTiming_timing (f : Timing → Timing) (s : State) : (s.modTiming f).timing = f s.timing := rfl

@[simp] theorem State.modChan_now (f : CommandChannel → CommandChannel) (s : State) : (s.modChan f).now = s.now := rfl
@[simp] theorem State.modChan_resetAsserted (f : CommandChannel → CommandChannel) (s : State) : (s.modChan f).resetAsserted = s.resetAsserted := rfl
@[simp] theorem State.modChan_reverse (f : CommandChannel → CommandChannel) (s : State) : (s.modChan f).reverse = s.reverse := rfl
@[simp] theorem State.modChan_lanes (f : CommandChannel → CommandChannel) (s : State) : (s.modChan f).lanes = s.lanes := rfl
@[simp] theorem State.modChan_jobs (f : CommandChannel → CommandChannel) (s : State) : (s.modChan f).jobs = s.jobs := rfl
@[simp] theorem State.modChan_dram (f : CommandChannel → CommandChannel) (s : State) : (s.modChan f).dram = s.dram := rfl
@[simp] theorem State.modChan_arb (f : CommandChannel → CommandChannel) (s : State) : (s.modChan f).arb = s.arb := rfl
@[simp] theorem State.modChan_readBuffer (f : CommandChannel → CommandChannel) (s : State) : (s.modChan f).readBuffer = s.readBuffer := rfl
@[simp] theorem State.modChan_tone (f : CommandChannel → CommandChannel) (s : State) : (s.modChan f).tone = s.tone := rfl
@[simp] theorem State.modChan_comp (f : CommandChannel → CommandChannel) (s : State) : (s.modChan f).comp = s.comp := rfl
@[simp] theorem State.modChan_timing (f : CommandChannel → CommandChannel) (s : State) : (s.modChan f).timing = s.timing := rfl
@[simp] theorem State.modChan_tx (f : CommandChannel → CommandChannel) (s : State) : (s.modChan f).tx = s.tx := rfl
@[simp] theorem State.modChan_pending (f : CommandChannel → CommandChannel) (s : State) : (s.modChan f).pending = s.pending := rfl

@[simp] theorem State.modChan_chan (f : CommandChannel → CommandChannel) (s : State) : (s.modChan f).chan = f s.chan := rfl

@[simp] theorem State.raise_now (f : EventFlag) (s : State) : (s.raise f).now = s.now := rfl
@[simp] theorem State.raise_resetAsserted (f : EventFlag) (s : State) : (s.raise f).resetAsserted = s.resetAsserted := rfl
@[simp] theorem State.raise_reverse (f : EventFlag) (s : State) : (s.raise f).reverse = s.reverse := rfl
@[simp] theorem State.raise_lanes (f : EventFlag) (s : State) : (s.raise f).lanes = s.lanes := rfl
@[simp] theorem State.raise_jobs (f : EventFlag) (s : State) : (s.raise f).jobs = s.jobs := rfl
@[simp] theorem State.raise_dram (f : EventFlag) (s : State) : (s.raise f).dram = s.dram := rfl
@[simp] theorem State.raise_arb (f : EventFlag) (s : State) : (s.raise f).arb = s.arb := rfl
@[simp] theorem State.raise_readBuffer (f : EventFlag) (s : State) : (s.raise f).readBuffer = s.readBuffer := rfl
@[simp] theorem State.raise_tone (f : EventFlag) (s : State) : (s.raise f).tone = s.tone := rfl
@[simp] theorem State.raise_comp (f : EventFlag) (s : State) : (s.raise f).comp = s.comp := rfl
@[simp] theorem State.raise_timing (f : EventFlag) (s : State) : (s.raise f).timing = s.timing := rfl
@[simp] theorem State.raise_tx (f : EventFlag) (s : State) : (s.raise f).tx = s.tx := rfl
@[simp] theorem State.raise_pending (f : EventFlag) (s : State) : (s.raise f).pending = s.pending := rfl

@[simp] theorem State.pushNotice_now (nt : Notice) (s : State) : (s.pushNotice nt).now = s.now := rfl
@[simp] theorem State.pushNotice_resetAsserted (nt : Notice) (s : State) : (s.pushNotice nt).resetAsserted = s.resetAsserted := rfl
@[simp] theorem State.pushNotice_reverse (nt : Notice) (s : State) : (s.pushNotice nt).reverse = s.reverse := rfl
@[simp] theorem State.pushNotice_lanes (nt : Notice) (s : State) : (s.pushNotice nt).lanes = s.lanes := rfl
@[simp] theorem State.pushNotice_jobs (nt : Notice) (s : State) : (s.pushNotice nt).jobs = s.jobs := rfl
@[simp] theorem State.pushNotice_dram (nt : Notice) (s : State) : (s.pushNotice nt).dram = s.dram := rfl
@[simp] theorem State.pushNotice_arb (nt : Notice) (s : State) : (s.pushNotice nt).arb = s.arb := rfl
@[simp] theorem State.pushNotice_readBuffer (nt : Notice) (s : State) : (s.pushNotice nt).readBuffer = s.readBuffer := rfl
@[simp] theorem State.pushNotice_tone (nt : Notice) (s : State) : (s.pushNotice nt).tone = s.tone := rfl
@[simp] theorem State.pushNotice_comp (nt : Notice) (s : State) : (s.pushNotice nt).comp = s.comp := rfl
@[simp] theorem State.pushNotice_timing (nt : Notice) (s : State) : (s.pushNotice nt).timing = s.timing := rfl
@[simp] theorem State.pushNotice_tx (nt : Notice) (s : State) : (s.pushNotice nt).tx = s.tx := rfl
@[simp] theorem State.pushNotice_pending (nt : Notice) (s : State) : (s.pushNotice nt).pending = s.pending := rfl

@[simp] theorem State.discardTransfer_now (p : TransferKind → Bool) (s : State) : (s.discardTransfer p).now = s.now := rfl
@[simp] theorem State.discardTransfer_resetAsserted (p : TransferKind → Bool) (s : State) : (s.discardTransfer p).resetAsserted = s.resetAsserted := rfl
@[simp] theorem State.discardTransfer_reverse (p : TransferKind → Bool) (s : State) : (s.discardTransfer p).reverse = s.reverse := rfl
@[simp] theorem State.discardTransfer_lanes (p : TransferKind → Bool) (s : State) : (s.discardTransfer p).lanes = s.lanes := rfl
@[simp] theorem State.discardTransfer_jobs (p : TransferKind → Bool) (s : State) : (s.discardTransfer p).jobs = s.jobs := rfl
@[simp] theorem State.discardTransfer_dram (p : TransferKind → Bool) (s : State) : (s.discardTransfer p).dram = s.dram := rfl
@[simp] theorem State.discardTransfer_readBuffer (p : TransferKind → Bool) (s : State) : (s.discardTransfer p).readBuffer = s.readBuffer := rfl
@[simp] theorem State.discardTransfer_tone (p : TransferKind → Bool) (s : State) : (s.discardTransfer p).tone = s.tone := rfl
@[simp] theorem State.discardTransfer_comp (p : TransferKind → Bool) (s : State) : (s.discardTransfer p).comp = s.comp := rfl
@[simp] theorem State.discardTransfer_timing (p : TransferKind → Bool) (s : State) : (s.discardTransfer p).timing = s.timing := rfl
@[simp] theorem State.discardTransfer_tx (p : TransferKind → Bool) (s : State) : (s.discardTransfer p).tx = s.tx := rfl
@[simp] theorem State.discardTransfer_chan (p : TransferKind → Bool) (s : State) : (s.discardTransfer p).chan = s.chan := rfl
@[simp] theorem State.discardTransfer_pending (p : TransferKind → Bool) (s : State) : (s.discardTransfer p).pending = s.pending := rfl

@[simp] theorem State.bringExecution_now (s : State) : s.bringExecution.now = s.now := rfl
@[simp] theorem State.bringExecution_resetAsserted (s : State) : s.bringExecution.resetAsserted = s.resetAsserted := rfl
@[simp] theorem State.bringExecution_reverse (s : State) : s.bringExecution.reverse = s.reverse := rfl
@[simp] theorem State.bringExecution_lanes (s : State) : s.bringExecution.lanes = s.lanes := rfl
@[simp] theorem State.bringExecution_jobs (s : State) : s.bringExecution.jobs = s.jobs := rfl
@[simp] theorem State.bringExecution_dram (s : State) : s.bringExecution.dram = s.dram := rfl
@[simp] theorem State.bringExecution_arb (s : State) : s.bringExecution.arb = s.arb := rfl
@[simp] theorem State.bringExecution_readBuffer (s : State) : s.bringExecution.readBuffer = s.readBuffer := rfl
@[simp] theorem State.bringExecution_tone (s : State) : s.bringExecution.tone = s.tone := rfl
@[simp] theorem State.bringExecution_comp (s : State) : s.bringExecution.comp = s.comp := rfl
@[simp] theorem State.bringExecution_timing (s : State) : s.bringExecution.timing = s.timing := rfl
@[simp] theorem State.bringExecution_tx (s : State) : s.bringExecution.tx = s.tx := rfl
@[simp] theorem State.bringExecution_chan (s : State) : s.bringExecution.chan = s.chan := rfl

@[simp] theorem State.bringExecution_pending (s : State) : s.bringExecution.pending
    = executionDue ⟨s.now, s.reverse⟩ s.chan.queue s.chan.notices.length ++ s.pending := rfl

/-! ### A lane's blocks after an update -/

@[simp] theorem State.lane_modLane_same (n : Lane) (f : LaneBlocks → LaneBlocks) (s : State) :
    (s.modLane n f).lane n = f (s.lane n) := Four.get_modify_same _ _ _

theorem State.lane_modLane_other {n k : Lane} (f : LaneBlocks → LaneBlocks) (s : State) (h : k ≠ n) :
    (s.modLane n f).lane k = s.lane k := Four.get_modify_other _ _ h

@[simp] theorem State.lane_modRx_same (n : Lane) (f : Receiver → Receiver) (s : State) :
    (s.modRx n f).lane n = { s.lane n with rx := f (s.lane n).rx } := State.lane_modLane_same _ _ _

theorem State.lane_modRx_other {n k : Lane} (f : Receiver → Receiver) (s : State) (h : k ≠ n) :
    (s.modRx n f).lane k = s.lane k := State.lane_modLane_other _ _ h

@[simp] theorem State.lane_modRelay_same (n : Lane) (f : Relay → Relay) (s : State) :
    (s.modRelay n f).lane n = { s.lane n with relay := f (s.lane n).relay } := State.lane_modLane_same _ _ _

theorem State.lane_modRelay_other {n k : Lane} (f : Relay → Relay) (s : State) (h : k ≠ n) :
    (s.modRelay n f).lane k = s.lane k := State.lane_modLane_other _ _ h

@[simp] theorem State.lane_modStore_same (n : Lane) (f : LaneStore → LaneStore) (s : State) :
    (s.modStore n f).lane n = { s.lane n with store := f (s.lane n).store } := State.lane_modLane_same _ _ _

theorem State.lane_modStore_other {n k : Lane} (f : LaneStore → LaneStore) (s : State) (h : k ≠ n) :
    (s.modStore n f).lane k = s.lane k := State.lane_modLane_other _ _ h

@[simp] theorem State.lane_modMotion_same (n : Lane) (f : Motion → Motion) (s : State) :
    (s.modMotion n f).lane n = { s.lane n with motion := f (s.lane n).motion } := State.lane_modLane_same _ _ _

theorem State.lane_modMotion_other {n k : Lane} (f : Motion → Motion) (s : State) (h : k ≠ n) :
    (s.modMotion n f).lane k = s.lane k := State.lane_modLane_other _ _ h

@[simp] theorem State.lane_modDust_same (n : Lane) (f : Dust → Dust) (s : State) :
    (s.modDust n f).lane n = { s.lane n with dust := f (s.lane n).dust } := State.lane_modLane_same _ _ _

theorem State.lane_modDust_other {n k : Lane} (f : Dust → Dust) (s : State) (h : k ≠ n) :
    (s.modDust n f).lane k = s.lane k := State.lane_modLane_other _ _ h

@[simp] theorem State.lane_modPurge_same (n : Lane) (f : Purge → Purge) (s : State) :
    (s.modPurge n f).lane n = { s.lane n with purge := f (s.lane n).purge } := State.lane_modLane_same _ _ _

theorem State.lane_modPurge_other {n k : Lane} (f : Purge → Purge) (s : State) (h : k ≠ n) :
    (s.modPurge n f).lane k = s.lane k := State.lane_modLane_other _ _ h

@[simp] theorem State.lane_modTest_same (n : Lane) (f : LinkTest → LinkTest) (s : State) :
    (s.modTest n f).lane n = { s.lane n with test := f (s.lane n).test } := State.lane_modLane_same _ _ _

theorem State.lane_modTest_other {n k : Lane} (f : LinkTest → LinkTest) (s : State) (h : k ≠ n) :
    (s.modTest n f).lane k = s.lane k := State.lane_modLane_other _ _ h

@[simp] theorem State.lane_advance (m : Moment) (s : State) (n : Lane) : (s.advance m).lane n = s.lane n := rfl
@[simp] theorem State.lane_modArb (f : Arbiter → Arbiter) (s : State) (n : Lane) : (s.modArb f).lane n = s.lane n := rfl
@[simp] theorem State.lane_modComp (f : Compositor → Compositor) (s : State) (n : Lane) : (s.modComp f).lane n = s.lane n := rfl
@[simp] theorem State.lane_modTiming (f : Timing → Timing) (s : State) (n : Lane) : (s.modTiming f).lane n = s.lane n := rfl
@[simp] theorem State.lane_modChan (f : CommandChannel → CommandChannel) (s : State) (n : Lane) : (s.modChan f).lane n = s.lane n := rfl
@[simp] theorem State.lane_raise (f : EventFlag) (s : State) (n : Lane) : (s.raise f).lane n = s.lane n := rfl
@[simp] theorem State.lane_pushNotice (nt : Notice) (s : State) (n : Lane) : (s.pushNotice nt).lane n = s.lane n := rfl
@[simp] theorem State.lane_bringExecution (s : State) (n : Lane) : s.bringExecution.lane n = s.lane n := rfl
@[simp] theorem State.lane_discardTransfer (p : TransferKind → Bool) (s : State) (n : Lane) : (s.discardTransfer p).lane n = s.lane n := rfl

end Machine

end Sys2Proof
end

