-- ==== Sys2Proof/Laws/Commands.lean ====
section
/-! SUPPORT. What an execution of the oldest command message is: on a state that is ready for it the body runs on the
dequeued state, and on any other only time passes; what the payload fields read. -/

namespace Sys2Proof.Machine

/-! ### The execution (R156) -/

theorem State.execute_ready {s : State} {k : Nat} {c : CmdMessage} (h : s.ReadyFor k c) (m : Moment)
    (body : CmdMessage → State → State) :
    s.execute m (CmdMessage.is k) body = body c ((s.advance m).modChan CommandChannel.dequeue) := by
  obtain ⟨h1, h2, h3, h4⟩ := h
  unfold State.execute
  cases hq : s.chan.queue with
  | nil => rw [hq] at h2; cases h2
  | cons d l =>
    rw [hq] at h2
    cases h2
    have hq' : (s.advance m).chan.queue = c :: l := hq
    rw [hq']
    have he : (s.advance m).executes (CmdMessage.is k) c = true := by
      simp [State.executes, CmdMessage.is, h1, h3, h4, noticeCapacity]
    simp only [he, if_true]

theorem State.answer_dequeued (s : State) (m : Moment) (c : CmdMessage) (code : ReplyCode) (data : List Byte) :
    ((s.advance m).modChan CommandChannel.dequeue).answer c code data = s.replied m (c.reply code data) := by
  simp [State.answer, State.replied, State.bringExecution, State.pushNotice, State.advance, State.modChan,
    CommandChannel.dequeue]

theorem executionDue_head (m : Moment) (c : CmdMessage) (l : List CmdMessage) {k : Nat} (h : k < 16) :
    executionDue m (c :: l) k = [c.execution m] := by
  simp [executionDue, noticeCapacity, h]

theorem executionDue_full (m : Moment) (l : List CmdMessage) {k : Nat} (h : 16 ≤ k) : executionDue m l k = [] := by
  simp [executionDue, noticeCapacity, Nat.not_lt.2 h]

@[simp] theorem executionDue_empty (m : Moment) (k : Nat) : executionDue m [] k = [] := by
  simp [executionDue]

/-! ### An arrival (R155, R156, log 9) -/

/-- What an arrival can do: the receiver and the queue take a run of bytes, and the events that come next are the execution
that is due and then the bytes that are left. -/
theorem State.takeArrival_eq (bytes : List Byte) (s : State) :
    s.takeArrival bytes = { s with
      chan := (CommandChannel.takeRun s.now bytes s.chan).1
      pending := executionDue ⟨s.now, s.reverse⟩ (CommandChannel.takeRun s.now bytes s.chan).1.queue
          (CommandChannel.takeRun s.now bytes s.chan).1.notices.length
        ++ (match (CommandChannel.takeRun s.now bytes s.chan).2 with
          | [] => s.pending
          | b :: l => .commandMessageArrival ⟨s.now, s.reverse⟩ (b :: l) :: s.pending) } := by
  unfold State.takeArrival
  generalize CommandChannel.takeRun s.now bytes s.chan = taken
  obtain ⟨c, rest⟩ := taken
  cases rest <;> rfl

/-- The bytes that a run leaves are its last ones. -/
theorem CommandChannel.takeRun_suffix (now : Nat) (bytes : List Byte) (c : CommandChannel) :
    (CommandChannel.takeRun now bytes c).2 <:+ bytes := by
  induction bytes generalizing c with
  | nil => exact List.suffix_refl _
  | cons b rest ih =>
    unfold CommandChannel.takeRun
    dsimp only
    split
    · exact List.suffix_cons b rest
    · exact (ih _).trans (List.suffix_cons b rest)

/-! ### The state of a command answered -/

/-- A command about to be executed finds its lanes as they stood. -/
theorem State.lane_dequeued (s : State) (m : Moment) (n : Lane) :
    ((s.advance m).modChan CommandChannel.dequeue).lane n = s.lane n := rfl

theorem State.replied_lane (s : State) (m : Moment) (nt : Notice) (n : Lane) : (s.replied m nt).lane n = s.lane n := rfl

theorem State.replied_now (s : State) (m : Moment) (nt : Notice) : (s.replied m nt).now = max s.now m.tick := rfl

theorem State.replied_timing (s : State) (m : Moment) (nt : Notice) : (s.replied m nt).timing = s.timing := rfl

theorem State.replied_comp (s : State) (m : Moment) (nt : Notice) : (s.replied m nt).comp = s.comp := rfl

/-! ### The payload's fields (R182) -/

theorem laneArg_fourByte (n : Fin 4) (p : List Byte) : laneArg (fourByte n :: p) 0 = some n := by
  match n with
  | 0 => rfl
  | 1 => rfl
  | 2 => rfl
  | 3 => rfl

theorem onOffArg_boolByte {p : List Byte} {i : Nat} {b : Bool} (h : p.getD i 0 = boolByte b) :
    onOffArg p i = some b := by
  unfold onOffArg byteAt
  rw [h]
  cases b <;> rfl

theorem wordAt_wordOf (p : List Byte) (i : Nat) : wordAt p i = wordOf (p.getD i 0) (p.getD (i + 1) 0) := by
  unfold wordAt wordOf byteAt
  omega

end Sys2Proof.Machine
end

