-- ==== Sys2Proof/Laws/Keeps.lean ====
section
/-! SUPPORT. What the shared operations can do, said once: a predicate of the state that the small updates keep is kept by
every operation built from them. `Keeps` is for the operations that leave the Lane Receivers' judgement, the output
timing and the transmitter alone; `KeepsAll` adds those that change them. A small update of a relay context, a Purge
Controller or the Command Channel counts when it keeps what a safe run holds of that block. -/

namespace Sys2Proof.Machine

/-- Whether messages may stand in the relay queue of a lane with this receiver (R30). -/
def Receiver.mayHold (r : Receiver) : Prop := (r.state = .acquiring ∨ r.state = .locked) ∧ r.mode = .normal

/-- A change of a Lane Receiver that keeps what a safe run holds and does not take the lane out of ACQUIRING and LOCKED,
out of LOCKED, or out of NORMAL. -/
structure Receiver.Stays (a b : Receiver) : Prop where
  health : a.healthOk → b.healthOk
  messages : a.mayHold → b.mayHold
  video : a.video = true → b.video = true

/-- Both branches of a choice. -/
theorem either {P : State → Prop} {c : Prop} [Decidable c] {a b : State} (ha : P a) (hb : P b) :
    P (if c then a else b) := by
  split
  · exact ha
  · exact hb

/-- What a safe run holds of the Command Channel. -/
def CommandChannel.ok (c : CommandChannel) : Prop := c.queueOk ∧ c.noticesOk ∧ c.flagsOk

/-- A change of a relay context that keeps what a safe run holds, and fills an empty queue only where messages may
stand. -/
structure LaneBlocks.RelayStays (l : LaneBlocks) (b : Relay) : Prop where
  flight : l.relay.flightOk → b.flightOk
  fill : l.relay.queue = [] → b.queue ≠ [] → l.rx.mayHold

/-- Two lanes' blocks that differ at most in the store, the motion, the dust, the stale age and the counts. -/
def LaneBlocks.Quiet (a b : LaneBlocks) : Prop :=
  b.rx.judged = a.rx.judged ∧ b.relay = a.relay ∧ b.purge = a.purge ∧ b.test = a.test

/-- A predicate that the small updates behind the store, the engine and the purge keep, and the reports offered. -/
structure KeepsQuiet (P : State → Prop) : Prop where
  lanes : ∀ s n f, (∀ l : LaneBlocks, l.Quiet (f l)) → P s → P (s.modLane n f)
  purge : ∀ s n f, ((s.lane n).purge.timersOk → (f (s.lane n).purge).timersOk) → P s → P (s.modPurge n f)
  reports : ∀ s f, (s.chan.ok → (f s.chan).ok) → (f s.chan).apartReports = s.chan.apartReports → P s → P (s.modChan f)
  jobs : ∀ (s : State) j, P s → P { s with jobs := j }
  readBuffer : ∀ (s : State) b, P s → P { s with readBuffer := b }
  comp : ∀ s f, P s → P (s.modComp f)
  discard : ∀ s p, P s → P (s.discardTransfer p)
  hold : ∀ s k, s.arb.port = none → P s → P (s.hold k)

/-- A predicate that the changes of a relay context keep too. -/
structure Keeps (P : State → Prop) : Prop extends KeepsQuiet P where
  relay : ∀ s n f, (s.lane n).RelayStays (f (s.lane n).relay) → P s → P (s.modRelay n f)

/-- A change of the state that the quiet updates and changes of a Link Test Unit alone make up. -/
def Quietly (g : State → State) : Prop :=
  ∀ Q : State → Prop, Keeps Q → (∀ s n f, Q s → Q (s.modTest n f)) → ∀ s, Q s → Q (g s)

/-! ### What keeps the Command Channel as a safe run has it -/

theorem EventFlag.mask_allFlags (f : EventFlag) : f.mask &&& ~~~allFlags = 0 := by
  rcases f with n | n | n | _ | _ | _ | _ | _ <;> first | decide | (revert n; decide)

theorem CommandChannel.flagsOk_raise {c : CommandChannel} (f : EventFlag) (h : c.flagsOk) : (c.raise f).flagsOk := by
  obtain ⟨h1, h2⟩ := h
  have hm := f.mask_allFlags
  constructor
  · simp only [CommandChannel.raise]
    rw [BitVec.and_or_distrib_right, h1, hm]; rfl
  · simp only [CommandChannel.raise]
    ext i hi
    have h3 := congrArg (fun v => v.getLsbD i) h2
    simp only [BitVec.getLsbD_and, BitVec.getLsbD_not] at h3 ⊢
    simp_all

theorem CommandChannel.ok_raise {c : CommandChannel} (f : EventFlag) (h : c.ok) : (c.raise f).ok :=
  ⟨h.1, h.2.1, flagsOk_raise f h.2.2⟩

/-! ### What keeps a relay context and a Purge Controller as a safe run has them -/

theorem Relay.queue_laneDown (n : Lane) (r : Relay) : (r.laneDown n).1.queue = [] := rfl

theorem Relay.flightOk_laneDown (n : Lane) (r : Relay) : (r.laneDown n).1.flightOk := by
  simp [Relay.laneDown, Relay.failAll, Relay.oweAborts, Relay.resync, Relay.flightOk]

theorem Purge.timersOk_countSettle (now : Nat) {p : Purge} (h : p.timersOk) : (p.countSettle now).timersOk := by
  unfold Purge.countSettle
  split
  · split
    · simp_all [Purge.endSettle, Purge.timersOk] <;> rfl
    · exact h
  · exact h

theorem Purge.timersOk_autoBlow (now : Nat) {p : Purge} (h : p.timersOk) (hi : p.state = .idle) :
    (p.autoBlow now).timersOk := by
  simp_all [Purge.autoBlow, Purge.blow, Purge.timersOk] <;> exact ⟨rfl, rfl⟩

theorem Purge.timersOk_takeCompletion (n : Lane) (now : Nat) (video : Bool) (soiled : Option Nat) {p : Purge}
    (h : p.timersOk) : (p.takeCompletion n now video soiled).1.timersOk := by
  have h1 := Purge.timersOk_countSettle now h
  unfold Purge.takeCompletion
  generalize p.countSettle now = q at *
  cases soiled with
  | none => exact h1
  | some k =>
    simp only
    split
    · rename_i hc
      simp only [Bool.and_eq_true, beq_iff_eq] at hc
      exact Purge.timersOk_autoBlow now h1 hc.1.2
    · exact h1

namespace KeepsQuiet

variable {P : State → Prop} (h : KeepsQuiet P) {s : State}
include h

theorem raise (f : EventFlag) (hs : P s) : P (s.raise f) := h.reports s _ (CommandChannel.ok_raise f) rfl hs

theorem offer (nt : Notice) (hs : P s) : P (s.offer nt) := by
  unfold State.offer
  split
  · rename_i hroom
    refine h.reports s _ (fun ok => ⟨ok.1, ?_, ok.2.2⟩) rfl hs
    simp only [CommandChannel.noticesOk, List.length_append, List.length_singleton, noticeCapacity] at hroom ⊢
    omega
  · exact h.raise _ (h.reports s _ (fun ok => ok) rfl hs)

theorem store (n : Lane) (f : LaneStore → LaneStore) (hs : P s) : P (s.modStore n f) :=
  h.lanes s n _ (fun _ => ⟨rfl, rfl, rfl, rfl⟩) hs
theorem motion (n : Lane) (f : Motion → Motion) (hs : P s) : P (s.modMotion n f) :=
  h.lanes s n _ (fun _ => ⟨rfl, rfl, rfl, rfl⟩) hs
theorem dust (n : Lane) (f : Dust → Dust) (hs : P s) : P (s.modDust n f) :=
  h.lanes s n _ (fun _ => ⟨rfl, rfl, rfl, rfl⟩) hs
theorem counters (n : Lane) (f : LaneCounters → LaneCounters) (hs : P s) : P (s.modCounters n f) :=
  h.lanes s n _ (fun _ => ⟨rfl, rfl, rfl, rfl⟩) hs

theorem offerAll (l : List Notice) (hs : P s) : P (s.offerAll l) := by
  unfold State.offerAll
  induction l generalizing s with
  | nil => exact hs
  | cons a l ih => exact ih (h.offer _ hs)

theorem purgeEvent (n : Lane) (f : Purge → Purge × List Notice)
    (hf : (s.lane n).purge.timersOk → (f (s.lane n).purge).1.timersOk) (hs : P s) : P (s.purgeEvent n f) :=
  h.offerAll _ (h.purge s n _ hf hs)

/-! ### The store's write path -/

theorem discardHead (n : Lane) (hs : P s) : P (s.discardHead n) := by
  unfold State.discardHead
  split
  · split
    · exact h.discard _ _ hs
    · exact hs
  · exact hs

theorem countDiscarded (n : Lane) (hs : P s) : P (s.countDiscarded n) := h.counters n _ hs
theorem countSkipped (n : Lane) (hs : P s) : P (s.countSkipped n) := h.counters n _ hs

theorem storeOpen (n : Lane) (number : Nat) (g : Geometry) (hs : P s) : P (s.storeOpen n number g) :=
  h.dust n _ (h.store n _ hs)

theorem storeLine (n : Lane) (line : Nat) (payload : List Byte) (hs : P s) : P (s.storeLine n line payload) :=
  h.dust n _ (h.store n _ hs)

theorem storeAbandon (n : Lane) (hs : P s) : P (s.storeAbandon n) :=
  h.countDiscarded n (h.dust n _ (h.store n _ (h.discardHead n hs)))

theorem closeUnstored (n : Lane) (o : OpenedIn) (hs : P s) : P (s.closeUnstored n o) := by
  unfold State.closeUnstored
  split
  · exact h.dust n _ (h.store n _ (h.discardHead n hs))
  · exact h.countDiscarded n (h.dust n _ (h.store n _ (h.discardHead n hs)))

theorem storeRelease (n : Lane) (hs : P s) : P (s.storeRelease n) :=
  h.comp _ _ (h.discard _ _ (h.store n _ hs))

theorem storeLaneDown (n : Lane) (hs : P s) : P (s.storeLaneDown n) :=
  h.dust n _ (h.store n _ (h.discard _ _ hs))

/-! ### The engine's jobs -/

theorem beginJob (j : Job) (hs : P s) : P (s.beginJob j) := h.jobs _ _ (h.motion _ _ hs)

theorem completeJob (hs : P s) : P s.completeJob := by
  unfold State.completeJob
  split
  · exact hs
  · split
    · exact hs
    · refine h.purgeEvent _ _ (Purge.timersOk_takeCompletion _ _ _ _) (h.jobs _ _ (h.lanes _ _ _ (fun l => ?_) hs))
      unfold LaneBlocks.completeRun
      refine ⟨?_, rfl, rfl, rfl⟩
      simp only
      split <;> rfl

theorem runJobs : ∀ (fuel : Nat) {s : State}, P s → P (s.runJobs fuel)
  | 0, _, hs => hs
  | fuel + 1, s, hs => by
    unfold State.runJobs
    split
    · exact hs
    · split
      · exact hs
      · simp only
        split
        · exact h.beginJob _ hs
        · exact runJobs fuel (h.completeJob (h.beginJob _ hs))

theorem startJobs (hs : P s) : P s.startJobs := h.runJobs _ hs

theorem takeRead (data : List Byte) (hs : P s) : P (s.takeRead data) := by
  unfold State.takeRead
  split
  · exact hs
  · split
    · exact hs
    · simp only
      split
      · exact h.jobs _ _ hs
      · exact h.startJobs (h.completeJob (h.jobs _ _ hs))

theorem enqueue (n : Lane) (slot : Fin 4) (hs : P s) : P (s.enqueue n slot) := by
  unfold State.enqueue
  simp only
  split
  · exact h.jobs _ _ (h.dust n _ (h.store n _ hs))
  · split
    · exact h.countSkipped n (h.dust n _ (h.store n _ hs))
    · exact h.jobs _ _ (h.countSkipped n (h.dust n _ (h.store n _ hs)))

theorem commit (n : Lane) (p : PendingCommit) (hs : P s) : P (s.commit n p) := by
  unfold State.commit
  have h0 := h.store n (fun st => { st with pendingCommit := none }) hs
  simp only
  split
  · exact h.startJobs (h.store n _ (h.dust n _ (h.store n _ h0)))
  · split
    · exact h.startJobs (h.store n _ (h.countDiscarded n (h.dust n _ (h.store n _ h0))))
    · exact h.startJobs (h.store n _ (h.enqueue n _ h0))

theorem commitIfDrained (n : Lane) (hs : P s) : P (s.commitIfDrained n) := by
  unfold State.commitIfDrained
  split
  · split
    · exact h.commit n _ hs
    · exact hs
  · exact hs

theorem storeClose (n : Lane) (d dmax : Nat) (o : OpenedIn) (hs : P s) : P (s.storeClose n d dmax o) := by
  unfold State.storeClose
  split
  · exact h.commitIfDrained n (h.store n _ (h.dust n _ hs))
  · exact hs
  · exact h.closeUnstored n _ hs

theorem abandonJob (n : Lane) (hs : P s) : P (s.abandonJob n) := by
  unfold State.abandonJob
  simp only
  split
  · exact h.motion n _ hs
  · rename_i j _
    have h1 : P (if j.run.isSome then s.discardTransfer TransferKind.isRead else s) := by
      split
      · exact h.discard _ _ hs
      · exact hs
    exact h.jobs _ _ (h.motion n _ h1)

theorem engineGeometry (n : Lane) (g : Geometry) (hs : P s) : P (s.engineGeometry n g) :=
  h.dust n _ (h.motion n _ hs)

/-! ### The lane's counts and damaged lines -/

theorem addDamaged (n : Lane) (line : Nat) (hs : P s) : P (s.addDamaged n line) := by
  unfold State.addDamaged
  simp only
  split
  · exact h.store n _ (h.lanes _ n _ (fun _ => ⟨rfl, rfl, rfl, rfl⟩) hs)
  · exact h.lanes _ n _ (fun _ => ⟨rfl, rfl, rfl, rfl⟩) hs

theorem addDamagedRun (n : Lane) (first k : Nat) (hs : P s) : P (s.addDamagedRun n first k) := by
  unfold State.addDamagedRun
  induction List.range k generalizing s with
  | nil => exact hs
  | cons a l ih => exact ih (h.addDamaged n _ hs)

theorem countPeriod (n : Lane) (out : Bool) (hs : P s) : P (s.countPeriod n out) := by
  unfold State.countPeriod
  split
  · exact h.counters n _ hs
  · exact hs

theorem countPayload (n : Lane) (line : Nat) (f : PayloadFate) (hs : P s) : P (s.countPayload n line f) := by
  unfold State.countPayload
  split
  · exact h.counters n _ (h.addDamaged n _ hs)
  · exact h.counters n _ (h.addDamaged n _ hs)
  · exact hs

theorem raiseDown (n : Lane) (lockout : Bool) (hs : P s) : P (s.raiseDown n lockout) := by
  unfold State.raiseDown
  split
  · exact h.raise _ (h.raise _ hs)
  · exact h.raise _ hs

/-! ### The arbiter -/

theorem completeNext (hs : P s) : P s.completeNext := by
  unfold State.completeNext
  simp only
  split
  · exact h.readBuffer _ _ hs
  · exact hs

theorem grant (hs : P s) : P s.grant := by
  unfold State.grant
  split
  · rename_i hg
    simp only [Bool.and_eq_true, Option.isNone_iff_eq_none] at hg
    split
    · exact h.hold _ _ hg.2 hs
    · exact hs
  · exact hs

theorem serve (hs : P s) : P s.serve := h.grant (h.completeNext hs)

end KeepsQuiet

namespace Keeps

variable {P : State → Prop} (h : Keeps P) {s : State}
include h

theorem relayEvent (n : Lane) (f : Relay → Relay × List Notice)
    (hf : (s.lane n).RelayStays (f (s.lane n).relay).1) (hs : P s) : P (s.relayEvent n f) :=
  h.offerAll _ (h.relay s n _ hf hs)

theorem deliverLaneDown (n : Lane) (hs : P s) : P (s.deliverLaneDown n) :=
  h.startJobs (h.abandonJob n (h.relayEvent n _ ⟨fun _ => Relay.flightOk_laneDown n _, fun _ hne => absurd rfl hne⟩
    (h.storeLaneDown n hs)))

end Keeps

/-! ### What keeps a Lane Receiver as a safe run has it -/

theorem Receiver.Stays.same {a b : Receiver} (h1 : b.state = a.state) (h2 : b.mode = a.mode) (h3 : b.health = a.health)
    (h4 : b.attempts = a.attempts) : a.Stays b :=
  ⟨fun h => by simpa [Receiver.healthOk, h1, h3, h4] using h, fun h => by simpa [Receiver.mayHold, h1, h2] using h,
    fun h => by simpa [Receiver.video, h1, h2] using h⟩

theorem Receiver.state_of_judged {a b : Receiver} (h : a.judged = b.judged) : a.state = b.state :=
  congrArg (f := fun k : Receiver => k.state) (a₁ := a.judged) (a₂ := b.judged) h

theorem Receiver.healthOk_goDown (c : DownCause) (now : Nat) {r : Receiver} : (r.goDown c now).healthOk := by
  simp only [Receiver.healthOk, Receiver.goDown, satAdd]
  by_cases h4 : min 4 (r.attempts + 1) = 4
  · simp [h4]
  · have := Nat.min_le_left 4 (r.attempts + 1)
    cases c <;> simp [h4, this, DownCause.target, DownCause.restHealth]

theorem Receiver.not_mayHold_goDown (c : DownCause) (now : Nat) (r : Receiver) : ¬(r.goDown c now).mayHold := by
  simp only [Receiver.mayHold, Receiver.goDown]
  cases satAdd 4 r.attempts 1 == 4 <;> cases c <;> simp [DownCause.target]

theorem Receiver.healthOk_bump {r : Receiver} (h : r.healthOk) (hne : satAdd 32 r.health 1 ≠ 32) :
    ({ r with health := satAdd 32 r.health 1 } : Receiver).healthOk := by
  obtain ⟨h1, h2, h3, h4⟩ := h
  refine ⟨Nat.min_le_left _ _, ?_, h3, h4⟩
  simp only
  constructor
  · intro hb
    exact absurd hb hne
  · intro hb
    have := h2.2 hb
    simp [satAdd, this]

theorem Receiver.healthOk_relieve {r : Receiver} (hr : r.state.receiving = true) (h : r.healthOk) :
    ({ r with health := r.health - 1 } : Receiver).healthOk := by
  obtain ⟨h1, h2, h3, h4⟩ := h
  have hne : r.state ≠ .faulted := by
    intro hf
    rw [hf] at hr
    cases hr
  have : r.health ≠ 32 := fun hh => hne (h2.1 hh)
  refine ⟨?_, ⟨?_, fun hf => absurd hf hne⟩, h3, h4⟩
  · simp only
    omega
  · simp only
    omega

theorem Receiver.healthOk_toSearching {r : Receiver} (hl : r.state ≠ .lockedOut) (h : r.healthOk) :
    r.toSearching.healthOk := by
  obtain ⟨h1, h2, h3, h4⟩ := h
  refine ⟨by simp [Receiver.toSearching], by simp [Receiver.toSearching], h3, ?_⟩
  simp only [Receiver.toSearching, reduceCtorEq, iff_false]
  exact fun ha => hl (h4.1 ha)

theorem Receiver.stays_closeLocked {r : Receiver} (hr : r.state.receiving = true) : r.Stays r.closeLocked := by
  have hne : r.state ≠ .lockedOut := by
    intro hf
    rw [hf] at hr
    cases hr
  refine ⟨fun h => ?_, fun h => ?_, fun h => ?_⟩
  · unfold Receiver.closeLocked
    split
    · obtain ⟨h1, h2, h3, h4⟩ := h
      simp only
      split
      · exact ⟨h1, h2, by simp, by simp [hne]⟩
      · exact ⟨h1, h2, h3, h4⟩
    · exact h
  · unfold Receiver.closeLocked
    split <;> exact h
  · unfold Receiver.closeLocked
    split <;> exact h

theorem lane_modRx_rx (s : State) (n : Lane) (f : Receiver → Receiver) :
    ((s.modRx n f).lane n).rx = f (s.lane n).rx := by simp

theorem modRx_modRx (s : State) (n : Lane) (f g : Receiver → Receiver) :
    (s.modRx n f).modRx n g = s.modRx n (fun r => g (f r)) := by
  simp only [State.modRx, State.modLane]
  congr 1
  match n with
  | 0 => rfl
  | 1 => rfl
  | 2 => rfl
  | 3 => rfl

/-- The quiet updates keep a Lane Receiver's judgement. -/
theorem keeps_judged (n : Lane) (j : Receiver) : Keeps (fun s => (s.lane n).rx.judged = j) := by
  have other : ∀ (s : State) k (f : LaneBlocks → LaneBlocks), (∀ l, (f l).rx.judged = l.rx.judged) →
      ((s.modLane k f).lane n).rx.judged = (s.lane n).rx.judged := by
    intro s k f hf
    by_cases hk : n = k
    · subst hk
      simp [hf]
    · rw [State.lane_modLane_other f s hk]
  exact
    { lanes := fun s k f hf hs => (other s k f fun l => (hf l).1).trans hs
      purge := fun s k f _ hs => (other s k (fun l => { l with purge := f l.purge }) fun l => rfl).trans hs
      relay := fun s k f _ hs => (other s k (fun l => { l with relay := f l.relay }) fun l => rfl).trans hs
      reports := fun _ _ _ _ hs => hs
      jobs := fun _ _ hs => hs
      readBuffer := fun _ _ hs => hs
      comp := fun _ _ hs => hs
      discard := fun _ _ hs => hs
      hold := fun s k _ hs => by cases k <;> exact hs }

/-- A predicate that the updates of a Lane Receiver's judgement and the output frame starts keep too. A lane leaves
ACQUIRING, LOCKED or NORMAL with its lane down and the loss of the master in the same event (R16, R17, R22, R171). -/
structure KeepsAll (P : State → Prop) : Prop extends Keeps P where
  test : ∀ s n f, P s → P (s.modTest n f)
  rx : ∀ s n f, (s.lane n).rx.Stays (f (s.lane n).rx) → P s → P (s.modRx n f)
  leave : ∀ s n f g1 g2, ((s.lane n).rx.healthOk → (f (s.lane n).rx).healthOk) → ¬(f (s.lane n).rx).mayHold →
    Quietly g1 → Quietly g2 → P s → P ((g2 ((g1 (s.modRx n f)).deliverLaneDown n)).checkMaster n)
  start : ∀ s d, s.timing.phase = .blanking → P s → P (s.startFrame d)
  force : ∀ s, s.timing.phase = .blanking → P s → P s.forceStart
  offset : ∀ s n l f, P s → P (s.lineToTiming n l f)

/-- A predicate that any change of the output timing keeps, and what else an output frame start changes. -/
structure KeepsTiming (P : State → Prop) : Prop extends KeepsQuiet P where
  timing : ∀ s f, P s → P (s.modTiming f)
  tone : ∀ (s : State) t, P s → P { s with tone := t }
  tx : ∀ (s : State) t, P s → P { s with tx := t }
  rings : ∀ (s : State) t, P s → P { s with lanes := s.lanes.map LaneBlocks.atFrameStart, tx := t }

namespace KeepsTiming

variable {P : State → Prop} (h : KeepsTiming P) {s : State}
include h

/-! ### Output timing -/

theorem applyRaster (hs : P s) : P s.applyRaster := by
  unfold State.applyRaster
  split
  · exact hs
  · simp only
    split
    · exact h.timing _ _ hs
    · split
      · exact h.offer _ (h.comp _ _ (h.timing _ _ hs))
      · exact h.comp _ _ (h.timing _ _ hs)

theorem selectMaster (d : Option Lane) (hs : P s) : P (s.selectMaster d) := by
  unfold State.selectMaster
  simp only
  split
  · split
    · exact hs
    · exact h.offer _ (h.timing _ _ hs)
  · exact h.offer _ (h.timing _ _ hs)
  · exact h.offer _ (h.timing _ _ hs)
  · exact h.timing _ _ hs

theorem composeFrame (hs : P s) : P s.composeFrame := by
  unfold State.composeFrame
  exact h.comp _ _ (h.comp _ _ (h.comp _ _ (h.tone _ _ (h.comp _ _ hs))))

theorem startFrame (d : Option Lane) (hs : P s) : P (s.startFrame d) := by
  unfold State.startFrame
  exact h.composeFrame (h.readBuffer _ _ (h.discard _ _ (h.rings _ _ (h.timing _ _
    (h.selectMaster d (h.timing _ _ (h.applyRaster (h.timing _ _ hs))))))))

theorem forceStart (hs : P s) : P s.forceStart := h.startFrame _ (h.timing _ _ hs)

theorem lineToTiming (n : Lane) (line frame : Nat) (hs : P s) : P (s.lineToTiming n line frame) := by
  unfold State.lineToTiming
  split
  · simp only
    split
    · exact h.startFrame _ (h.timing _ _ (h.timing _ _ hs))
    · exact h.timing _ _ hs
  · exact hs

theorem checkMaster (n : Lane) (hs : P s) : P (s.checkMaster n) := by
  unfold State.checkMaster
  split
  · simp only
    split
    · exact h.startFrame _ (h.offer _ (h.timing _ _ hs))
    · exact h.offer _ (h.timing _ _ hs)
  · exact hs

/-- Such a predicate, when every change of a Lane Receiver keeps it. -/
theorem toAll (hk : Keeps P) (hrx : ∀ s n f, P s → P (s.modRx n f)) (htest : ∀ s n f, P s → P (s.modTest n f)) :
    KeepsAll P :=
  { hk with
    test := htest
    rx := fun s n f _ hs => hrx s n f hs
    leave := fun s n f _ _ _ _ h1 h2 hs =>
      h.checkMaster n (h2 P hk htest _ (hk.deliverLaneDown n (h1 P hk htest _ (hrx s n f hs))))
    start := fun _ d _ hs => h.startFrame d hs
    force := fun _ _ hs => h.forceStart hs
    offset := fun _ n l f hs => h.lineToTiming n l f hs }

end KeepsTiming

namespace KeepsAll

variable {P : State → Prop} (h : KeepsAll P) {s : State}
include h

/-! ### The Lane Receiver -/

theorem keepPayload (n : Lane) (p : Packet) (clean : Bool) (f : PayloadFate) (hs : P s) :
    P (s.keepPayload n p clean f) := by
  unfold State.keepPayload
  split
  · split
    · exact h.storeLine n _ _ hs
    · split
      · exact h.test _ n _ hs
      · exact hs
  · exact hs

theorem downEntry (n : Lane) (c : DownCause) (hs : P s) : P (s.downEntry n c) := by
  unfold State.downEntry
  refine h.leave s n _ (fun t => (t.raiseDown n _).offer _) id (fun _ => Receiver.healthOk_goDown _ _)
    (Receiver.not_mayHold_goDown _ _ _) ?_ (fun _ _ _ _ hq => hq) hs
  exact fun Q hQ _ t ht => hQ.offer _ (hQ.raiseDown n _ ht)

theorem faultyPacket (n : Lane) (hs : P s) : P (s.faultyPacket n) := by
  unfold State.faultyPacket
  simp only
  split
  · unfold State.downEntry
    simp only [modRx_modRx]
    refine h.leave s n _ (fun t => (t.raiseDown n _).offer _) id (fun _ => Receiver.healthOk_goDown _ _)
      (Receiver.not_mayHold_goDown _ _ _) ?_ (fun _ _ _ _ hq => hq) hs
    exact fun Q hQ _ t ht => hQ.offer _ (hQ.raiseDown n _ ht)
  · rename_i hne
    refine h.rx s n _ ⟨fun ok => ?_, fun ok => ok, fun ok => ok⟩ hs
    rw [lane_modRx_rx] at hne
    exact Receiver.healthOk_bump ok hne

theorem channelRestart (n : Lane) (c : LaneCause) (o : Origin) (hl : (s.lane n).rx.state ≠ .lockedOut) (hs : P s) :
    P (s.channelRestart n c o) := by
  unfold State.channelRestart
  simp only
  have hf : (s.lane n).rx.healthOk → (s.lane n).rx.toSearching.healthOk := fun ok => Receiver.healthOk_toSearching hl ok
  split
  · exact h.leave s n _ id id hf (fun ok => by simp [Receiver.mayHold, Receiver.toSearching] at ok) (fun _ _ _ _ hq => hq) (fun _ _ _ _ hq => hq) hs
  · exact h.leave s n _ (fun t => t.offer _) id hf
      (fun ok => by simp [Receiver.mayHold, Receiver.toSearching] at ok) (fun Q hQ _ t ht => hQ.offer _ ht) (fun _ _ _ _ hq => hq) hs

theorem rearmRestart (n : Lane) (o : Origin) (hs : P s) : P (s.rearmRestart n o) := by
  unfold State.rearmRestart
  simp only
  have hf : (s.lane n).rx.healthOk → ({ (s.lane n).rx.toSearching with attempts := 0 } : Receiver).healthOk :=
    fun _ => by simp [Receiver.healthOk, Receiver.toSearching]
  split
  · exact h.leave s n _ id id hf (fun ok => by simp [Receiver.mayHold, Receiver.toSearching] at ok) (fun _ _ _ _ hq => hq) (fun _ _ _ _ hq => hq) hs
  · exact h.leave s n _ (fun t => t.offer _) id hf
      (fun ok => by simp [Receiver.mayHold, Receiver.toSearching] at ok) (fun Q hQ _ t ht => hQ.offer _ ht) (fun _ _ _ _ hq => hq) hs

theorem disable (n : Lane) (o : Origin) (hs : P s) : P (s.disable n o) := by
  unfold State.disable
  exact h.leave s n _ (fun t => t.offer _) (fun t => t.storeRelease n)
    (fun _ => by simp [Receiver.healthOk, Receiver.toOff])
    (fun ok => by simp [Receiver.mayHold, Receiver.toOff] at ok) (fun Q hQ _ t ht => hQ.offer _ ht)
    (fun Q hQ _ t ht => hQ.storeRelease n ht) hs

theorem enable (n : Lane) (o : Origin) (hoff : (s.lane n).rx.state = .off) (hs : P s) : P (s.enable n o) := by
  refine h.offer _ (h.rx _ n _ ⟨fun ok => ?_, fun ok => ?_, fun ok => ?_⟩ hs)
  · simp_all [Receiver.healthOk]
  · simp_all [Receiver.mayHold]
  · simp_all [Receiver.video]

theorem openFrame (n : Lane) (number : Nat) (g : Geometry) (hs : P s) : P (s.openFrame n number g) := by
  unfold State.openFrame
  simp only
  split
  · exact h.storeOpen n _ _ (h.rx _ n _ (.same rfl rfl rfl rfl) hs)
  · exact h.rx _ n _ (.same rfl rfl rfl rfl) hs

theorem takeFrameStart (n : Lane) (number : Nat) (g : Geometry) (hs : P s) : P (s.takeFrameStart n number g) := by
  have hopen : ∀ t : State, P t → P (if (t.lane n).rx.state.receiving then t.openFrame n number g else t) :=
    fun t ht => either (h.openFrame n _ _ ht) ht
  have h1 : P (if (s.lane n).rx.openFrame.isSome then s.overtake n else s) :=
    either (by
      unfold State.overtake
      exact h.counters n _ (h.storeAbandon n (h.rx _ n _ (.same rfl rfl rfl rfl) hs))) hs
  have h2 : ∀ b : Bool, P (if b then
      (if (s.lane n).rx.openFrame.isSome then s.overtake n else s).countFrameNumber n
      else if (s.lane n).rx.openFrame.isSome then s.overtake n else s) :=
    fun b => either (h.counters n _ h1) h1
  exact hopen _ (either (h.faultyPacket n (h2 _)) (h2 _))

theorem frameStart (n : Lane) (number : Nat) (g : Geometry) (hs : P s) : P (s.frameStart n number g) := by
  unfold State.frameStart
  split
  · exact h.takeFrameStart n _ _ hs
  · exact h.faultyPacket n (h.counters n _ hs)

theorem searchFrameStart (n : Lane) (number : Nat) (g : Geometry) (hsearch : (s.lane n).rx.state = .searching)
    (hs : P s) : P (s.searchFrameStart n number g) := by
  unfold State.searchFrameStart
  simp only
  split
  · exact hs
  · split
    · refine h.takeFrameStart n _ _ (h.offer _ (h.rx _ n _ ⟨fun ok => ?_, fun ok => ?_, fun ok => ?_⟩ hs))
      · simp_all [Receiver.healthOk, Receiver.acquire, Receiver.startSilence]
      · simp_all [Receiver.mayHold]
      · simp_all [Receiver.video]
    · exact h.counters n _ hs

theorem takeLine (n : Lane) (p : Packet) (ahead : Bool) (hr : (s.lane n).rx.state.receiving = true) (hs : P s) :
    P (s.takeLine n p ahead) := by
  unfold State.takeLine
  simp only
  generalize ho : (s.lane n).rx.measurePeriod p.word1 s.now = o
  generalize hf : (s.lane n).payloadFate p = f
  have h1 : P ((s.countPeriod n o.outOfTolerance).countPayload n p.word1 f) :=
    h.countPayload n _ _ (h.countPeriod n _ hs)
  have hj : (((s.countPeriod n o.outOfTolerance).countPayload n p.word1 f).lane n).rx.judged = (s.lane n).rx.judged :=
    (keeps_judged n (s.lane n).rx.judged).countPayload n _ _ ((keeps_judged n _).countPeriod n _ rfl)
  generalize (s.countPeriod n o.outOfTolerance).countPayload n p.word1 f = t at *
  split
  · exact h.faultyPacket n h1
  · refine h.offset _ n _ _ (h.keepPayload n _ _ _ ?_)
    have h2 := h.rx _ n (Receiver.passLine p.word1 s.now o) (.same rfl rfl rfl rfl) h1
    have h2' : ((t.modRx n (Receiver.passLine p.word1 s.now o)).lane n).rx.state.receiving = true := by
      rw [lane_modRx_rx]
      show (t.lane n).rx.state.receiving = true
      rw [Receiver.state_of_judged hj]
      exact hr
    generalize t.modRx n (Receiver.passLine p.word1 s.now o) = u at *
    split
    · rename_i hclean
      split
      · rename_i hfault
        simp_all
      · refine h.rx _ n _ ⟨fun ok => ?_, fun ok => ok, fun ok => ok⟩ h2
        exact Receiver.healthOk_relieve h2' ok
    · exact either (h.faultyPacket n h2) h2

theorem line (n : Lane) (p : Packet) (hr : (s.lane n).rx.state.receiving = true) (hs : P s) : P (s.line n p) := by
  have hahead : ∀ t : State, P t → P (if (t.lane n).rx.state.receiving then t.takeLine n p true else t) := by
    intro t ht
    split
    · exact h.takeLine n _ _ ‹_› ht
    · exact ht
  unfold State.line
  simp only
  split
  · exact h.faultyPacket n (h.counters n _ hs)
  · split
    · exact h.faultyPacket n (h.counters n _ hs)
    · split
      · exact h.faultyPacket n (h.counters n _ hs)
      · split
        · exact h.faultyPacket n (h.counters n _ hs)
        · split
          · exact h.takeLine n _ _ hr hs
          · exact hahead _ (h.faultyPacket n (h.counters n _ (h.addDamagedRun n _ _ hs)))

theorem lock (n : Lane) (ha : (s.lane n).rx.state = .acquiring) (hs : P s) : P (s.lock n) := by
  unfold State.lock
  simp only
  apply h.offer
  have h1 := h.rx s n (fun r => { r with
      state := .locked, cleanFrames := 0, lockedRun := 0
      geometry := (s.lane n).rx.acquisition.getD (s.lane n).rx.geometry
      counters := { r.counters with locks := count r.counters.locks 1 } })
    ⟨fun ok => by simp_all [Receiver.healthOk], fun ok => ⟨.inr rfl, ok.2⟩, fun ok => by simp_all [Receiver.video]⟩ hs
  exact either h1 (h.engineGeometry n _ (h.storeRelease n h1))

theorem closeAcquiring (n : Lane) (clean : Bool) (ha : (s.lane n).rx.state = .acquiring) (hs : P s) :
    P (s.closeAcquiring n clean) := by
  unfold State.closeAcquiring
  simp only
  split
  · split
    · refine h.lock n ?_ (h.rx _ n _ (.same rfl rfl rfl rfl) hs)
      rw [lane_modRx_rx]
      exact ha
    · exact h.rx _ n _ (.same rfl rfl rfl rfl) hs
  · exact h.rx _ n _ (.same rfl rfl rfl rfl) hs

theorem closeFrame (n : Lane) (f : OpenFrame) (hr : (s.lane n).rx.state.receiving = true) (hs : P s) :
    P (s.closeFrame n f) := by
  unfold State.closeFrame
  simp only
  refine h.rx _ n _ (.same rfl rfl rfl rfl) ?_
  generalize hb : (if (s.lane n).rx.mode.stores then
      s.storeClose n (s.lane n).rx.damagedCount (s.lane n).rx.dmax f.openedIn else s) = t
  have h1 : P t := hb ▸ either (h.storeClose n _ _ _ hs) hs
  have hj : (t.lane n).rx.judged = (s.lane n).rx.judged := by
    have hk := keeps_judged n (s.lane n).rx.judged
    rw [← hb]
    exact either (P := fun t => (t.lane n).rx.judged = (s.lane n).rx.judged) (hk.storeClose n _ _ _ rfl) rfl
  have hst := Receiver.state_of_judged hj
  split
  · rename_i ha
    exact h.closeAcquiring n _ (hst.trans ha) h1
  · refine h.rx _ n _ ?_ h1
    rw [← hst] at hr
    exact Receiver.stays_closeLocked hr

theorem frameEnd (n : Lane) (number : Nat) (hs : P s) : P (s.frameEnd n number) := by
  have hclose : ∀ (t : State) f, P t → P (if (t.lane n).rx.state.receiving then t.closeFrame n f else t) := by
    intro t f ht
    split
    · exact h.closeFrame n f ‹_› ht
    · exact ht
  unfold State.frameEnd
  simp only
  split
  · exact h.faultyPacket n (h.counters n _ hs)
  · split
    · exact h.faultyPacket n (h.counters n _ hs)
    · have h1 := h.addDamagedRun n (s.lane n).rx.expectedLine ((s.lane n).rx.height - (s.lane n).rx.expectedLine) hs
      exact hclose _ _ (either h1 (h.faultyPacket n (h.counters n _ h1)))

theorem heard (n : Lane) (p : Packet) (hs : P s) : P (s.heard n p) := by
  unfold State.heard
  exact either (h.rx _ n _ (.same rfl rfl rfl rfl) hs) hs

theorem receivePacket (n : Lane) (p : Packet) (hr : (s.lane n).rx.state.receiving = true) (hs : P s) :
    P (s.receivePacket n p) := by
  have hr' : ((s.heard n p).lane n).rx.state.receiving = true := by
    unfold State.heard
    split
    · rw [lane_modRx_rx]
      exact hr
    · exact hr
  unfold State.receivePacket
  simp only
  split
  · exact h.frameStart n _ _ (h.heard n p hs)
  · exact h.line n _ hr' (h.heard n p hs)
  · exact h.frameEnd n _ (h.heard n p hs)

theorem badHeader (n : Lane) (hs : P s) : P (s.badHeader n) := by
  unfold State.badHeader
  simp only
  exact either (h.faultyPacket n (h.counters n _ hs)) (h.counters n _ hs)

theorem lanePacket (n : Lane) (p : Option Packet) (hs : P s) : P (s.lanePacket n p) := by
  unfold State.lanePacket
  split
  · exact h.badHeader n hs
  · split
    · rename_i hst
      split
      · exact h.searchFrameStart n _ _ hst hs
      · exact hs
    · rename_i hst
      exact h.receivePacket n _ (by rw [hst]; rfl) hs
    · rename_i hst
      exact h.receivePacket n _ (by rw [hst]; rfl) hs
    · exact hs

theorem countPacket (n : Lane) (hs : P s) : P (s.countPacket n) := h.counters n _ hs

theorem enterMode (n : Lane) (mode : LaneMode) (hm : mode ≠ .normal) (hs : P s) : P (s.enterMode n mode) := by
  unfold State.enterMode
  exact h.leave s n _ (fun t => t.modTest n _) (fun t => t.storeRelease n) (fun ok => ok)
    (fun ok => hm ok.2)
    (fun _ _ hT t ht => hT t n _ ht) (fun Q hQ _ t ht => hQ.storeRelease n ht) hs

theorem returnToNormal (n : Lane) (o : Origin) (hs : P s) (hm : (s.lane n).rx.mode ≠ .normal) :
    P (s.returnToNormal n o) := by
  have h1 := h.test _ n (fun t => { t.stopGenerator with injectPending := false })
    (h.rx s n (fun r => { r with mode := .normal })
      ⟨fun ok => ok, fun ok => absurd ok.2 hm, fun ok => by simp_all [Receiver.video]⟩ hs)
  unfold State.returnToNormal
  simp only
  split
  · exact h1
  · rename_i hno
    refine h.channelRestart n _ _ ?_ h1
    intro hl
    exact hno (.inr (by simpa using hl))

theorem setLaneMode (n : Lane) (mode : LaneMode) (p : Pattern) (o : Origin) (hs : P s) :
    P (s.setLaneMode n mode p o) := by
  unfold State.setLaneMode
  simp only
  split
  · exact either (h.test _ n _ hs) (h.test _ n _ (h.test _ n _ hs))
  · rename_i hne
    split
    · refine h.returnToNormal n _ (h.test _ n _ hs) ?_
      exact fun hm => hne (Eq.symm (by simpa using hm))
    · rename_i hnn
      exact h.enterMode n _ hnn (h.test _ n _ hs)

end KeepsAll

end Sys2Proof.Machine
end

