-- ==== Sys2Proof/Laws/Resets.lean ====
section
/-! SUPPORT. What a reset leaves, whichever of the three it is. -/

namespace Sys2Proof.Machine

/-- An executed RESTART, as one state (R166). -/
theorem exec_restart_ready {s : State} {c : CmdMessage} (m : Moment) (hr : s.ReadyFor 3 c) (hp : c.payload = []) :
    exec (.restart m) s = .next (((s.advance m).modChan CommandChannel.dequeue).restartBy c.tag) := by
  obtain ⟨h1, h2, h3, h4⟩ := hr
  simp only [exec, execRestart, State.execute]
  have hq : (s.advance m).chan.queue.head? = some c := h2
  split
  · rename_i h0
    rw [h0] at hq
    cases hq
  · rename_i d l h0
    rw [h0] at hq
    cases hq
    have hx : (s.advance m).executes (CmdMessage.is 3) c = true := by
      simp only [State.executes, CmdMessage.is, h3, noticeCapacity]
      simp [h1, h4]
    rw [if_pos hx]
    simp [State.ofLength, hp]

/-- A pin released, as one state (R43). -/
theorem exec_pinResetRelease_asserted {s : State} (m : Moment) (h : s.resetAsserted = true) :
    exec (.pinResetRelease m) s = .next (s.advance m).startFromPin := by
  have h' : (s.advance m).resetAsserted = true := h
  simp only [exec, execPinResetRelease, h', if_true]

/-- What every reset leaves. -/
theorem State.ResetTo.leaves {s t : State} (h : s.ResetTo t) :
    t.lanes = Four.const .reset ∧ t.jobs = [] ∧ (t.dram = [] ∨ t.dram = s.dram)
      ∧ (t.timing = Timing.reset t.now ∨ t.timing = Timing.started t.now)
      ∧ (∃ cause k tag, t.chan = CommandChannel.reset cause k tag)
      ∧ t.comp = .reset ∧ t.tone = .reset ∧ t.tx = .reset ∧ t.readBuffer = .reset := by
  obtain ⟨m, h | h | ⟨hr, h⟩ | ⟨c, hr, hp, h⟩⟩ := h
  · injection h with h
    rw [← h]
    exact ⟨rfl, rfl, .inl rfl, .inr rfl, ⟨_, _, _, rfl⟩, rfl, rfl, rfl, rfl⟩
  · injection h with h
    rw [← h]
    exact ⟨rfl, rfl, .inr rfl, .inl rfl, ⟨_, _, _, rfl⟩, rfl, rfl, rfl, rfl⟩
  · rw [exec_pinResetRelease_asserted m hr] at h
    injection h with h
    rw [← h]
    exact ⟨rfl, rfl, .inr rfl, .inr rfl, ⟨_, _, _, rfl⟩, rfl, rfl, rfl, rfl⟩
  · rw [exec_restart_ready m hr hp] at h
    injection h with h
    rw [← h]
    exact ⟨rfl, rfl, .inr rfl, .inr rfl, ⟨_, _, _, rfl⟩, rfl, rfl, rfl, rfl⟩

/-! ### The four lanes -/

/-- What holds of every lane still does after a change of one lane that keeps it. -/
theorem State.lanes_modLane {Q : LaneBlocks → Prop} {s : State} {n : Lane} {f : LaneBlocks → LaneBlocks}
    (h : ∀ k, Q (s.lane k)) (hf : Q (f (s.lane n))) (k : Lane) : Q ((s.modLane n f).lane k) := by
  by_cases hk : k = n
  · subst hk
    simpa using hf
  · rw [State.lane_modLane_other f s hk]
    exact h k

/-- Every lane right after a reset. -/
theorem State.lane_of_const {s : State} {l : LaneBlocks} (h : s.lanes = Four.const l) (k : Lane) : s.lane k = l := by
  unfold State.lane
  rw [h]
  match k with
  | 0 => rfl
  | 1 => rfl
  | 2 => rfl
  | 3 => rfl

/-- A lane after a change of all four. -/
theorem State.lane_map (s : State) (f : LaneBlocks → LaneBlocks) (k : Lane) :
    ({ s with lanes := s.lanes.map f } : State).lane k = f (s.lane k) := by
  unfold State.lane
  match k with
  | 0 => rfl
  | 1 => rfl
  | 2 => rfl
  | 3 => rfl

end Sys2Proof.Machine
end

