-- ==== Sys2Proof/Laws/Exec.lean ====
section
/-! SUPPORT. What every command can do, said once: a predicate of the state that the small updates, the output frame
starts and the resets keep is kept by every command that has a next state. -/

namespace Sys2Proof.Machine

/-! ### What keeps the Command Channel as a safe run has it -/

theorem CommandChannel.ok_raiseAfter {c d : CommandChannel} (f : EventFlag) (hq : d.queueOk) (hn : d.noticesOk)
    (h : c.ok) (hf : d.flags = c.flags) (hr : d.reported = c.reported) : (d.raise f).ok := by
  refine ok_raise f ⟨hq, hn, ?_⟩
  rw [flagsOk, hf, hr]
  exact h.2.2

theorem CommandChannel.ok_checkError {c : CommandChannel} (h : c.ok) : c.checkError.ok :=
  ok_raise _ h

theorem CommandChannel.ok_accept (now : Nat) (msg : CmdMessage) {c : CommandChannel} (h : c.ok) :
    (c.accept now msg).ok := by
  unfold CommandChannel.accept
  simp only
  split
  · exact ok_raise _ h
  · rename_i hroom
    obtain ⟨⟨h1, h2, h3⟩, hn, hf⟩ := h
    refine ⟨⟨?_, ?_, ?_⟩, hn, hf⟩
    · simp [CommandChannel.restartHeartbeat, commandCapacity] at hroom ⊢
      omega
    · intro hd
      simp only [CommandChannel.restartHeartbeat, List.length_append, List.length_singleton] at hd ⊢
      simp [hd]
    · intro hd
      simp only [CommandChannel.restartHeartbeat, List.length_append, List.length_singleton,
        Bool.or_eq_true] at hd ⊢
      rcases hd with hd | hd
      · have := h3 hd
        omega
      · have := of_decide_eq_true hd
        omega

theorem CommandChannel.ok_takeByte (now : Nat) (b : Byte) {c : CommandChannel} (h : c.ok) : (c.takeByte now b).ok := by
  unfold CommandChannel.takeByte
  split
  · split
    · exact h
    · exact h
  · simp only
    split
    · exact ok_checkError h
    · split
      · unfold CommandChannel.judge
        split
        · exact ok_accept now _ h
        · exact ok_checkError h
      · exact h

theorem CommandChannel.ok_takeRun (now : Nat) (bytes : List Byte) {c : CommandChannel} (h : c.ok) :
    (CommandChannel.takeRun now bytes c).1.ok := by
  induction bytes generalizing c with
  | nil => exact h
  | cons b l ih =>
    unfold CommandChannel.takeRun
    simp only
    split
    · exact ok_takeByte now b h
    · exact ih (ok_takeByte now b h)

theorem CommandChannel.ok_dequeue {c : CommandChannel} (h : c.ok) : c.dequeue.ok := by
  obtain ⟨⟨h1, h2, h3⟩, hn, hf⟩ := h
  refine ⟨⟨?_, ?_, ?_⟩, hn, hf⟩
  · simp only [CommandChannel.dequeue, List.length_drop]
    omega
  · intro hd
    simp only [CommandChannel.dequeue, List.length_drop] at hd ⊢
    have := h2 (by omega)
    simp only [this, Bool.true_and, bne_iff_ne, ne_eq]
    omega
  · intro hd
    simp only [CommandChannel.dequeue, List.length_drop, Bool.and_eq_true, bne_iff_ne, ne_eq] at hd ⊢
    have := h3 hd.1
    omega

theorem CommandChannel.ok_pushNotice (nt : Notice) {c : CommandChannel} (hroom : c.notices.length < noticeCapacity)
    (h : c.ok) : ({ c with notices := c.notices ++ [nt] } : CommandChannel).ok := by
  refine ⟨h.1, ?_, h.2.2⟩
  simp only [CommandChannel.noticesOk, List.length_append, List.length_singleton, noticeCapacity] at hroom ⊢
  omega

theorem CommandChannel.ok_statusLine {c : CommandChannel} (h : c.ok) :
    ({ c.markReported with notices := c.notices.drop 4 } : CommandChannel).ok := by
  obtain ⟨hq, hn, h1, h2⟩ := h
  refine ⟨hq, ?_, h1, ?_⟩
  · simp only [CommandChannel.noticesOk, List.length_drop] at hn ⊢
    omega
  · simp only [CommandChannel.markReported]
    ext i hi
    have h3 := congrArg (fun v => v.getLsbD i) h2
    simp only [BitVec.getLsbD_and, BitVec.getLsbD_not] at h3
    simp_all
    exact fun hb => hb.elim h3 id

theorem CommandChannel.ok_clearNamed (named : BitVec 24) {c : CommandChannel} (h : c.ok) : (c.clearNamed named).ok := by
  obtain ⟨hq, hn, h1, h2⟩ := h
  refine ⟨hq, hn, ?_, ?_⟩
  · simp only [CommandChannel.clearNamed]
    ext i hi
    have h3 := congrArg (fun v => v.getLsbD i) h1
    simp only [BitVec.getLsbD_and, BitVec.getLsbD_not] at h3
    simp_all
  · simp only [CommandChannel.clearNamed]
    ext i hi
    have h3 := congrArg (fun v => v.getLsbD i) h2
    simp only [BitVec.getLsbD_and, BitVec.getLsbD_not] at h3
    simp_all

/-! ### What keeps a relay context as a safe run has it -/

/-- A relay context between its events' parts: what a safe run holds, but that the head may still have to go in
flight (R30). -/
def Relay.halfOk (r : Relay) : Prop :=
  r.queue.length ≤ 4 ∧ r.abortOwed ≤ 2 ∧ (r.inFlight.isSome = true → r.queue ≠ [] ∧ r.abortOwed = 0)
    ∧ r.progressDue.isSome = r.inFlight.isSome

theorem Relay.flightOk.half {r : Relay} (h : r.flightOk) : r.halfOk := ⟨h.1, h.2.1, h.2.2.1.1, h.2.2.2⟩

theorem Relay.flightOk_launch (now : Nat) {r : Relay} (h : r.halfOk) : (r.launch now).flightOk := by
  obtain ⟨h1, h2, h3, h4⟩ := h
  unfold Relay.launch
  split
  · rename_i hc
    simp only [Bool.and_eq_true, Bool.not_eq_true', List.isEmpty_eq_false_iff, Option.isNone_iff_eq_none,
      beq_iff_eq] at hc
    exact ⟨h1, h2, ⟨fun _ => ⟨hc.1.1, hc.2⟩, fun _ => rfl⟩, rfl⟩
  · rename_i hc
    refine ⟨h1, h2, ⟨h3, fun hq => ?_⟩, h4⟩
    cases hi : r.inFlight with
    | some _ => rfl
    | none => simp_all

theorem Relay.halfOk_failInFlight (n : Lane) (reason : RelayReason) {r : Relay} (h : r.halfOk) :
    (r.failInFlight n reason).1.halfOk ∧ (r.failInFlight n reason).1.inFlight = none
      ∧ (r.failInFlight n reason).1.queue.length ≤ r.queue.length := by
  obtain ⟨h1, h2, h3, h4⟩ := h
  unfold Relay.failInFlight
  split
  · rename_i hi hq
    simp_all [Relay.halfOk]
    omega
  · rename_i hno
    cases hi : r.inFlight with
    | none => simp_all [Relay.halfOk]
    | some p =>
      obtain ⟨hq, _⟩ := h3 (by simp [hi])
      cases hl : r.queue with
      | nil => exact absurd hl hq
      | cons m l => exact absurd hl (hno p m l hi)

theorem Relay.halfOk_takeAbort (n : Lane) (flag : Bool) {r : Relay} (h : r.halfOk) :
    (r.takeAbort n flag).1.halfOk := by
  unfold Relay.takeAbort
  split
  · exact (Relay.halfOk_failInFlight n .aborted h).1
  · exact h

theorem Relay.halfOk_takeAck (now : Nat) (ack : Bool) {r : Relay} (h : r.halfOk) : (r.takeAck now ack).halfOk := by
  obtain ⟨h1, h2, h3, h4⟩ := h
  unfold Relay.takeAck
  split
  · rename_i hi hq
    split
    · simp only
      split
      · simp_all [Relay.halfOk]
      · simp_all [Relay.halfOk]
    · simp_all [Relay.halfOk]
  · exact ⟨h1, h2, h3, h4⟩

theorem Relay.halfOk_acceptByte (n : Lane) (b : Byte) (last : Bool) {r : Relay} (h : r.halfOk) :
    (r.acceptByte n b last).1.halfOk := by
  have hf := Relay.halfOk_failInFlight n .overlong h
  obtain ⟨h1, h2, h3, h4⟩ := h
  unfold Relay.acceptByte
  split
  · exact ⟨h1, h2, h3, h4⟩
  · split
    · obtain ⟨⟨a1, a2, a3, a4⟩, hn, _⟩ := hf
      refine ⟨a1, by simp [Relay.oweAborts], ?_, a4⟩
      simp [Relay.oweAborts, Relay.resync, hn]
    · split
      · simp_all [Relay.halfOk]
        omega
      · simp_all [Relay.halfOk]

theorem Relay.halfOk_takeReply (n : Lane) (now : Nat) (f : RelayFields) {r : Relay} (h : r.halfOk) :
    (r.takeReply n now f).1.halfOk := by
  unfold Relay.takeReply
  simp only
  split
  · rename_i hc
    apply Relay.halfOk_acceptByte
    obtain ⟨h1, h2, h3, h4⟩ := h
    simp only [Bool.and_eq_true, beq_iff_eq] at hc
    exact ⟨h1, h2, h3, by simp [hc.1.1]⟩
  · exact h

theorem Relay.flightOk_sendWord (now : Nat) {r : Relay} (h : r.flightOk) : (r.sendWord now).flightOk := by
  have hh := h.half
  obtain ⟨h1, h2, h3, h4⟩ := h
  unfold Relay.sendWord
  simp only
  split
  · apply Relay.flightOk_launch
    refine ⟨h1, by simp only; omega, fun hi => ?_, h4⟩
    have := (h3.1 hi).2
    omega
  · split
    · exact ⟨h1, h2, h3, h4⟩
    · exact ⟨h1, h2, h3, h4⟩

theorem Relay.flightOk_takePacket (n : Lane) (now : Nat) (f : Option RelayFields) {r : Relay} (h : r.flightOk) :
    (r.takePacket n now f).1.flightOk := by
  unfold Relay.takePacket
  split
  · exact Relay.flightOk_sendWord now h
  · exact Relay.flightOk_sendWord now (Relay.flightOk_launch now
      (Relay.halfOk_takeReply n now _ (Relay.halfOk_takeAck now _ (Relay.halfOk_takeAbort n _ h.half))))

theorem Relay.queue_failInFlight (n : Lane) (reason : RelayReason) {r : Relay} (h : r.queue = []) :
    (r.failInFlight n reason).1.queue = [] := by
  unfold Relay.failInFlight
  split
  · simp_all
  · exact h

theorem Relay.queue_launch (now : Nat) {r : Relay} (h : r.queue = []) : (r.launch now).queue = [] := by
  unfold Relay.launch
  split <;> exact h

theorem Relay.queue_takeAck (now : Nat) (ack : Bool) {r : Relay} (h : r.queue = []) : (r.takeAck now ack).queue = [] := by
  unfold Relay.takeAck
  split
  · simp_all
  · exact h

theorem Relay.queue_takeReply (n : Lane) (now : Nat) (f : RelayFields) {r : Relay} (h : r.queue = []) :
    (r.takeReply n now f).1.queue = [] := by
  unfold Relay.takeReply Relay.acceptByte
  simp only
  split
  · split
    · exact h
    · simp_all
  · exact h

theorem Relay.queue_takeAbort (n : Lane) (flag : Bool) {r : Relay} (h : r.queue = []) :
    (r.takeAbort n flag).1.queue = [] := by
  unfold Relay.takeAbort
  split
  · exact Relay.queue_failInFlight n .aborted h
  · exact h

theorem Relay.queue_sendWord (now : Nat) {r : Relay} (h : r.queue = []) : (r.sendWord now).queue = [] := by
  unfold Relay.sendWord
  simp only
  split
  · exact Relay.queue_launch now h
  · split <;> exact h

/-- A packet fills no empty relay queue. -/
theorem Relay.queue_takePacket (n : Lane) (now : Nat) (f : Option RelayFields) {r : Relay} (h : r.queue = []) :
    (r.takePacket n now f).1.queue = [] := by
  unfold Relay.takePacket
  split
  · exact Relay.queue_sendWord now h
  · exact Relay.queue_sendWord now (Relay.queue_launch now
      (Relay.queue_takeReply n now _ (Relay.queue_takeAck now _ (Relay.queue_takeAbort n _ h))))

theorem Relay.flightOk_timeOut (n : Lane) {r : Relay} (h : r.flightOk) : (r.timeOut n).1.flightOk := by
  obtain ⟨⟨a1, a2, a3, a4⟩, hn, _⟩ := Relay.halfOk_failInFlight n .timeout h.half
  refine ⟨a1, by simp [Relay.timeOut, Relay.oweAborts], ?_, ?_⟩
  · simp [Relay.timeOut, Relay.oweAborts, Relay.resync, hn]
  · simp [Relay.timeOut, Relay.oweAborts, Relay.resync, hn]

theorem Relay.flightOk_flush (n : Lane) {r : Relay} (h : r.flightOk) : (r.flush n).1.flightOk := by
  obtain ⟨⟨a1, a2, a3, a4⟩, hn, _⟩ := Relay.halfOk_failInFlight n .flushed h.half
  unfold Relay.flush
  simp only
  split
  · simp [Relay.failAll, Relay.oweAborts, Relay.resync, Relay.flightOk]
  · simp [Relay.failAll, Relay.flightOk, a2]

theorem Relay.queue_flush (n : Lane) (r : Relay) : (r.flush n).1.queue = [] := by
  unfold Relay.flush
  simp only
  split <;> rfl

theorem Relay.flightOk_append (now : Nat) (msg : RelayMessage) {r : Relay} (hroom : r.queue.length < 4)
    (h : r.flightOk) : (r.append now msg).flightOk := by
  obtain ⟨h1, h2, h3, h4⟩ := h
  apply Relay.flightOk_launch
  refine ⟨?_, h2, fun hi => ⟨by simp, (h3.1 hi).2⟩, h4⟩
  simp only [List.length_append, List.length_singleton]
  omega

/-! ### What keeps a Purge Controller as a safe run has it -/

theorem Purge.timersOk_endPulse (now : Nat) {p : Purge} (hs : p.state = .pulse) (h : p.timersOk) :
    (p.endPulse now).timersOk := by
  obtain ⟨h1, h2, h3⟩ := h
  refine ⟨rfl, rfl, ?_⟩
  rw [hs] at h3
  exact h3

theorem Purge.timersOk_endSettle (now : Nat) {p : Purge} (hs : p.state = .settle) (h : p.timersOk) :
    (p.endSettle now).timersOk := by
  obtain ⟨h1, h2, h3⟩ := h
  refine ⟨?_, rfl, rfl⟩
  rw [hs] at h1
  exact h1

theorem Purge.timersOk_endCooldown (n : Lane) (now : Nat) (video : Bool) {p : Purge} (hs : p.state = .cooldown)
    (h : p.timersOk) : (p.endCooldown n now video).1.timersOk := by
  obtain ⟨h1, h2, h3⟩ := h
  rw [hs] at h1 h2
  unfold Purge.endCooldown
  simp only
  split
  · exact ⟨h1, h2, rfl⟩
  · exact ⟨h1, h2, rfl⟩
  · exact ⟨rfl, h2, rfl⟩
  · exact ⟨h1, h2, rfl⟩

theorem Purge.timersOk_manualBlow (n : Lane) (now : Nat) (origin : Origin) {p : Purge} (hs : p.freezes = false)
    (h : p.timersOk) : (p.manualBlow n now origin).1.timersOk := by
  obtain ⟨h1, h2, h3⟩ := h
  refine ⟨rfl, ?_, rfl⟩
  simp only [Purge.freezes, Bool.or_eq_false_iff] at hs
  simp only [Purge.manualBlow, Purge.blow]
  rw [h2, hs.2]
  rfl

theorem Purge.timersOk_rearm {p : Purge} (hs : p.state = .halted) (h : p.timersOk) : p.rearm.timersOk := by
  obtain ⟨h1, h2, h3⟩ := h
  rw [hs] at h1 h2 h3
  exact ⟨h1, h2, h3⟩

theorem Receiver.mayHold_of_takes {r : Receiver} (h : r.takesMessages = true) : r.mayHold := by
  simp only [Receiver.takesMessages, Bool.and_eq_true, beq_iff_eq] at h
  refine ⟨?_, h.2⟩
  have h1 := h.1
  cases hs : r.state <;> simp_all [LaneState.receiving]

/-! ### When an output frame may start (R141) -/

theorem Timing.blanking_of_deadline {now : Nat} {t : Timing} (h : t.deadlineExpired now = true) :
    t.phase = .blanking := by
  unfold Timing.deadlineExpired at h
  split at h
  · simp only [Bool.and_eq_true, beq_iff_eq] at h
    exact h.2
  · cases h

theorem Timing.blanking_of_timer {now : Nat} {t : Timing} (h : t.timerExpired now = true) : t.phase = .blanking := by
  unfold Timing.timerExpired at h
  split at h
  · simp only [Bool.and_eq_true, beq_iff_eq] at h
    exact h.2
  · cases h

/-! ### What a command can do -/

/-- A predicate that every part of every command keeps. -/
structure KeepsExec (P : State → Prop) : Prop extends KeepsAll P where
  moment : ∀ s m, P s → P (s.advance m)
  chan : ∀ s f, (s.chan.ok → (f s.chan).ok) → P s → P (s.modChan f)
  arb : ∀ s f, (∀ a : Arbiter, (f a).port = a.port) → P s → P (s.modArb f)
  free : ∀ (s : State) (t : Transfer), s.completed = some t → P s → P s.freePort
  write : ∀ (s : State) addr data, P s → P { s with dram := Memory.writeRun addr data s.dram }
  lines : ∀ s f, (∀ t : Timing, (f t).master = t.master ∧ (f t).watch = t.watch ∧ (f t).lastStart = t.lastStart
    ∧ (f t).frameNumber = t.frameNumber ∧ ((f t).phase = t.phase ∨ (f t).phase = .statusLine))
    → P s → P (s.modTiming f)
  tx : ∀ (s : State) t, P s → P { s with tx := t }
  tone : ∀ (s : State) t, P s → P { s with tone := t }
  pending : ∀ (s : State) l, P s → P { s with pending := l }
  purges : ∀ (s : State) f, (∀ l : LaneBlocks, (f l).rx = l.rx ∧ (f l).relay = l.relay
    ∧ (l.purge.timersOk → (f l).purge.timersOk)) → P s → P { s with lanes := s.lanes.map f }

/-- The commands that are not made of the small updates: the resets, and the end of the status line, which alone brings
BLANKING. -/
def Instr.apart (i : Instr) (s : State) : Prop :=
  match i with
  | .powerOn _ => True
  | .pinResetAssert _ => True
  | .pinResetRelease _ => s.resetAsserted = true
  | .restart _ => ∃ c, s.ReadyFor 3 c ∧ c.payload = []
  | .statusLineEnd _ => True
  | _ => False

namespace KeepsExec

variable {P : State → Prop} (h : KeepsExec P) {s : State}
include h

theorem onEvent (m : Moment) (due : State → Bool) (act : State → State)
    (ha : ∀ t, due t = true → P t → P (act t)) (hs : P s) : P (s.onEvent m due act) := by
  unfold State.onEvent
  split
  · rename_i hd
    simp only [Bool.and_eq_true] at hd
    exact ha _ hd.2 (h.moment s m hs)
  · exact h.moment s m hs

theorem execute (m : Moment) (named : CmdMessage → Bool) (body : CmdMessage → State → State)
    (hb : ∀ c t, t.chan.notices.length < noticeCapacity → P t → P (body c t)) (hs : P s) :
    P (s.execute m named body) := by
  unfold State.execute
  split
  · exact h.moment s m hs
  · split
    · rename_i he
      simp only [State.executes, Bool.and_eq_true, decide_eq_true_eq] at he
      exact hb _ _ he.2 (h.chan _ _ CommandChannel.ok_dequeue (h.moment s m hs))
    · exact h.moment s m hs

theorem answer (c : CmdMessage) (code : ReplyCode) (data : List Byte) (hroom : s.chan.notices.length < noticeCapacity)
    (hs : P s) : P (s.answer c code data) :=
  h.pending _ _ (h.chan s (fun k => { k with notices := k.notices ++ [c.reply code data] })
    (CommandChannel.ok_pushNotice _ hroom) hs)

theorem refuse (c : CmdMessage) (code : ReplyCode) (hroom : s.chan.notices.length < noticeCapacity) (hs : P s) :
    P (s.refuse c code) :=
  h.answer c code [] hroom hs

theorem ofLength (k : Nat) (c : CmdMessage) (body : State → State) (hroom : s.chan.notices.length < noticeCapacity)
    (hb : P (body s)) (hs : P s) : P (s.ofLength k c body) :=
  either hb (h.refuse c _ hroom hs)

theorem ofLane (c : CmdMessage) (body : Lane → State → State) (hroom : s.chan.notices.length < noticeCapacity)
    (hb : ∀ n, P (body n s)) (hs : P s) : P (s.ofLane c body) := by
  unfold State.ofLane
  split
  · exact hb _
  · exact h.refuse c _ hroom hs

theorem ofField {α : Type} (field : Option α) (c : CmdMessage) (body : α → State → State)
    (hroom : s.chan.notices.length < noticeCapacity) (hb : ∀ a, P (body a s)) (hs : P s) :
    P (s.ofField field c body) := by
  unfold State.ofField
  split
  · exact hb _
  · exact h.refuse c _ hroom hs

theorem whenOk (ok : Bool) (code : ReplyCode) (c : CmdMessage) (body : State → State)
    (hroom : s.chan.notices.length < noticeCapacity) (hb : ok = true → P (body s)) (hs : P s) :
    P (s.unless ok code c body) := by
  unfold State.unless
  split
  · exact hb ‹_›
  · exact h.refuse c _ hroom hs

/-! ### Resets -/

theorem pinResetRelease (m : Moment) {t : State} (he : exec (.pinResetRelease m) s = .next t)
    (hp : s.resetAsserted = true → P t) (hs : P s) : P t := by
  cases hr : s.resetAsserted with
  | true => exact hp hr
  | false =>
    have hm : (s.advance m).resetAsserted = false := hr
    simp only [exec, execPinResetRelease, hm, Bool.false_eq_true, if_false] at he
    injection he with he
    exact he ▸ h.moment s m hs

theorem restart (m : Moment) {t : State} (he : exec (.restart m) s = .next t)
    (hp : (∃ c, s.ReadyFor 3 c ∧ c.payload = []) → P t) (hs : P s) : P t := by
  by_cases hr : ∃ c, s.ReadyFor 3 c ∧ c.payload = []
  · exact hp hr
  · simp only [exec, Machine.execRestart] at he
    injection he with he
    rw [← he]
    unfold State.execute
    split
    · exact h.moment s m hs
    · rename_i c l hq
      split
      · rename_i hx
        simp only [State.executes, Bool.and_eq_true, decide_eq_true_eq, Bool.not_eq_true', CmdMessage.is,
          beq_iff_eq] at hx
        have hq' : s.chan.queue = c :: l := hq
        have hn : c.payload.length ≠ 0 := fun h0 =>
          hr ⟨c, ⟨hx.1.1, by rw [hq']; rfl, hx.1.2, hx.2⟩, List.eq_nil_of_length_eq_zero h0⟩
        simp only [State.ofLength, hn, if_false]
        exact h.refuse c _ hx.2 (h.chan _ _ CommandChannel.ok_dequeue (h.moment s m hs))
      · exact h.moment s m hs

/-! ### The lane's events -/

theorem cameraPacket (m : Moment) (n : Lane) (bytes : List Byte) (hs : P s) :
    P (s.onEvent m (fun s => (s.lane n).rx.hearsCamera) (State.cameraPacket n bytes)) := by
  refine h.onEvent m _ _ (fun t _ ht => ?_) hs
  unfold State.cameraPacket
  exact h.serve (h.lanePacket n _ (h.relayEvent n _
    ⟨Relay.flightOk_takePacket n _ _, fun hq hne => absurd (Relay.queue_takePacket n _ _ hq) hne⟩ (h.countPacket n ht)))

theorem generatorPacket (m : Moment) (n : Lane) (hs : P s) :
    P (s.onEvent m (fun s => (s.lane n).generatorDue s.now) (State.generatorPacket n)) := by
  refine h.onEvent m _ _ (fun t _ ht => ?_) hs
  unfold State.generatorPacket
  split
  · exact ht
  · simp only
    split
    · exact h.test _ n _ ht
    · exact h.serve (h.lanePacket n _ (h.countPacket n (h.test _ n _ ht)))

theorem silenceTimer (m : Moment) (n : Lane) (hs : P s) :
    P (s.onEvent m (fun s => (s.lane n).rx.state.receiving && expired (s.lane n).rx.silenceDue s.now)
      fun s => (s.downEntry n .silence).serve) :=
  h.onEvent m _ _ (fun _ _ ht => h.serve (h.downEntry n _ ht)) hs

theorem recoveryTimer (m : Moment) (n : Lane) (hs : P s) :
    P (s.onEvent m (fun s => (s.lane n).rx.state.recovering && expired (s.lane n).rx.recoveryDue s.now)
      fun s => (s.channelRestart n .recovery none).serve) :=
  h.onEvent m _ _ (fun t hd ht => h.serve (h.channelRestart n _ _ (by
    intro hl
    rw [hl] at hd
    cases hd) ht)) hs

theorem progressTimer (m : Moment) (n : Lane) (hs : P s) :
    P (s.onEvent m (fun s => (s.lane n).relay.inFlight.isSome && expired (s.lane n).relay.progressDue s.now)
      (State.relayEvent n (Relay.timeOut n))) :=
  h.onEvent m _ _ (fun _ _ ht => h.relayEvent n _
    ⟨Relay.flightOk_timeOut n, fun hq hne => absurd (Relay.queue_failInFlight n .timeout hq) hne⟩ ht) hs

/-! ### The port's events -/

theorem dramInit (m : Moment) {t : State} (he : exec (.dramInitComplete m) s = .next t) (hs : P s) : P t := by
  simp only [exec, execDramInitComplete] at he
  injection he with he
  exact he ▸ h.onEvent m _ _ (fun _ _ ht => h.serve (h.arb _ _ (fun _ => rfl) ht)) hs

theorem refreshTimer (m : Moment) {t : State} (he : exec (.refreshTimerExpiry m) s = .next t) (hs : P s) : P t := by
  simp only [exec, execRefreshTimerExpiry] at he
  injection he with he
  exact he ▸ h.onEvent m _ _ (fun _ _ ht => h.serve (h.arb _ _ (fun _ => rfl) ht)) hs

theorem laneWrite (m : Moment) {t : State} (he : exec (.laneWriteComplete m) s = .next t) (hs : P s) : P t := by
  simp only [exec, execLaneWriteComplete] at he
  have hm := h.moment s m hs
  split at he
  · rename_i n slot line k data due live hc
    have hf := h.free _ _ hc hm
    split at he
    · injection he with he
      exact he ▸ h.serve hf
    · split at he
      · injection he with he
        rw [← he]
        unfold State.finishWrite
        exact h.serve (h.commitIfDrained n (h.store n _ (h.write _ _ _ hf)))
      · cases he
  · injection he with he
    exact he ▸ hm

theorem compositorFetch (m : Moment) {t : State} (he : exec (.compositorFetchComplete m) s = .next t) (hs : P s) :
    P t := by
  simp only [exec, execCompositorFetchComplete] at he
  have hm := h.moment s m hs
  split at he
  · rename_i line item due live hc
    have hf := h.free _ _ hc hm
    split at he
    · injection he with he
      exact he ▸ h.serve hf
    · split at he
      · injection he with he
        rw [← he]
        apply h.serve
        unfold State.finishFetch
        split
        · split
          · exact h.readBuffer _ _ hf
          · exact hf
        · exact hf
      · cases he
  · injection he with he
    exact he ▸ hm

theorem conditioningRead (m : Moment) {t : State} (he : exec (.conditioningReadComplete m) s = .next t) (hs : P s) :
    P t := by
  simp only [exec, execConditioningReadComplete] at he
  have hm := h.moment s m hs
  split at he
  · rename_i n slot line k bytes due live hc
    have hf := h.free _ _ hc hm
    split at he
    · injection he with he
      exact he ▸ h.serve hf
    · split at he
      · injection he with he
        exact he ▸ h.serve (h.takeRead _ hf)
      · cases he
  · injection he with he
    exact he ▸ hm

theorem refreshDone (m : Moment) {t : State} (he : exec (.refreshComplete m) s = .next t) (hs : P s) : P t := by
  simp only [exec, execRefreshComplete] at he
  have hm := h.moment s m hs
  split at he
  · rename_i due live hc
    injection he with he
    exact he ▸ h.serve (h.arb _ _ (fun _ => rfl) (h.free _ _ hc hm))
  · injection he with he
    exact he ▸ hm

/-! ### The output frame's events -/

theorem underrun (k : Nat) (hs : P s) : P (s.underrun k) := by
  unfold State.underrun
  exact h.raise _ (h.chan _ _ (fun ok => ok) (h.readBuffer _ _ (h.discard _ _ hs)))

theorem freeBefore (k : Nat) (hs : P s) : P (s.freeBefore k) := by
  unfold State.freeBefore
  exact either hs (h.readBuffer _ _ hs)

theorem beginLine (hs : P s) : P s.beginLine := by
  unfold State.beginLine
  simp only
  refine h.lines _ _ ?_ ?_
  · exact fun _ => ⟨rfl, rfl, rfl, rfl, .inl rfl⟩
  split
  · exact h.tx _ _ (h.freeBefore _ hs)
  · exact h.tx _ _ (h.underrun _ (h.freeBefore _ hs))

theorem beginStatusLine (hs : P s) : P s.beginStatusLine := by
  unfold State.beginStatusLine
  simp only
  exact h.pending _ _ (h.lines _ _ (fun _ => ⟨rfl, rfl, rfl, rfl, .inr rfl⟩) (h.freeBefore _ (h.tx _ _
    (h.chan _ _ CommandChannel.ok_statusLine hs))))

/-! ### The purge's events -/

theorem endRest (n : Lane) (hp : (s.lane n).purge.state = .cooldown) (hs : P s) : P (s.endRest n) := by
  unfold State.endRest
  simp only
  split
  · exact h.purgeEvent n _ (Purge.timersOk_endCooldown n _ _ hp) (h.raise _ hs)
  · exact h.purgeEvent n _ (Purge.timersOk_endCooldown n _ _ hp) hs

/-! ### The Command Channel's events -/

theorem takeArrival (bytes : List Byte) (hs : P s) : P (s.takeArrival bytes) := by
  unfold State.takeArrival
  simp only
  have h1 : P { s with chan := (CommandChannel.takeRun s.now bytes s.chan).1 } :=
    h.chan s (fun c => (CommandChannel.takeRun s.now bytes c).1) (CommandChannel.ok_takeRun _ _) hs
  refine h.pending _ _ ?_
  unfold State.bringBytes
  split
  · exact h1
  · exact h.pending _ _ h1

theorem loseTerminal (hs : P s) : P s.loseTerminal := by
  unfold State.loseTerminal
  simp only
  exact h.offer _ (h.raise _ (h.chan _ _ (fun ok => ok) hs))

/-! ### The commands -/

theorem applyEnable (n : Lane) (on : Bool) (origin : Origin) (hs : P s) : P (s.applyEnable n on origin) := by
  unfold State.applyEnable
  split
  · exact h.enable n _ ‹_› hs
  · exact hs
  · exact hs
  · exact h.disable n _ hs

theorem clearCounters (hs : P s) : P s.clearCounters := by
  unfold State.clearCounters
  exact h.purges _ _ (fun _ => ⟨rfl, rfl, fun ok => ok⟩) (h.chan _ _ (fun ok => ok) hs)

theorem configShort (c : CmdMessage) (n : Lane) (hr : s.chan.notices.length < noticeCapacity) (hs : P s) :
    P (s.configShort c n) :=
  h.ofField _ c _ hr (fun _ => h.serve (h.applyEnable n _ _ (h.answer c _ _ hr hs))) hs

theorem configFull (c : CmdMessage) (n : Lane) (hr : s.chan.notices.length < noticeCapacity) (hs : P s) :
    P (s.configFull c n) :=
  h.ofField _ c _ hr (fun _ => h.ofField _ c _ hr (fun _ => h.whenOk _ _ c _ hr (fun _ =>
    h.serve (h.applyEnable n _ _ (h.answer c _ _ hr (h.rx _ n _ (.same rfl rfl rfl rfl) hs)))) hs) hs) hs

theorem command (i : Instr) (k : Nat) (hk : i.commandNumber = some k) (h3 : k ≠ 3) {t : State}
    (he : exec i s = .next t) (hs : P s) : P t := by
  cases i <;> simp only [Instr.commandNumber, reduceCtorEq] at hk <;> simp only [exec] at he
  case heartbeat m =>
    injection he with he; rw [← he]
    exact h.execute m _ _ (fun c t hr ht => h.ofLength _ c _ hr (h.answer c _ _ hr ht) ht) hs
  case resume m =>
    injection he with he; rw [← he]
    refine h.execute m _ _ (fun c t hr ht => h.ofLength _ c _ hr ?_ ht) hs
    have hc : P (t.modChan (CommandChannel.resume t.now)) := by
      refine h.chan _ _ (fun ok => ?_) ht
      unfold CommandChannel.resume
      split
      · exact ok
      · exact ok
    refine h.answer c _ _ ?_ hc
    show (t.chan.resume t.now).notices.length < _
    unfold CommandChannel.resume
    split
    · exact hr
    · exact hr
  case restart m => simp only [Option.some.injEq] at hk; omega
  case setSupervision m =>
    injection he with he; rw [← he]
    exact h.execute m _ _ (fun c t hr ht => h.ofLength _ c _ hr (h.answer c _ _ hr (h.chan _ _ (fun ok => ok) ht)) ht) hs
  case clearFlags m =>
    injection he with he; rw [← he]
    exact h.execute m _ _ (fun c t hr ht => h.ofLength _ c _ hr
      (h.answer c _ _ hr (h.chan _ _ (CommandChannel.ok_clearNamed _) ht)) ht) hs
  case readCounters m =>
    injection he with he; rw [← he]
    refine h.execute m _ _ (fun c t hr ht => h.ofLength _ c _ hr (h.ofField _ c _ hr (fun clear => ?_) ht) ht) hs
    split
    · exact h.answer c _ _ hr (h.clearCounters ht)
    · exact h.answer c _ _ hr ht
  case cameraConfig m =>
    injection he with he; rw [← he]
    refine h.execute m _ _ (fun c t hr ht => ?_) hs
    exact either (h.ofLane c _ hr (fun n => h.configShort c n hr ht) ht)
      (either (h.ofLane c _ hr (fun n => h.configFull c n hr ht) ht) (h.refuse c _ hr ht))
  case setLaneLimits m =>
    injection he with he; rw [← he]
    exact h.execute m _ _ (fun c t hr ht => h.ofLength _ c _ hr (h.ofLane c _ hr
      (fun n => h.answer c _ _ hr (h.rx _ n _ (.same rfl rfl rfl rfl) ht)) ht) ht) hs
  case cameraRestart m =>
    injection he with he; rw [← he]
    exact h.execute m _ _ (fun c t hr ht => h.ofLength _ c _ hr (h.ofLane c _ hr (fun n => h.whenOk _ _ c _ hr
      (fun hl => h.serve (h.channelRestart n _ _ (by
        simp only [Bool.and_eq_true, bne_iff_ne] at hl
        exact hl.2) (h.answer c _ _ hr ht))) ht) ht) ht) hs
  case cameraRearm m =>
    injection he with he; rw [← he]
    exact h.execute m _ _ (fun c t hr ht => h.ofLength _ c _ hr (h.ofLane c _ hr (fun n => h.whenOk _ _ c _ hr
      (fun _ => h.serve (h.rearmRestart n _ (h.answer c _ _ hr ht))) ht) ht) ht) hs
  case readLane m =>
    injection he with he; rw [← he]
    refine h.execute m _ _ (fun c t hr ht => h.ofLength _ c _ hr (h.ofLane c _ hr
      (fun n => h.ofField _ c _ hr (fun clear => ?_) ht) ht) ht) hs
    split
    · exact h.answer c _ _ hr (h.counters n _ ht)
    · exact h.answer c _ _ hr ht
  case cameraMessage m =>
    injection he with he; rw [← he]
    refine h.execute m _ _ (fun c t hr ht => ?_) hs
    exact either (h.refuse c _ hr ht) (h.ofLane c _ hr (fun n => h.whenOk _ _ c _ hr (fun ht' => h.whenOk _ _ c _ hr
      (fun hl => h.answer c _ _ hr (h.relay _ n _ ⟨Relay.flightOk_append _ _ (of_decide_eq_true hl),
        fun _ _ => Receiver.mayHold_of_takes ht'⟩ ht)) ht) ht) ht)
  case setRelay m =>
    injection he with he; rw [← he]
    exact h.execute m _ _ (fun c t hr ht => h.ofLength _ c _ hr (h.ofLane c _ hr (fun n => h.ofField _ c _ hr
      (fun _ => h.answer c _ _ hr (h.relay _ n _ ⟨fun ok => ok, fun hq hne => absurd hq hne⟩ ht)) ht) ht) ht) hs
  case relayFlush m =>
    injection he with he; rw [← he]
    exact h.execute m _ _ (fun c t hr ht => h.ofLength _ c _ hr (h.ofLane c _ hr (fun n =>
      h.relayEvent n _ ⟨Relay.flightOk_flush n, fun _ hne => absurd (Relay.queue_flush n _) hne⟩ (h.answer c _ _ hr ht)) ht) ht) hs
  case setRefresh m =>
    injection he with he; rw [← he]
    exact h.execute m _ _ (fun c t hr ht => h.ofLength _ c _ hr
      (h.answer c _ _ hr (h.arb _ _ (fun _ => rfl) ht)) ht) hs
  case loadAnchors m =>
    injection he with he; rw [← he]
    refine h.execute m _ _ (fun c t hr ht => ?_) hs
    exact either (h.refuse c _ hr ht) (h.ofLane c _ hr (fun n => h.whenOk _ _ c _ hr (fun _ => h.ofField _ c _ hr
      (fun _ => h.whenOk _ _ c _ hr (fun _ => h.answer c _ _ hr (h.motion n _ ht)) ht) ht) ht) ht)
  case setStabilizer m =>
    injection he with he; rw [← he]
    exact h.execute m _ _ (fun c t hr ht => h.ofLength _ c _ hr (h.ofLane c _ hr (fun n => h.ofField _ c _ hr
      (fun _ => h.answer c _ _ hr (h.motion n _ ht)) ht) ht) ht) hs
  case readMotion m =>
    injection he with he; rw [← he]
    refine h.execute m _ _ (fun c t hr ht => h.ofLength _ c _ hr (h.ofLane c _ hr (fun n => h.ofField _ c _ hr
      (fun part => h.ofField _ c _ hr (fun clear => h.whenOk _ _ c _ hr (fun _ => ?_) ht) ht) ht) ht) ht) hs
    split
    · exact h.answer c _ _ hr (h.motion n _ ht)
    · exact h.answer c _ _ hr ht
  case setDust m =>
    injection he with he; rw [← he]
    exact h.execute m _ _ (fun c t hr ht => h.ofLength _ c _ hr (h.ofLane c _ hr (fun n => h.whenOk _ _ c _ hr
      (fun _ => h.answer c _ _ hr (h.dust n _ ht)) ht) ht) ht) hs
  case loadTone m =>
    injection he with he; rw [← he]
    exact h.execute m _ _ (fun c t hr ht => h.ofLength _ c _ hr (h.ofField _ c _ hr (fun _ => h.ofField _ c _ hr
      (fun _ => h.answer c _ _ hr (h.tone _ _ ht)) ht) ht) ht) hs
  case readDustMap m =>
    injection he with he; rw [← he]
    exact h.execute m _ _ (fun c t hr ht => h.ofLength _ c _ hr (h.ofLane c _ hr (fun n => h.whenOk _ _ c _ hr
      (fun _ => h.answer c _ _ hr ht) ht) ht) ht) hs
  case setPurge m =>
    injection he with he; rw [← he]
    exact h.execute m _ _ (fun c t hr ht => h.ofLength _ c _ hr (h.ofLane c _ hr (fun n => h.ofField _ c _ hr
      (fun _ => h.answer c _ _ hr (h.purge _ n _ (fun ok => ok) ht)) ht) ht) ht) hs
  case purgeNow m =>
    injection he with he; rw [← he]
    exact h.execute m _ _ (fun c t hr ht => h.ofLength _ c _ hr (h.ofLane c _ hr (fun n => h.whenOk _ _ c _ hr
      (fun hf => h.purgeEvent n _ (Purge.timersOk_manualBlow n _ _ (show (t.lane n).purge.freezes = false by simpa using hf)) (h.answer c _ _ hr ht)) ht)
      ht) ht) hs
  case purgeRearm m =>
    injection he with he; rw [← he]
    exact h.execute m _ _ (fun c t hr ht => h.ofLength _ c _ hr (h.ofLane c _ hr (fun n => h.whenOk _ _ c _ hr
      (fun hf => h.answer c _ _ hr (h.purge _ n _ (Purge.timersOk_rearm (by simpa using hf)) ht)) ht) ht) ht) hs
  case loadWindow m =>
    injection he with he; rw [← he]
    exact h.execute m _ _ (fun c t hr ht => h.ofLength _ c _ hr (h.ofField _ c _ hr (fun _ => h.ofField _ c _ hr
      (fun _ => h.ofField _ c _ hr (fun _ => h.whenOk _ _ c _ hr
        (fun _ => h.answer c _ _ hr (h.comp _ _ ht)) ht) ht) ht) ht) ht) hs
  case clearWindow m =>
    injection he with he; rw [← he]
    exact h.execute m _ _ (fun c t hr ht => h.ofLength _ c _ hr (h.ofField _ c _ hr (fun _ => h.ofField _ c _ hr
      (fun _ => h.answer c _ _ hr (h.comp _ _ ht)) ht) ht) ht) hs
  case loadMarks m =>
    injection he with he; rw [← he]
    refine h.execute m _ _ (fun c t hr ht => ?_) hs
    exact either (h.refuse c _ hr ht) (h.ofField _ c _ hr (fun _ => h.ofField _ c _ hr
      (fun _ => h.answer c _ _ hr (h.comp _ _ ht)) ht) ht)
  case commitTables m =>
    injection he with he; rw [← he]
    exact h.execute m _ _ (fun c t hr ht => h.ofLength _ c _ hr (h.answer c _ _ hr (h.comp _ _ ht)) ht) hs
  case selectPage m =>
    injection he with he; rw [← he]
    exact h.execute m _ _ (fun c t hr ht => h.ofLength _ c _ hr (h.ofField _ c _ hr
      (fun _ => h.answer c _ _ hr (h.comp _ _ ht)) ht) ht) hs
  case setSubstitute m =>
    injection he with he; rw [← he]
    exact h.execute m _ _ (fun c t hr ht => h.ofLength _ c _ hr (h.answer c _ _ hr (h.comp _ _ ht)) ht) hs
  case setRaster m =>
    injection he with he; rw [← he]
    exact h.execute m _ _ (fun c t hr ht => h.ofLength _ c _ hr (h.ofField _ c _ hr
      (fun _ => h.answer c _ _ hr (h.lines _ _ (fun _ => ⟨rfl, rfl, rfl, rfl, .inl rfl⟩) ht)) ht) ht) hs
  case setTiming m =>
    injection he with he; rw [← he]
    exact h.execute m _ _ (fun c t hr ht => h.ofLength _ c _ hr (h.ofField _ c _ hr (fun _ => h.ofField _ c _ hr
      (fun _ => h.answer c _ _ hr (h.lines _ _ (fun _ => ⟨rfl, rfl, rfl, rfl, .inl rfl⟩) ht)) ht) ht) ht) hs
  case setLaneMode m =>
    injection he with he; rw [← he]
    exact h.execute m _ _ (fun c t hr ht => h.ofLength _ c _ hr (h.ofLane c _ hr (fun n => h.ofField _ c _ hr
      (fun _ => h.ofField _ c _ hr (fun _ => h.serve (h.setLaneMode n _ _ _ (h.answer c _ _ hr ht))) ht) ht) ht) ht) hs
  case injectError m =>
    injection he with he; rw [← he]
    exact h.execute m _ _ (fun c t hr ht => h.ofLength _ c _ hr (h.ofLane c _ hr (fun n => h.whenOk _ _ c _ hr
      (fun _ => h.whenOk _ _ c _ hr (fun _ => h.answer c _ _ hr (h.test _ n _ ht)) ht) ht) ht) ht) hs
  case testRead m =>
    injection he with he; rw [← he]
    exact h.execute m _ _ (fun c t hr ht => h.ofLength _ c _ hr (h.ofLane c _ hr
      (fun n => h.answer c _ _ hr (h.test _ n _ ht)) ht) ht) hs

/-- Every command keeps it, when those that stand apart do. -/
theorem exec_keeps (i : Instr) {t : State} (he : exec i s = .next t) (hp : Instr.apart i s → P t) (hs : P s) :
    P t := by
  cases hk : i.commandNumber with
  | some k =>
    by_cases h3 : k = 3
    · cases i <;> simp only [Instr.commandNumber, reduceCtorEq, Option.some.injEq] at hk <;> try omega
      exact h.restart _ he hp hs
    · exact h.command i k hk h3 he hs
  | none =>
    cases i <;> simp only [Instr.commandNumber, reduceCtorEq] at hk
    case powerOn m => exact hp trivial
    case pinResetAssert m => exact hp trivial
    case pinResetRelease m => exact h.pinResetRelease m he hp hs
    case dramInitComplete m => exact h.dramInit m he hs
    case cameraPacket m n bytes => injection he with he; exact he ▸ h.cameraPacket m n bytes hs
    case generatorPacket m n => injection he with he; exact he ▸ h.generatorPacket m n hs
    case silenceTimerExpiry m n => injection he with he; exact he ▸ h.silenceTimer m n hs
    case recoveryTimerExpiry m n => injection he with he; exact he ▸ h.recoveryTimer m n hs
    case progressTimerExpiry m n => injection he with he; exact he ▸ h.progressTimer m n hs
    case refreshTimerExpiry m => exact h.refreshTimer m he hs
    case laneWriteComplete m => exact h.laneWrite m he hs
    case compositorFetchComplete m => exact h.compositorFetch m he hs
    case conditioningReadComplete m => exact h.conditioningRead m he hs
    case refreshComplete m => exact h.refreshDone m he hs
    case flywheelDeadlineExpiry m =>
      injection he with he
      exact he ▸ h.onEvent m _ _ (fun t hd ht => h.serve (h.force t (Timing.blanking_of_deadline hd) ht)) hs
    case outputTimerExpiry m =>
      injection he with he
      exact he ▸ h.onEvent m _ _ (fun t hd ht => h.serve (h.start t _ (Timing.blanking_of_timer hd) ht)) hs
    case activeLineBegin m =>
      injection he with he
      exact he ▸ h.onEvent m _ _ (fun t _ ht => h.serve (h.beginLine ht)) hs
    case statusLineEvent m =>
      injection he with he
      exact he ▸ h.onEvent m _ _ (fun t _ ht => h.beginStatusLine ht) hs
    case statusLineEnd m => exact hp trivial
    case pulseTimerExpiry m n =>
      injection he with he
      refine he ▸ h.onEvent m _ _ (fun t hd ht => h.purge _ n _ (Purge.timersOk_endPulse _ ?_) ht) hs
      simp only [Bool.and_eq_true, beq_iff_eq] at hd
      exact hd.1
    case settleTimerExpiry m n =>
      injection he with he
      refine he ▸ h.onEvent m _ _ (fun t hd ht => h.purge _ n _ (Purge.timersOk_endSettle _ ?_) ht) hs
      simp only [Bool.and_eq_true, beq_iff_eq] at hd
      exact hd.1
    case cooldownTimerExpiry m n =>
      injection he with he
      refine he ▸ h.onEvent m _ _ (fun t hd ht => h.endRest n ?_ ht) hs
      simp only [Bool.and_eq_true, beq_iff_eq] at hd
      exact hd.1
    case heartbeatTimerExpiry m =>
      injection he with he
      exact he ▸ h.onEvent m _ _ (fun t _ ht => h.loseTerminal ht) hs
    case commandMessageArrival m bytes =>
      injection he with he
      exact he ▸ h.onEvent m _ _ (fun t _ ht => h.takeArrival _ ht) hs
    case backlaneGapTimeout m =>
      injection he with he
      exact he ▸ h.onEvent m _ _ (fun t _ ht => h.chan _ _ CommandChannel.ok_checkError ht) hs
    case unknownCommand m =>
      injection he with he
      exact he ▸ h.execute m _ _ (fun c t hr ht => h.refuse c _ hr ht) hs

end KeepsExec

end Sys2Proof.Machine
end

