-- ==== Sys2Proof/Laws/Memory.lean ====
section
/-! SUPPORT. The laws of the DRAM: every operation keeps the canonical form, a read after a write gives what was written,
and a write leaves every other address alone. -/

namespace Sys2Proof.Machine

/-! ### The canonical form -/

theorem Memory.wfFrom_mono {low low' : Nat} (h : low' ≤ low) : ∀ {mem : List Host.Cell},
    Memory.wfFrom low mem = true → Memory.wfFrom low' mem = true
  | [], _ => rfl
  | _ :: _, hw => by
    simp only [Memory.wfFrom, Bool.and_eq_true, decide_eq_true_eq] at hw ⊢
    exact ⟨⟨Nat.le_trans h hw.1.1, hw.1.2⟩, hw.2⟩

theorem Memory.wfFrom_filter (p : Host.Cell → Bool) : ∀ {low : Nat} {mem : List Host.Cell},
    Memory.wfFrom low mem = true → Memory.wfFrom low (mem.filter p) = true
  | _, [], _ => rfl
  | low, c :: rest, hw => by
    simp only [Memory.wfFrom, Bool.and_eq_true, decide_eq_true_eq] at hw
    have ih := Memory.wfFrom_filter p hw.2
    by_cases hp : p c
    · simp only [List.filter_cons_of_pos hp, Memory.wfFrom, Bool.and_eq_true, decide_eq_true_eq]
      exact ⟨hw.1, ih⟩
    · rw [List.filter_cons_of_neg hp]
      exact Memory.wfFrom_mono (by omega) ih

theorem Memory.wfFrom_cells : ∀ (addr : Nat) (bytes : List Byte), Memory.wfFrom addr (Memory.cells addr bytes) = true
  | _, [] => rfl
  | addr, b :: bs => by
    have ih := Memory.wfFrom_cells (addr + 1) bs
    by_cases hb : b = Config.dramUnlisted
    · simp only [Memory.cells, if_pos hb]; exact Memory.wfFrom_mono (by omega) ih
    · simp only [Memory.cells, if_neg hb, Memory.wfFrom, Bool.and_eq_true, decide_eq_true_eq, bne_iff_ne, ne_eq]
      exact ⟨⟨Nat.le_refl _, hb⟩, ih⟩

/-- Two canonical parts, the first of them wholly below a bound the second starts at, are canonical together. -/
theorem Memory.wfFrom_append : ∀ {low mid : Nat} {a b : List Host.Cell}, low ≤ mid →
    Memory.wfFrom low a = true → (∀ c ∈ a, c.1 < mid) → Memory.wfFrom mid b = true →
    Memory.wfFrom low (a ++ b) = true
  | _, _, [], _, hle, _, _, hb => Memory.wfFrom_mono hle hb
  | low, mid, c :: rest, b, _, ha, hlt, hb => by
    simp only [Memory.wfFrom, Bool.and_eq_true, decide_eq_true_eq] at ha
    have hc : c.1 < mid := hlt c (by simp)
    simp only [List.cons_append, Memory.wfFrom, Bool.and_eq_true, decide_eq_true_eq]
    exact ⟨ha.1, Memory.wfFrom_append (by omega) ha.2 (fun d hd => hlt d (by simp [hd])) hb⟩

theorem Memory.cells_lt : ∀ (addr : Nat) (bytes : List Byte), ∀ c ∈ Memory.cells addr bytes,
    addr ≤ c.1 ∧ c.1 < addr + bytes.length
  | _, [], c, hc => by simp [Memory.cells] at hc
  | addr, b :: bs, c, hc => by
    have ih := Memory.cells_lt (addr + 1) bs c
    by_cases hb : b = Config.dramUnlisted
    · simp only [Memory.cells, if_pos hb] at hc
      have := ih hc; simp only [List.length_cons]; omega
    · simp only [Memory.cells, if_neg hb, List.mem_cons] at hc
      rcases hc with rfl | hc
      · simp only [List.length_cons]; omega
      · have := ih hc; simp only [List.length_cons]; omega

theorem Memory.wfFrom_above {low bound : Nat} : ∀ {mem : List Host.Cell}, Memory.wfFrom low mem = true →
    Memory.wfFrom bound (mem.filter fun c => decide (bound ≤ c.1)) = true
  | [], _ => rfl
  | c :: rest, hw => by
    simp only [Memory.wfFrom, Bool.and_eq_true, decide_eq_true_eq] at hw
    by_cases hp : bound ≤ c.1
    · rw [List.filter_cons_of_pos (by simpa using hp)]
      simp only [Memory.wfFrom, Bool.and_eq_true, decide_eq_true_eq]
      exact ⟨⟨hp, hw.1.2⟩, Memory.wfFrom_filter _ hw.2⟩
    · rw [List.filter_cons_of_neg (by simpa using hp)]
      exact Memory.wfFrom_above hw.2

/-- Writing a run of bytes keeps the canonical form. -/
theorem Memory.wf_writeRun (addr : Nat) (bytes : List Byte) {mem : List Host.Cell} (h : Memory.wf mem = true) :
    Memory.wf (Memory.writeRun addr bytes mem) = true := by
  unfold Memory.wf Memory.writeRun
  rw [List.append_assoc]
  refine Memory.wfFrom_append (Nat.zero_le addr) (Memory.wfFrom_filter _ h) ?_ ?_
  · intro c hc; simpa using (List.mem_filter.1 hc).2
  · exact Memory.wfFrom_append (Nat.le_add_right _ _) (Memory.wfFrom_cells addr bytes)
      (fun c hc => (Memory.cells_lt addr bytes c hc).2) (Memory.wfFrom_above h)

/-- Writing a byte keeps the canonical form. -/
theorem Memory.wf_write (addr : Nat) (b : Byte) {mem : List Host.Cell} (h : Memory.wf mem = true) :
    Memory.wf (Memory.write addr b mem) = true := Memory.wf_writeRun addr [b] h

/-! ### Reads -/

theorem Memory.read_append (a : Nat) : ∀ (l r : List Host.Cell), (∀ c ∈ l, c.1 ≠ a) →
    Memory.read a (l ++ r) = Memory.read a r
  | [], _, _ => rfl
  | c :: rest, r, h => by
    have hc : c.1 ≠ a := h c (by simp)
    simp only [List.cons_append, Memory.read, if_neg hc]
    exact Memory.read_append a rest r (fun d hd => h d (by simp [hd]))

theorem Memory.read_none (a : Nat) : ∀ (l : List Host.Cell), (∀ c ∈ l, c.1 ≠ a) →
    Memory.read a l = Config.dramUnlisted
  | [], _ => rfl
  | c :: rest, h => by
    have hc : c.1 ≠ a := h c (by simp)
    simp only [Memory.read, if_neg hc]
    exact Memory.read_none a rest (fun d hd => h d (by simp [hd]))

/-- A filter that keeps every entry of an address leaves its reading alone, whatever follows it does not list. -/
theorem Memory.read_filter_append (a : Nat) (p : Host.Cell → Bool) (r : List Host.Cell) (hp : ∀ c, c.1 = a → p c = true)
    (hr : ∀ c ∈ r, c.1 ≠ a) : ∀ mem : List Host.Cell, Memory.read a (mem.filter p ++ r) = Memory.read a mem
  | [] => by simpa [Memory.read] using Memory.read_none a r hr
  | c :: rest => by
    have ih := Memory.read_filter_append a p r hp hr rest
    by_cases hc : c.1 = a
    · rw [List.filter_cons_of_pos (hp c hc)]
      simp [Memory.read, hc]
    · by_cases hq : p c
      · rw [List.filter_cons_of_pos hq]
        simp only [List.cons_append, Memory.read, if_neg hc]; exact ih
      · rw [List.filter_cons_of_neg hq]
        simp only [Memory.read, if_neg hc]; exact ih

theorem Memory.read_filter (a : Nat) (p : Host.Cell → Bool) (hp : ∀ c, c.1 = a → p c = true) (mem : List Host.Cell) :
    Memory.read a (mem.filter p) = Memory.read a mem := by
  simpa using Memory.read_filter_append a p [] hp (by simp) mem

theorem Memory.read_cells : ∀ (addr : Nat) (bytes : List Byte) (i : Nat), i < bytes.length →
    ∀ r : List Host.Cell, (∀ c ∈ r, c.1 ≠ addr + i) →
    Memory.read (addr + i) (Memory.cells addr bytes ++ r) = bytes.getD i 0
  | _, [], _, hi, _, _ => by simp at hi
  | addr, b :: bs, 0, _, r, hr => by
    by_cases hb : b = Config.dramUnlisted
    · simp only [Memory.cells, if_pos hb]
      rw [Memory.read_append _ _ _ (fun c hc => by have := Memory.cells_lt (addr + 1) bs c hc; omega)]
      rw [Memory.read_none _ _ hr]; simpa using hb.symm
    · simp [Memory.cells, if_neg hb, Memory.read]
  | addr, b :: bs, i + 1, hi, r, hr => by
    have hi' : i < bs.length := by simpa using hi
    have ih := Memory.read_cells (addr + 1) bs i hi' r
    rw [show addr + (i + 1) = addr + 1 + i by omega] at hr ⊢
    by_cases hb : b = Config.dramUnlisted
    · simp only [Memory.cells, if_pos hb]
      rw [ih hr]; simp
    · simp only [Memory.cells, if_neg hb, List.cons_append, Memory.read]
      rw [if_neg (by omega), ih hr]; simp

/-- A read inside a run just written gives the byte written. -/
theorem Memory.read_writeRun_in (addr : Nat) (bytes : List Byte) (mem : List Host.Cell) {i : Nat} (hi : i < bytes.length) :
    Memory.read (addr + i) (Memory.writeRun addr bytes mem) = bytes.getD i 0 := by
  unfold Memory.writeRun
  rw [List.append_assoc, Memory.read_append]
  · apply Memory.read_cells _ _ _ hi
    intro c hc
    have := (List.mem_filter.1 hc).2
    simp only [decide_eq_true_eq] at this; omega
  · intro c hc
    have := (List.mem_filter.1 hc).2
    simp only [decide_eq_true_eq] at this; omega

/-- A read outside a run just written gives what it gave before. -/
theorem Memory.read_writeRun_out (addr : Nat) (bytes : List Byte) (mem : List Host.Cell) {a : Nat}
    (h : a < addr ∨ addr + bytes.length ≤ a) : Memory.read a (Memory.writeRun addr bytes mem) = Memory.read a mem := by
  unfold Memory.writeRun
  rcases h with h | h
  · rw [List.append_assoc]
    apply Memory.read_filter_append
    · intro c hc; simp only [decide_eq_true_eq]; omega
    · intro c hc
      rcases List.mem_append.1 hc with hc | hc
      · have := Memory.cells_lt addr bytes c hc; omega
      · have := (List.mem_filter.1 hc).2
        simp only [decide_eq_true_eq] at this; omega
  · rw [Memory.read_append]
    · apply Memory.read_filter
      intro c hc; simp only [decide_eq_true_eq]; omega
    · intro c hc
      rcases List.mem_append.1 hc with hc | hc
      · have := (List.mem_filter.1 hc).2
        simp only [decide_eq_true_eq] at this; omega
      · have := Memory.cells_lt addr bytes c hc; omega

/-- A run read gives the bytes read one by one. -/
theorem Memory.readRun_eq (addr n : Nat) (mem : List Host.Cell) :
    Memory.readRun addr n mem = (List.range n).map fun i => Memory.read (addr + i) mem := by
  unfold Memory.readRun
  apply List.map_congr_left
  intro i hi
  have hi := List.mem_range.1 hi
  apply Memory.read_filter
  intro c hc; simp only [decide_eq_true_eq]; omega

end Sys2Proof.Machine
end

