-- ==== Sys2Proof/WellFormed.lean ====
section
/-! DEFINITION. Which commands the world can send. Lanes are `Lane`, so a lane above 3 cannot be written; what is
left to check is that an arrival carries bytes at all. The meanings are total: they answer for ill-formed
commands too. -/

namespace Sys2Proof

/-- A command is well formed when the packet or the run of bytes it carries holds at least one byte: a camera
packet is what stands between two delimiters (11_message_and_packet_formats.md section 11.2), and an arrival on
the cab command lane is of bytes (R181). -/
def Instr.wf : Instr → Bool
  | .cameraPacket _ _ bytes => !bytes.isEmpty
  | .commandMessageArrival _ bytes => !bytes.isEmpty
  | _ => true

end Sys2Proof
end

