-- ==== Sys2Proof/Tests/Slice0.lean ====
section
/-! SUPPORT. Tests: what the checks of `Instr.wf` refuse, the spec's worked values, one small step of each command, and for
every statement with hypotheses a state and operands that meet them. The expected values come from the spec's tables
and worked sequences, named at each test, or are worked out by hand from its rules. -/

namespace Sys2Proof.Tests

open Sys2Proof.Machine

/-! ### Small states -/

/-- The moment of a test. -/
def at0 : Moment := ⟨0, false⟩

/-- The state after a meaning, none when it stops. -/
def next? (r : Result) : Option State :=
  match r with
  | .next t => some t
  | _ => none

/-- The message of command number `k`. -/
def said (k : Nat) (p : List Byte) : CmdMessage := ⟨BitVec.ofNat 8 k, 0x21, p⟩

/-- `s` with the message of command number `k` at the head of its command queue. -/
def asked (k : Nat) (p : List Byte) (s : State) : State := { s with chan := { s.chan with queue := [said k p] } }

/-- The state after reset with that message at the head. -/
def given (k : Nat) (p : List Byte) : State := asked k p State.reset

/-- The state after reset with lane 0's blocks changed. -/
def lane0 (f : LaneBlocks → LaneBlocks) : State := State.reset.modLane 0 f

/-- A Lane Receiver in this state with a frame of 1 x 4 pixels open, number 5. -/
def receiving (st : LaneState) : Receiver :=
  { Receiver.reset with
    state := st, acquisition := some ⟨1, 4⟩, openFrame := some ⟨5, .acquiring⟩, expectedFrame := some 6
    silenceDue := some 0 }

/-- The state after reset with lane 0 receiving. -/
def seen (st : LaneState) : State := lane0 fun l => { l with rx := receiving st }

/-- A packet with a good header (section 11.2). -/
def header (kind number w1 w3 : Nat) : List Byte :=
  withCrc ([BitVec.ofNat 8 (16 * kind + number)] ++ byte2 w1 ++ byte2 w3 ++ [0, 0])

/-- A LINE of one pixel. -/
def lineOf (number line : Nat) : List Byte := header 2 number line 0 ++ withCrc [16, 128]

/-- What the packet of such a LINE is parsed as. -/
def lineParsed (number line : Nat) : Packet := ⟨.line, number, line, 0, ⟨false, 0, false, false, false⟩, [16, 128], true⟩

/-- A slot with this role. -/
def slotIn (role : Role) : Option HeldSlot := some ⟨role, ⟨5, ⟨64, 32⟩, [], none⟩⟩

/-- Reply code and data of the last notice. -/
def answered (t : State) : Option (ReplyCode × List Byte) := t.chan.notices.getLast?.map fun k => (k.code, k.data)

/-! ### Well-formed commands -/

theorem test_wf_refuses_empty_packet : (Instr.cameraPacket at0 0 []).wf = false := by decide
theorem test_wf_refuses_empty_arrival : (Instr.commandMessageArrival at0 []).wf = false := by decide
theorem test_wf_accepts_bytes :
    (Instr.cameraPacket at0 0 [0]).wf = true ∧ (Instr.commandMessageArrival at0 [0x7E]).wf = true := by decide
theorem test_wf_accepts_others : (Instr.heartbeat at0).wf = true := by decide

/-! ### The step -/

theorem test_step_empty_queue_idles : (next? (step State.reset)).map (·.now) = some 0 := by decide
theorem test_step_takes_the_front : (next? (step { State.reset with
    pending := [.dramInitComplete ⟨8000, false⟩, .heartbeat at0] })).map (fun t => (t.arb.storeReady, t.pending))
    = some (true, [.heartbeat at0]) := by decide
theorem test_words_spell_no_command : decodeTableWord 16 0 = none := by decide

/-! ### The spec's arithmetic (00_scope.md section 4.7, R179) -/

/-- Section 4.7's examples of round and truncate. -/
theorem test_round_ties_away : roundDiv 5 2 = 3 ∧ roundDiv (-1) 2 = -1 ∧ roundDiv 7 8 = 1 := by decide
theorem test_truncate_toward_zero : truncDiv 27 10 = 2 ∧ truncDiv (-27) 10 = -2 := by decide
/-- R179: the CRC over "123456789" is 0x29B1. -/
theorem test_crc_check_value : crc16 [0x31, 0x32, 0x33, 0x34, 0x35, 0x36, 0x37, 0x38, 0x39] = 0x29B1 := by decide +kernel

/-! ### The spec's worked values -/

/-- Section 3.1's segments: a line of 320 pixels has 2, the last of 128 bytes; one of 1280 has 5. -/
theorem test_segments : segmentCount 320 = 2 ∧ segmentBytes 320 1 = 128 ∧ segmentCount 1280 = 5 := by decide

/-- Section 3.8's table of concealment: 480 lines, 0, 1, 100, 101 and 479 damaged. -/
theorem test_concealment : [0, 1, 99, 101, 479].map (concealed [0, 1, 100, 101, 479] 480) = [2, 2, 99, 99, 478] := by
  decide +kernel

/-- Section 4.6's worked measurement: four anchors accepted, Nmin 3, shift (+2, −1). -/
theorem test_lower_medians : lowerMedian [2, 3, 2, 5] = 2 ∧ lowerMedian [-1, -1, 0, -2] = -1 := by decide

/-- Section 4.6's anchor 6: line 400 damaged in the patch of row 12, tested before its SAD. -/
theorem test_damage_comes_first :
    judgeAnchor 12 .reset [400] [] ⟨1, -2, 2900, 990⟩ = .damaged
      ∧ judgeAnchor 1 .reset [400] [] ⟨-4, 3, 3100, 2480⟩ = .highSad
      ∧ judgeAnchor 9 .reset [400] [] ⟨0, 0, 190, 312⟩ = .lowContrast
      ∧ judgeAnchor 12 .reset [] [] ⟨5, -2, 1920, 1750⟩ = .accepted := by decide

/-- Section 4.7's frames 1, 5 and 6 of the worked filter. -/
theorem test_filter_frames :
    filterJob .reset 0 0 3 (-1) = ⟨42, -14, 3, -1⟩ ∧ filterJob .reset 231 12 16 8 = ⟨426, 122, 24, 8⟩
      ∧ filterJob .reset 426 122 16 0 = ⟨512, 107, 24, 7⟩ := by decide

/-- Section 5.6's band sequence. -/
theorem test_band_sequence :
    [(30, 0), (35, 0), (28, 1), (15, 1), (133, 0), (204, 2), (153, 3), (138, 3)].map
      (fun x => nextBand .reset x.1 x.2) = [0, 1, 1, 0, 2, 3, 3, 2] := by decide

/-- Section 5.6's tile: CLEAR with background 1600 and 320, measured 115 and 8, then 110 and 12, then 106 and 14. -/
theorem test_tile_through_jobs :
    let t0 : TileRecord := ⟨true, .clear, 1600, 320, 0, 16, 0⟩
    let c1 := classifyMeasured .reset t0 115 8
    let c2 := classifyMeasured .reset c1.settled 110 12
    let c3 := classifyMeasured .reset c2.settled 106 14
    c1.target = 40 ∧ c1.settled = ⟨true, .dusty, 1600, 320, 1, 20, 115⟩
      ∧ c2.target = 26 ∧ c2.settled = ⟨true, .dusty, 1600, 320, 2, 24, 110⟩
      ∧ c3.settled = ⟨true, .clear, 1612, 308, 0, 20, 106⟩ := by decide

/-- Section 5.7's pixels of a dusty tile: gain 20, mean 115, entry 121 of the tone table 128. -/
theorem test_pixels_of_a_dusty_tile :
    let tone := toneIdentity.set 121 128
    [120, 100, 113, 250].map (conditionLuma tone 20 115) = [128, 96, 112, 255] := by decide +kernel

/-- R126's table: the first three rows. -/
theorem test_crop_table :
    (evenDown (cropAxis 8 (-12) 64), cropAxis 32 5 64) = (0, 37)
      ∧ (evenDown (cropAxis 20 24 40), cropAxis 20 (-7) 40) = (40, 13)
      ∧ (evenDown (cropAxis 220 3 440), cropAxis 100 (-2) 330) = (222, 98) := by decide

/-- R131's two examples. -/
theorem test_mark_shifts :
    let r : WindowRecord := { WindowRecord.reset with stabilize := true, anchoring := .camera }
    markShift { r with scale := .down } 24 (-7) = (-12, 3) ∧ markShift { r with scale := .up } 3 (-2) = (-6, 4) := by
  decide

/-- Section 8.6: the deadline's distance and the holdover period of the average 21,376,000. -/
theorem test_flywheel_and_holdover :
    let t : Timing := { Timing.reset 0 with average := some 21376000 }
    t.flywheelTicks = 1503000 ∧ t.lossPeriod = 1336000 := by decide

/-- R12's worked average: 2,040 ticks folds 32,000 to 32,080; 2,100 is then out of tolerance. -/
theorem test_line_period :
    let rx : Receiver := { Receiver.reset with average := some 32000, periods := 16, mark := some ⟨16, 0⟩ }
    rx.measurePeriod 17 2040 = ⟨some 32080, 16, false⟩
      ∧ { rx with average := some 32080 }.measurePeriod 17 2100 = ⟨some 32080, 16, true⟩ := by decide

/-- Section 2.8's first worked sequence, with the relay's two bytes that are read back at its end. -/
theorem test_relay_message_and_reply :
    let fields (ack toggle : Bool) (b : Byte) (last : Bool) : Option RelayFields := some ⟨ack, b, toggle, last, false⟩
    let start := ({ Relay.reset with abortOwed := 0 }).append 0 ⟨0x21, [0x10, 0x22, 0x07]⟩
    let heard : List (Option RelayFields) :=
      [fields false false 0 false, fields false false 0 false, fields true false 0 false, fields true false 0 false,
        fields false false 0 false, fields true false 0 false, fields true true 0x5A false, fields true true 0x5A false,
        fields true false 3 true, none, fields true false 3 true]
    let before := heard.foldl (fun r f => (r.takePacket 1 0 f).1) start
    let done := before.takePacket 1 0 (fields true false 3 true)
    before.reply = [0x5A] ∧ before.acceptedToggle = true ∧ done.1.queue = [] ∧ done.1.inFlight = none
      ∧ done.1.sendToggle = false ∧ done.2.map (·.data) = [[1, 0x21, 2, 0x5A, 0x03]] := by decide +kernel

/-- Section 10.5: a checker in SYNC after 9 bits loaded and 64 predicted. -/
theorem test_checker_synchronises :
    let bits := (Pattern.short.generate 73 Pattern.short.allOnes).1
    let t := bits.foldl LinkTest.takeBit LinkTest.reset
    t.checker = .sync ∧ t.inverted = false ∧ t.run = 64 ∧ t.errorCount = 0 := by decide +kernel

/-- Section 11.5's worked status line: the notice bytes 49 to 54 are the OK reply to SELECT_PAGE with tag 0x40. -/
theorem test_notice_bytes : (Notice.mk .reply (some (29, 0x40)) .ok []).bytes = [0, 29, 0x40, 1, 0, 0] := by decide

/-! ### Resets: witnesses and values -/

theorem test_witness_store_not_ready : State.reset.arb.storeReady = false := by decide
theorem test_witness_reset_by_power : ∃ t, State.reset.ResetTo t := ⟨_, at0, .inl rfl⟩
theorem test_witness_reset_by_assertion : ∃ t, State.reset.ResetTo t := ⟨_, at0, .inr (.inl rfl)⟩
theorem test_witness_reset_by_release : ∃ t, { State.reset with resetAsserted := true }.ResetTo t :=
  ⟨_, at0, .inr (.inr (.inl ⟨rfl, rfl⟩))⟩
theorem test_witness_reset_by_restart : ∃ t, (given 3 []).ResetTo t :=
  ⟨_, at0, .inr (.inr (.inr ⟨said 3 [], by decide, rfl, rfl⟩))⟩

/-- `ResetPinsComplete`: both levels of RESET_N. -/
theorem test_witness_reset_pin :
    State.reset.resetAsserted = false ∧ { State.reset with resetAsserted := true }.resetAsserted = true := by decide

/-- R43, R139: 8,000 and 1,333,320 ticks after power-on at tick 10. -/
theorem test_power_on_timers : (next? (exec (.powerOn ⟨10, false⟩) State.reset)).map
    (fun t => (t.arb.initDue, t.timing.watch)) = some (some 8010, some (.timer 1333330)) := by decide
theorem test_pin_reset_stops_the_timer : (next? (exec (.pinResetAssert at0) State.reset)).map
    (fun t => (t.timing.watch, t.arb.initDue, t.chan.resetCause)) = some (none, none, .pin) := by decide
theorem test_pin_release_starts_the_timer : (next? (exec (.pinResetRelease at0)
    { State.reset with resetAsserted := true })).map (fun t => (t.resetAsserted, t.timing.watch))
    = some (false, some (.timer 1333320)) := by decide
theorem test_witness_restart : (given 3 []).ReadyFor 3 (said 3 []) ∧ (said 3 []).payload = [] := by decide
/-- R163, R166: cause RESTART_COMMAND, count 1, tag 0x21, and no reply. -/
theorem test_restart_records : (next? (exec (.restart at0) (given 3 []))).map
    (fun t => (t.chan.resetCause, t.chan.restartCount, t.chan.restartTag, t.chan.notices))
    = some (.restartCommand, 1, some 0x21, []) := by decide
theorem test_asserted_reset_takes_nothing : (next? (exec (.heartbeat ⟨7, true⟩)
    { given 1 [] with resetAsserted := true })).map (fun t => (t.now, t.reverse, t.chan.queue.length))
    = some (7, true, 1) := by decide

/-! ### What several commands share: witnesses -/

/-- `StepTakesTheFront`: both queues. -/
theorem test_witness_step :
    { State.reset with pending := [.heartbeat at0] }.pending = .heartbeat at0 :: [] ∧ State.reset.pending = [] := by decide

/-- `s` with `n` notices queued. -/
def noticed (n : Nat) (s : State) : State :=
  { s with chan := { s.chan with notices := List.replicate n ⟨.purge, none, .ok, []⟩ } }

/-- `ReportsNeedFourEntries`: 12 notices and 13. -/
theorem test_witness_reports :
    (noticed 12 State.reset).chan.notices.length ≤ 12 ∧ 13 ≤ (noticed 13 State.reset).chan.notices.length := by decide
/-- R158: of three reports at 11 notices two enter, the third is dropped; REPORT_DROPPED is flag 14. -/
theorem test_reports_dropped :
    let t := (noticed 11 State.reset).offerAll (List.replicate 3 ⟨.timing, none, .ok, []⟩)
    t.chan.notices.length = 13 ∧ t.chan.counters.reportsDropped = 1 ∧ t.chan.flags = 0x004000 := by decide

/-- A ready store with an idle port, 1 refresh owed and lanes 0 and 2 waiting to write, lane 2 granted last (section 3.9). -/
def underLoad (owed : Nat) : State :=
  let waits (l : LaneBlocks) : LaneBlocks :=
    { l with store := { l.store with
      ring := ⟨slotIn .filling, none, none, none⟩, opening := .stored 0, buffer := [⟨.current, 0, [1, 2], 0⟩] } }
  { (State.reset.modLane 0 waits).modLane 2 waits with
    arb := { State.reset.arb with storeReady := true, owed := owed, lastGranted := 2 } }

/-- `underLoad` with lanes 0 and 2 changed alike. -/
def underLoadWith (owed : Nat) (f : LaneStore → LaneStore) : State :=
  ((underLoad owed).modLane 0 fun l => { l with store := f l.store }).modLane 2 fun l => { l with store := f l.store }

/-- `StoreGrantsInOrder`: an idle port, a busy one, and a store that is not ready. -/
theorem test_witness_idle_port : (underLoad 1).arb.storeReady = true ∧ (underLoad 1).arb.port = none := by decide
theorem test_witness_busy_port :
    State.reset.arb.storeReady = false ∧ (underLoad 1).serve.arb.port ≠ none := by decide
/-- Section 3.9, grants 2 and 3: lane 0 comes before lane 2 and before one refresh owed; with 8 owed the refresh is first. -/
theorem test_round_robin : (underLoad 1).serve.arb.lastGranted = 0
    ∧ (underLoad 8).serve.arb.port = some ⟨.refresh, 16, true⟩ := by decide
/-- R48: a deferred frame's line waits, so the refresh owed goes first; a line of the frame being committed goes to that
frame's slot, from its next unwritten segment on. -/
theorem test_writes_granted :
    let line : BufferedLine := ⟨.committing, 7, List.replicate 514 3, 1⟩
    (underLoadWith 1 fun l => { l with opening := .deferred 6 ⟨64, 32⟩ [] }).serve.arb.port = some ⟨.refresh, 16, true⟩
      ∧ (underLoadWith 1 fun l => { l with pendingCommit := some ⟨3, 0, 32, .locked⟩, buffer := [line] }).serve.arb.port
        = some ⟨.write 0 3 7 1 [3, 3], 5, true⟩ := by decide +kernel

/-- A lane with all four roles, a job running and a message in flight. -/
def busyLane : State :=
  { lane0 fun l => { l with
      rx := receiving .locked
      relay := { l.relay with queue := [⟨1, [2]⟩], inFlight := some .sending, abortOwed := 0, progressDue := some 0 }
      store := { l.store with ring := ⟨slotIn .ready, slotIn .showing, slotIn .conditioning, slotIn .filling⟩ } } with
    jobs := [⟨0, 2, 5, none⟩] }

/-- Lane 0's running job of slot 2 with slot 0 as reference, on a ready store; so many reads of its anchor made, each of one
anchor of tile (0, 0). -/
def searching (made : Nat) (k : Stabilizer) (rows : List (List Byte)) : State :=
  { busyLane with
    arb := { State.reset.arb with storeReady := true }
    jobs := [⟨0, 2, 5, some ⟨[⟨0, 0, true⟩], k, .reset, 90, false, some 0, none, [.toSearch], rows.take made⟩⟩] }
/-- R74: after 15 reads the last patch line, 23 of slot 2; after 16 the first window line, 8 − 6 of slot 0; 128 bytes. -/
theorem test_reads_granted : [15, 16].map (fun k => (searching k .reset (List.replicate 16 [])).serve.arb.port)
    = [some ⟨.read 0 2 23 0 128, 12, true⟩, some ⟨.read 0 0 2 0 128, 12, true⟩] := by decide +kernel

/-- `LaneDownReachesTheBlocks`: a slot of each role, a job and a message. -/
theorem test_witness_lane_down :
    let st := (busyLane.lane 0).store
    st.slotOf .filling = some 3 ∧ st.slotOf .conditioning = some 2 ∧ st.ring.get 0 = slotIn .ready
      ∧ st.ring.get 1 = slotIn .showing ∧ (busyLane.jobs.any fun j => j.lane == 0) = true := by decide
/-- `LaneDownReachesTheBlocks`: the port under a write of the lane, a write of another and a read, with the lane's job
running or another's; a running head stays. R63, R89: what is discarded, and the jobs that stay. -/
theorem test_witness_lane_down_on_the_port :
    let other : Job := ⟨1, 0, 9, some ⟨[], .reset, .reset, 90, true, none, none, [.toSearch], []⟩⟩
    let on (k : TransferKind) (jobs : List Job) : State :=
      { busyLane with jobs := jobs, arb := { State.reset.arb with port := some ⟨k, 9, true⟩ } }
    let after (s : State) := ((s.deliverLaneDown 0).arb.port.map (·.live), (s.deliverLaneDown 0).jobs.map (·.lane))
    after (on (.write 0 3 0 0 [1, 2]) [other]) = (some false, [1])
      ∧ after (on (.write 1 3 0 0 [1, 2]) [other]) = (some true, [1])
      ∧ after (on (.read 0 2 8 0 2) (searching 0 .reset []).jobs) = (some false, [])
      ∧ after (on (.read 1 0 8 0 2) [other, ⟨0, 2, 5, none⟩]) = (some true, [1]) ∧ other.run.isSome = true := by
  decide +kernel
/-- R37: two messages, the one in flight first, in phase 1. -/
theorem test_lane_down_reports :
    let s := busyLane.modRelay 0 fun r => { r with queue := [⟨1, [2]⟩, ⟨7, [3]⟩], taken := 1 }
    (s.deliverLaneDown 0).chan.notices.map (·.data) = [[0, 1, 2, 1, 1, 0], [0, 7, 2, 0, 0, 0]] := by decide
/-- R55, R36: FILLING and CONDITIONING are freed, READY and SHOWING kept, one LANE_DOWN report. -/
theorem test_lane_down : ((busyLane.deliverLaneDown 0).lane 0).store.ring = ⟨slotIn .ready, slotIn .showing, none, none⟩
    ∧ (busyLane.deliverLaneDown 0).chan.notices.map (·.data) = [[0, 1, 2, 1, 0, 0]] := by decide

/-- `ReleaseAndGeometry`: an acquisition geometry that is not the lane geometry, and one that is. -/
theorem test_witness_lock :
    ((seen .acquiring).lane 0).rx.acquisition = some ⟨1, 4⟩ ∧ ((seen .acquiring).lane 0).rx.geometry ≠ ⟨1, 4⟩
      ∧ (((seen .acquiring).modRx 0 fun r => { r with geometry := ⟨1, 4⟩ }).lane 0).rx.acquisition = some ⟨1, 4⟩ := by decide
/-- R56: READY and SHOWING are freed, CONDITIONING and FILLING stay. -/
theorem test_release : ((busyLane.storeRelease 0).lane 0).store.ring = ⟨none, none, slotIn .conditioning, slotIn .filling⟩ := by
  decide

/-- A master in this lane state, with its last start at tick 0. -/
def mastered (st : LaneState) (now : Nat) : State :=
  { seen st with now := now, timing := { State.reset.timing with master := some 0, average := some 21376000 } }

/-- `LosingTheMaster`: a master that stays, one that left before the timer has expired, and one at its expiry tick. -/
theorem test_witness_master_stays : (mastered .locked 0).timing.master = some 0
    ∧ ((mastered .locked 0).lane 0).rx.state = .locked ∧ ((mastered .locked 0).lane 0).rx.mode = .normal := by decide
theorem test_witness_master_left : (mastered .silent 0).timing.master = some 0
    ∧ ((mastered .silent 0).lane 0).rx.state ≠ .locked := by decide
/-- `LosingTheMaster`: a master that has left NORMAL. -/
theorem test_witness_master_in_check : ((mastered .locked 0).modRx 0 fun r => { r with mode := .check }).timing.master = some 0
    ∧ (((mastered .locked 0).modRx 0 fun r => { r with mode := .check }).lane 0).rx.mode ≠ .normal := by decide
/-- Section 8.6's last paragraph: the timer counts from the last start; passed already, the frame starts at once. -/
theorem test_master_left :
    ((mastered .silent 1335999).checkMaster 0).timing.watch = some (.timer 1336000)
      ∧ ((mastered .silent 1336000).checkMaster 0).timing.lastStart = 1336000
      ∧ ((mastered .silent 1336000).checkMaster 0).timing.phase = .picture := by decide
/-- R148: the report's frame number is the one after the event. -/
theorem test_lane_left_number : [1335999, 1336000].map (fun now =>
    ((((mastered .silent now).modTiming fun t => { t with firstPending := false, frameNumber := 9 }).checkMaster 0).chan.notices.map
      fun k => k.data.drop 7)) = [[[0, 9]], [[0, 10]]] := by decide

/-- `MasterIsSelected`: a new master, one kept, and one dropped at its third forced start. -/
theorem test_witness_master_chosen :
    ((seen .locked).startFrame none).timing.master = some 0 ∧ (seen .locked).timing.master = none
      ∧ ((mastered .locked 0).startFrame none).timing.master = (mastered .locked 0).timing.master
      ∧ ((mastered .locked 0).startFrame (some 0)).timing.master = none
      ∧ (mastered .locked 0).timing.pendingRaster = none
      ∧ (mastered .locked 0).timing.syncOffset = (mastered .locked 0).timing.syncInForce
      ∧ ((mastered .locked 0).modTiming fun t => { t with syncOffset := 9 }).timing.syncOffset ≠ 8 := by decide
/-- `MasterIsSelected`, the holdover: a master lost in AUTO and in FREE, none before and after in both, a new one and
another. -/
theorem test_holdover_at_selection :
    let free (s : State) := s.modTiming fun t => { t with mode := .free }
    let held (s : State) := s.modTiming fun t => { t with holdover := true, holdoverPeriod := some 9, master := none }
    let found (s : State) := let t := (s.startFrame none).timing; (t.master, t.holdover, t.holdoverPeriod)
    found (mastered .silent 0) = (none, true, some 1336000) ∧ found (free (mastered .locked 0)) = (none, false, some 1336000)
      ∧ found (held (mastered .silent 0)) = (none, true, some 9)
      ∧ found (free (held (mastered .silent 0))) = (none, false, some 9)
      ∧ found (held (mastered .locked 0)) = (some 0, false, some 9)
      ∧ found ((mastered .locked 0).modTiming fun t => { t with master := some 1 }) = (some 0, false, none) := by decide
/-- R153: a kept master keeps its offset mark, and loses it when the sync offset has changed. -/
theorem test_offset_mark : [8, 9].map (fun k => (((mastered .locked 0).modTiming fun t =>
    { t with syncOffset := k, offsetMark := some ⟨3, 7⟩ }).startFrame none).timing.offsetMark)
    = [some ⟨3, 7⟩, none] := by decide

/-- `LayoutAtFrameStart`: no raster pending; fallback in STARTUP, a page in ACTIVE, page 3 in reverse. -/
def layoutIn (sup : Supervision) (reverse : Bool) : State :=
  { State.reset with
    reverse := reverse, comp := { State.reset.comp with lastReverse := reverse, commitRequested := true }
    chan := { State.reset.chan with supervision := sup } }

theorem test_witness_layout : (layoutIn .startup false).timing.pendingRaster = none
    ∧ ((layoutIn .startup false).startFrame none).comp.shownPage = .fallback
    ∧ ((layoutIn .active false).startFrame none).comp.shownPage = .page 0
    ∧ ((layoutIn .active true).startFrame none).comp.shownPage = .page 3 := by decide

/-- `LayoutAtFrameStart`: a new raster that a window leaves, with the same master and with another. -/
theorem test_witness_new_raster :
    let s := (layoutIn .active false).modTiming fun t => { t with pendingRaster := some .r800x480 }
    s.timing.pendingRaster.getD s.timing.raster ≠ s.timing.raster ∧ (s.startFrame none).timing.master = s.timing.master
      ∧ ((s.modRx 0 fun _ => receiving .locked).startFrame none).timing.master ≠ s.timing.master := by decide

/-- A frame of 640 x 480 in this role, corrected by (3, −2), in window 0 of every page, 200 x 150 at (220, 100). -/
def screened (role : Role) (st : LaneState) (age : Nat) : State :=
  let c : Conditioned := ⟨.valid, 3, 0, 0, 3, -2, 0, 0, [], false⟩
  let w : WindowRecord := { WindowRecord.reset with
    enabled := true, w := 200, h := 150, cx := 220, cy := 100, stabilize := true }
  { (lane0 fun l => { l with
      rx := receiving st, staleAge := age
      store := { l.store with ring := ⟨some ⟨role, ⟨5, ⟨640, 480⟩, [], some c⟩⟩, none, none, none⟩ } }) with
    chan := { State.reset.chan with supervision := .active }
    comp := { State.reset.comp with pagesActive := Four.const [w] } }

/-- `FramePlanIsMade`: a frame that is shown at a stale age of 15, of a lane LOCKED and of one that is not; one at 16; and a
lane with none, also in the fallback layout. -/
theorem test_witness_frame_plan :
    (∀ st ∈ [LaneState.locked, .silent], let t := (screened .showing st 14).startFrame none
      ∃ p ∈ t.comp.plan, (t.lane p.record.lane).store.slotOf .showing = some 0 ∧ (t.lane 0).staleAge = 15
        ∧ p.content ≠ .lost)
      ∧ (let t := (screened .showing .locked 15).startFrame none
        ∃ p ∈ t.comp.plan, (t.lane p.record.lane).store.slotOf .showing = some 0 ∧ 15 < (t.lane 0).staleAge)
      ∧ (let t := State.reset.startFrame none
        ∃ p ∈ t.comp.plan, (t.lane p.record.lane).store.slotOf .showing = none) := by decide
/-- R123, R124 and R126's third row: NORMAL, STALE and LOST, and the crop at (222, 98). -/
theorem test_frame_plan :
    [screened .ready .locked 255, screened .showing .silent 14, screened .showing .locked 15].map (fun s =>
      (s.startFrame none).comp.plan.map fun p => (p.content, if p.content = .lost then (0, 0) else (p.ox, p.oy)))
    = [[(.normal, 222, 98)], [(.stale, 222, 98)], [(.lost, 0, 0)]] := by decide

/-! ### Supervision commands -/

theorem test_witness_heartbeat : (given 1 []).ReadyFor 1 (said 1 []) := by decide
theorem test_witness_resume : (given 2 []).ReadyFor 2 (said 2 []) := by decide
theorem test_witness_set_supervision : (given 4 [0, 0]).ReadyFor 4 (said 4 [0, 0]) := by decide

/-- In ACTIVE with the heartbeat timer due at tick 0. -/
def alive : State := { State.reset with chan := { State.reset.chan with supervision := .active, heartbeatDue := some 0 } }

theorem test_witness_heartbeat_expiry :
    alive.resetAsserted = false ∧ alive.chan.supervision = .active ∧ alive.chan.heartbeatDue = some 0 := by decide

theorem test_heartbeat_replies : (next? (exec (.heartbeat at0) (given 1 []))).bind answered = some (.ok, [0, 0x03, 0xE8]) := by
  decide
/-- R160: 1,000 ms of 40,000 ticks after tick 5. -/
theorem test_resume_starts_the_timer : (next? (exec (.resume ⟨5, false⟩) (given 2 []))).map
    (fun t => (t.chan.supervision, t.chan.heartbeatDue)) = some (.active, some 40000005) := by decide
theorem test_supervision_clamps : (next? (exec (.setSupervision at0) (given 4 [0, 99]))).bind answered
    = some (.clamped, [0, 100]) := by decide
theorem test_supervision_off : (next? (exec (.setSupervision at0) (given 4 [0, 0]))).map
    (fun t => (answered t, t.chan.heartbeatPeriod)) = some (some (.ok, [0, 0]), 0) := by decide
/-- R160's report: ACTIVE, LIMP, 1,000 ms, one loss; flag 16. -/
theorem test_heartbeat_expiry : (next? (exec (.heartbeatTimerExpiry at0) alive)).map (fun t => (answered t, t.chan.flags))
    = some (some (.ok, [1, 2, 0x03, 0xE8, 0, 0, 0, 1]), 0x010000) := by decide
/-- R164: asserted at the expiry; RESUME deasserts it, but not with a lane in LOCKED_OUT; CLEAR_FLAGS leaves it so. -/
theorem test_fault_line :
    let line (i : Instr) (s : State) := (next? (exec i s)).map State.faultLine
    let out (s : State) := s.modRx 3 fun r => { r with state := .lockedOut }
    let limp := { State.reset with chan := { State.reset.chan with supervision := .limp } }
    line (.heartbeatTimerExpiry at0) alive = some true
      ∧ [limp, out limp].map (fun s => line (.resume at0) (asked 2 [] s)) = [some false, some true]
      ∧ line (.clearFlags at0) (asked 5 [0xFF, 0xFF, 0xFF] (out { State.reset with
        chan := { State.reset.chan with flags := 0x80, reported := 0x80 } })) = some true
      ∧ State.reset.faultLine = false := by decide +kernel

theorem test_witness_clear_flags : (given 5 [0, 0, 0]).ReadyFor 5 (said 5 [0, 0, 0]) := by decide
theorem test_witness_read_counters :
    (given 6 [boolByte false]).ReadyFor 6 (said 6 [0]) ∧ (given 6 [boolByte true]).ReadyFor 6 (said 6 [1]) := by decide
/-- R168: of all 24 bits named, the two reported flags go and the two that are not reported stay. -/
theorem test_clear_flags : (next? (exec (.clearFlags at0) (asked 5 [0xFF, 0xFF, 0xFF]
    { State.reset with chan := { State.reset.chan with flags := 0x01000F, reported := 0x010008 } }))).bind answered
    = some (.ok, [0, 0, 7, 0, 0, 7]) := by decide
theorem test_read_counters_clears : (next? (exec (.readCounters at0) (asked 6 [1]
    { State.reset with chan := { State.reset.chan with counters := ⟨9, 0, 0, 0, 0, 0⟩ } }))).map
    (fun t => ((answered t).map fun a => (a.1, a.2.length, a.2.take 4), t.chan.counters.accepted))
    = some (some (.ok, 24 + 9 + 48, [0, 0, 0, 9]), 0) := by decide

/-! ### Reads of a lane -/

/-- `ReadsComplete`: lane 3 and both values of clear, the three sections, and the first and last row of the table and the
row beyond it. -/
theorem test_witness_reads :
    (given 11 [fourByte 3, boolByte true]).ReadyFor 11 (said 11 [3, 1]) ∧ (given 35 [fourByte 3]).ReadyFor 35 (said 35 [3])
      ∧ (given 18 [fourByte 3, 0, boolByte true]).ReadyFor 18 (said 18 [3, 0, 1])
      ∧ (given 18 [3, 1, 0]).ReadyFor 18 (said 18 [3, 1, 0]) ∧ (given 18 [3, 2, 0]).ReadyFor 18 (said 18 [3, 2, 0])
      ∧ (given 18 [3, 1, 1]).ReadyFor 18 (said 18 [3, 1, 1]) ∧ (1 : Byte) ≠ 0
      ∧ (given 21 [3, 0]).ReadyFor 21 (said 21 [3, 0]) ∧ (given 21 [3, 24]).ReadyFor 21 (said 21 [3, 24])
      ∧ (given 21 [3, 25]).ReadyFor 21 (said 21 [3, 25]) := by decide
/-- R26, R183: state SEARCHING, NORMAL, AUTO, 1280 x 800 twice, no acquisition geometry. -/
theorem test_read_lane : ((next? (exec (.readLane at0) (given 11 [0, 0]))).bind answered).map (fun a => a.2.take 15)
    = some [1, 0, 0, 5, 0, 3, 0x20, 5, 0, 3, 0x20, 0xFF, 0xFF, 0xFF, 0xFF] := by decide
theorem test_test_read_clears : (next? (exec (.testRead at0) (asked 35 [0]
    (lane0 fun l => { l with test := { l.test with errorCount := 17 } })))).map
    (fun t => (answered t, (t.lane 0).test.errorCount)) = some (some (.ok, [0, 0, 0, 0, 0, 17]), 0) := by decide
theorem test_read_motion_refuses_clear_of_anchors :
    (next? (exec (.readMotion at0) (given 18 [0, 1, 1]))).bind answered = some (.badArg, []) := by decide
theorem test_read_motion_defaults : ((next? (exec (.readMotion at0) (given 18 [0, 0, 0]))).bind answered).map
    (fun a => a.2.take 12) = some [1, 12, 6, 3, 8, 0, 1, 0xE0, 8, 32, 24, 16] := by decide
/-- Section 11.3, READ_MOTION: 12 anchors, jitter (42, −14), a queued job of frame 5, a summary with one result, and its six
outcomes, in CONTEXT and in both anchor sections. -/
theorem test_read_motion_with_a_summary :
    let anchors : List Anchor := (List.range 12).map fun c => ⟨c, 1, true⟩
    let found : AnchorResult := ⟨0, 1, .highSad, some ⟨-4, 3, 3100, 2480⟩⟩
    let s := { lane0 fun l => { l with motion := { l.motion with
      jitterX := 42, jitterY := -14, referenceValid := true, anchors := anchors, counters := ⟨1, 1, 0, 0, 0⟩
      summary := some ⟨4, false, true, true, .valid, 3, 3, -1, 42, -14, 3, -1, [found, ⟨1, 1, .disabled, none⟩]⟩ } } with
      jobs := [⟨0, 2, 5, none⟩] }
    let data (part : Byte) := ((next? (exec (.readMotion at0) (asked 18 [0, part, 0] s))).bind answered).map (·.2)
    (data 0).map (·.drop 12) = some ([12, 0, 42, 0xFF, 0xF2, 1, 1, 5]
        ++ [1, 4, 0, 1, 1, 0, 3, 3, 0xFF, 0, 42, 0xFF, 0xF2, 3, 0xFF]
        ++ [0, 0, 0, 1, 0, 0, 0, 1] ++ List.replicate 12 0)
      ∧ (data 1).map (·.drop 16)
        = some ([5, 1, 1] ++ [2, 0, 1, 6, 0xFC, 3, 0x0C, 0x1C, 0x09, 0xB0, 1, 1, 1, 0, 0, 0, 0, 0, 0])
      ∧ (data 2).map (fun d => (d.take 4, d.drop 19)) = some ([6, 6, 1, 1], [0]) := by decide +kernel
theorem test_read_dust_map : ((next? (exec (.readDustMap at0) (given 21 [0, 24]))).bind answered).map
    (fun a => (a.1, a.2.take 7, a.2.length)) = some (.ok, [20, 25, 24, 0, 0, 0, 20], 47) := by decide +kernel
theorem test_read_dust_map_row_beyond : (next? (exec (.readDustMap at0) (given 21 [0, 25]))).bind answered
    = some (.badArg, []) := by decide

/-! ### Settings -/

/-- `SettingsComplete`, the lane's and the store's: the ends of the clamps. -/
theorem test_witness_lane_settings :
    (given 8 [fourByte 3, 0, 9, 0, 99, 33]).ReadyFor 8 (said 8 [3, 0, 9, 0, 99, 33])
      ∧ (given 13 [fourByte 0, boolByte true, 0, 10]).ReadyFor 13 (said 13 [0, 1, 0, 10])
      ∧ (given 15 [4, 0xE0]).ReadyFor 15 (said 15 [4, 0xE0]) := by decide
theorem test_set_lane_limits : (next? (exec (.setLaneLimits at0) (given 8 [0, 0, 9, 0x27, 0x11, 33]))).map (fun t =>
    ((answered t).map (·.1), (t.lane 0).rx.silenceTimeout, (t.lane 0).rx.recoveryDelay, (t.lane 0).rx.dmax))
    = some (some .clamped, 10, 10000, 32) := by decide
theorem test_set_relay : (next? (exec (.setRelay at0) (given 13 [0, 0, 1, 0xF4]))).map (fun t =>
    ((answered t).map (·.1), (t.lane 0).relay.doubleLook, (t.lane 0).relay.timeout)) = some (some .ok, false, 500) := by
  decide
theorem test_set_refresh : (next? (exec (.setRefresh at0) (given 15 [4, 0xE1]))).map (fun t => (answered t, t.arb.interval))
    = some (some (.clamped, [4, 0xE0]), 1248) := by decide

/-- `SettingsComplete`, the engine's, the Dust Monitor's and the purge's. -/
theorem test_witness_engine_settings :
    let sp : List Byte := [fourByte 0, boolByte true, 12, 6, 3, 8, 0, 1, 0xE0, 8, 32, 24, 16]
    let dp : List Byte := [fourByte 0, 12, 8, 40, 0, 32, 0, 96, 0, 160]
    let pp : List Byte := [fourByte 0, 1, 0x2C, 0, 30, 90, 0, 10, 3, boolByte true]
    (given 17 sp).ReadyFor 17 (said 17 sp) ∧ (given 19 dp).ReadyFor 19 (said 19 dp)
      ∧ (given 22 pp).ReadyFor 22 (said 22 pp) := by decide
theorem test_set_stabilizer : (next? (exec (.setStabilizer at0)
    (given 17 [0, 0, 17, 9, 0, 0xFF, 1, 0xEF, 0x11, 0, 65, 65, 33]))).map
    (fun t => ((answered t).map (·.1), (t.lane 0).motion.settings))
    = some (some .clamped, ⟨false, 16, 8, 1, 65280, 61200, 1, 64, 64, 32⟩) := by decide +kernel
theorem test_set_dust_needs_rising_thresholds :
    (next? (exec (.setDust at0) (given 19 [0, 12, 8, 40, 0, 32, 0, 32, 0, 160]))).map
    (fun t => ((answered t).map (·.1), (t.lane 0).dust.settings.b2)) = some (some .badArg, 96) := by decide
theorem test_set_purge : (next? (exec (.setPurge at0) (given 22 [0, 0, 49, 2, 0x59, 9, 0, 0, 9, 0]))).map
    (fun t => ((answered t).map (·.1), (t.lane 0).purge.settings)) = some (some .clamped, ⟨50, 600, 10, 1, 8, false⟩) := by
  decide +kernel

/-! ### Tables -/

/-- `TablesComplete`: the last and the first tile of the largest frame. -/
theorem test_witness_anchors :
    let anchors : List Anchor := [⟨19, 24, true⟩, ⟨0, 0, false⟩]
    let p : List Byte := fourByte 3 :: BitVec.ofNat 8 anchors.length :: anchors.flatMap Anchor.bytes
    (given 16 p).ReadyFor 16 (said 16 p) ∧ anchors.length ≤ 12 ∧ (∀ a ∈ anchors, a.col ≤ 19 ∧ a.row ≤ 24)
      ∧ (anchors.map fun a => (a.col, a.row)).Nodup := by decide
/-- `TablesComplete`: the last quarter of a tone table. -/
theorem test_witness_tone :
    let p : List Byte := fourByte 3 :: BitVec.ofNat 8 192 :: List.replicate 64 7
    (given 20 p).ReadyFor 20 (said 20 p) ∧ (List.replicate 64 (7 : Byte)).length = 64 := by decide +kernel
theorem test_load_anchors : (next? (exec (.loadAnchors at0) (given 16 [0, 2, 19, 24, 1, 0, 0, 0]))).map
    (fun t => (t.lane 0).motion.anchors) = some [⟨19, 24, true⟩, ⟨0, 0, false⟩] := by decide
theorem test_load_anchors_refuses_same_tile : (next? (exec (.loadAnchors at0) (given 16 [0, 2, 1, 1, 1, 1, 1, 0]))).bind
    answered = some (.badArg, []) := by decide
theorem test_load_tone : (next? (exec (.loadTone at0) (given 20 (1 :: 192 :: List.replicate 64 7)))).map
    (fun t => (((t.tone.pending.get 1).drop 191).take 2, (t.tone.active.get 1).drop 255)) = some ([191, 7], [255]) := by
  decide +kernel

/-- A window record that fills the raster with lane 0's frame. -/
def fullWindow : WindowRecord :=
  { WindowRecord.reset with enabled := true, w := 1280, h := 800, markSet := some 3, anchoring := .camera }

/-- R149: at a smaller raster the only window of each pending page is disabled and listed, page by page. -/
theorem test_new_raster_disables : let t := ({ State.reset with
      comp := { State.reset.comp with pagesPending := ⟨[fullWindow], [], [], [fullWindow]⟩ }
      timing := { State.reset.timing with pendingRaster := some .r1024x600 } }.startFrame none)
    (t.comp.pagesPending.get 3) = [{ fullWindow with enabled := false }]
      ∧ t.chan.notices.map (·.data) = [[0, 1, 0, 0, 0, 0, 0, 0, 1, 0]] := by decide

/-- `WindowCommandsComplete`: a record that fits to the last pixel, one a pixel too wide, and windows 5 and 6 of pages 3
and 4. -/
theorem test_witness_windows :
    (given 25 (fullWindow.payload 3 5)).ReadyFor 25 (said 25 (fullWindow.payload 3 5)) ∧ fullWindow.w < 65536
      ∧ fullWindow.x + fullWindow.w ≤ State.reset.timing.raster.width
      ∧ ¬({ fullWindow with w := 1281 } : WindowRecord).w ≤ State.reset.timing.raster.width
      ∧ (given 26 [3, 5]).ReadyFor 26 (said 26 [3, 5]) ∧ (given 26 [4, 6]).ReadyFor 26 (said 26 [4, 6]) := by decide
theorem test_load_window : (next? (exec (.loadWindow at0) (given 25
    [1, 0, 0, 0, 0, 0, 0, 4, 0xC0, 2, 0xE0, 0, 0x43, 0, 0x41, 0, 1, 255, 0]))).map
    (fun t => ((answered t).map (·.1), ((t.comp.pagesPending.get 1).getD 0 .reset).cx,
      ((t.comp.pagesPending.get 1).getD 0 .reset).cy)) = some (some .clamped, 64, 64) := by decide
theorem test_clear_window_keeps_fields : (next? (exec (.clearWindow at0) (asked 26 [0, 0] { State.reset with
    comp := { State.reset.comp with pagesPending := Four.const (List.replicate 6 fullWindow) } }))).map
    (fun t => (t.comp.pagesPending.get 0).take 2) = some [{ fullWindow with enabled := false }, fullWindow] := by decide

/-- `WindowCommandsComplete`, R133's last sentence: page 0 is shown after the swap, with window 1 and without window 0. -/
theorem test_witness_window_leaves_the_screen :
    let s := asked 26 [0, 0] { layoutIn .active false with
      comp := { State.reset.comp with pagesPending := Four.const (List.replicate 2 fullWindow) } }
    s.ReadyFor 26 (said 26 [0, 0])
      ∧ (next? (exec (.clearWindow at0) s)).map (fun u =>
        let v := { u with comp := { u.comp with commitRequested := true } }.startFrame none
        (v.comp.shownPage, v.comp.plan.map (·.window))) = some (.page 0, [1]) := by decide

/-- `TablesComplete`: the ends of the twelve bits, and sizes 0 and 4095 that the clamp meets. -/
theorem test_witness_marks :
    let palette : Four Colour := Four.const ⟨1, 2, 3⟩
    let marks : List Mark := [⟨-2048, 2047, 0, 4095, 3, .half⟩]
    let p : List Byte :=
      fourByte 3 :: palettePayload palette ++ [BitVec.ofNat 8 marks.length] ++ marks.flatMap Mark.payload
    (given 27 p).ReadyFor 27 (said 27 p) ∧ marks.length ≤ 8
      ∧ (∀ k ∈ marks, -2048 ≤ k.x ∧ k.x ≤ 2047 ∧ -2048 ≤ k.y ∧ k.y ≤ 2047 ∧ k.w < 4096 ∧ k.h < 4096) := by decide
/-- R182's packing: x −1, y 16, w 0 (clamped to 1), h 2048, HALF in colour 2. -/
theorem test_load_marks : (next? (exec (.loadMarks at0) (given 27
    [2, 1, 2, 3, 1, 2, 3, 1, 2, 3, 1, 2, 3, 1, 0xFF, 0xF0, 0x10, 0, 8, 0, 0x12]))).map
    (fun t => ((answered t).map (·.1), (t.comp.marksPending.get 2).marks))
    = some (some .clamped, [⟨-1, 16, 1, 2048, 2, .half⟩]) := by decide +kernel

/-- `TablesComplete`: pages 3 and 4, and a hold limit one above its clamp. -/
theorem test_witness_composition_settings : (given 28 []).ReadyFor 28 (said 28 [])
    ∧ (given 29 [3]).ReadyFor 29 (said 29 [3]) ∧ (given 29 [4]).ReadyFor 29 (said 29 [4])
    ∧ (given 30 [1, 0]).ReadyFor 30 (said 30 [1, 0]) := by decide
theorem test_commit_tables : (next? (exec (.commitTables at0) (given 28 []))).map (·.comp.commitRequested) = some true := by
  decide
theorem test_select_page : (next? (exec (.selectPage at0) (given 29 [3]))).map (·.comp.selectedPage) = some 3
    ∧ (next? (exec (.selectPage at0) (given 29 [4]))).bind answered = some (.badArg, []) := by decide
theorem test_set_substitute : (next? (exec (.setSubstitute at0) (given 30 [1, 0]))).map
    (fun t => ((answered t).map (·.1), t.comp.holdLimit)) = some (some .clamped, 255) := by decide

/-- `SettingsComplete`, the timing's: the raster in force, another and code 3; FIXED, and a list that names a lane twice. -/
theorem test_witness_timing_settings :
    let p : List Byte := [1, fourByte 3, fourByte 3, fourByte 2, fourByte 1, fourByte 0, 64, 0x4E, 0x1F]
    (given 31 [2]).ReadyFor 31 (said 31 [2]) ∧ (given 31 [0]).ReadyFor 31 (said 31 [0])
      ∧ (given 31 [3]).ReadyFor 31 (said 31 [3]) ∧ (given 32 p).ReadyFor 32 (said 32 p)
      ∧ (⟨3, 2, 1, 0⟩ : Four Lane).toList.Nodup ∧ ¬(⟨3, 2, 1, 3⟩ : Four Lane).toList.Nodup := by decide
theorem test_set_raster : (next? (exec (.setRaster at0) (given 31 [2]))).map (fun t => (answered t, t.timing.pendingRaster))
    = some (some (.ok, [0, 2]), some .r800x480) := by decide
theorem test_set_timing : (next? (exec (.setTiming at0) (given 32 [1, 3, 3, 2, 1, 0, 64, 0x4E, 0x1F]))).map
    (fun t => ((answered t).map (·.1), t.timing.mode, t.timing.priority, t.timing.syncOffset, t.timing.freeRun))
    = some (some .clamped, .fixed 3, ⟨3, 2, 1, 0⟩, 63, 20000) := by decide
theorem test_set_timing_refuses_a_lane_twice : (next? (exec (.setTiming at0) (given 32 [0, 0, 0, 1, 2, 2, 8, 0x82, 0x35]))).bind
    answered = some (.badArg, []) := by decide

/-! ### Refusals -/

/-- `WrongCommandsAreRefused`: a length none allows, lane 4, and numbers 0 and 36. -/
theorem test_witness_refusals : (Instr.heartbeat at0).commandNumber = some 1 ∧ (given 1 [0]).ReadyFor 1 (said 1 [0])
    ∧ lengthAllowed 1 [0] = false ∧ takesLane 9 = true ∧ (given 9 [4]).ReadyFor 9 (said 9 [4]) ∧ lengthAllowed 9 [4] = true
    ∧ (given 0 []).ReadyFor 0 (said 0 []) ∧ (given 36 []).ReadyFor 36 (said 36 []) := by decide
/-- `WrongCommandsAreRefused`, check 3: a code one beyond its list in the first field, the last and a full form's; 13
anchors, column 20 and a tile named twice; entry 1; mark sets 4 and 254; colour 4 and mode 2; and the fixed lane 4. -/
theorem test_bad_codes_are_refused :
    let window (b : Byte) : List Byte := ((fullWindow.payload 3 5).take 17 ++ [b, 0])
    let marks (b : Byte) : List Byte := 0 :: List.replicate 12 0 ++ [1, 0, 0, 0, 0, 0, 0, b]
    let wrong : List (Nat × (Moment → Instr) × List Byte) :=
      [(6, .readCounters, [2]), (33, .setLaneMode, [0, 0, 2]), (7, .cameraConfig, [0, 1, 2, 5, 0, 3, 32]),
        (16, .loadAnchors, 0 :: 13 :: List.replicate 39 0), (16, .loadAnchors, [0, 1, 20, 0, 0]),
        (16, .loadAnchors, [0, 2, 1, 1, 1, 1, 1, 0]), (20, .loadTone, 0 :: 1 :: List.replicate 64 0),
        (25, .loadWindow, window 4), (25, .loadWindow, window 254), (27, .loadMarks, marks 4), (27, .loadMarks, marks 32),
        (32, .setTiming, [1, 4, 0, 1, 2, 3, 8, 0x82, 0x35])]
    ∀ x ∈ wrong, (x.2.1 at0).commandNumber = some x.1 ∧ (given x.1 x.2.2).ReadyFor x.1 (said x.1 x.2.2)
      ∧ lengthAllowed x.1 x.2.2 = true
      ∧ (next? (exec (x.2.1 at0) (given x.1 x.2.2))).bind answered = some (.badArg, []) := by decide +kernel
theorem test_refusals : (next? (exec (.heartbeat at0) (given 1 [0]))).bind answered = some (.badLength, [])
    ∧ (next? (exec (.cameraRestart at0) (given 9 [4]))).bind answered = some (.badArg, []) := by decide
theorem test_unknown_command : (next? (exec (.unknownCommand at0) (given 36 []))).bind answered = some (.unknown, [])
    ∧ (next? (exec (.unknownCommand at0) (given 0 []))).bind answered = some (.unknown, []) := by decide

/-! ### Commands that move a lane -/

/-- `CameraConfigCompletes`: on and off in SEARCHING and OFF, and the full form in both. -/
theorem test_witness_camera_config :
    ((given 7 [fourByte 0, boolByte true]).ReadyFor 7 (said 7 [0, 1]) ∧ ((given 7 [0, 1]).lane 0).rx.state ≠ .off)
      ∧ ((asked 7 [0, 0] (seen .off)).ReadyFor 7 (said 7 [0, 0]) ∧ ((asked 7 [0, 0] (seen .off)).lane 0).rx.state = .off)
      ∧ ((asked 7 [0, 1] (seen .off)).ReadyFor 7 (said 7 [0, 1]) ∧ ((asked 7 [0, 1] (seen .off)).lane 0).rx.state = .off)
      ∧ ((asked 7 [fourByte 0, boolByte false] busyLane).ReadyFor 7 (said 7 [0, 0])
        ∧ ((asked 7 [0, 0] busyLane).lane 0).rx.state ≠ .off
        ∧ ((asked 7 [0, 0] busyLane).lane 0).store.slotOf .showing = some 1) := by decide
theorem test_witness_camera_config_full : ∀ on : Bool,
    let p : List Byte := [fourByte 0, boolByte on, boolByte true, 1, 0x3F, 3, 0x21]
    ((asked 7 p (seen .off)).ReadyFor 7 (said 7 p) ∧ ((asked 7 p (seen .off)).lane 0).rx.state = .off)
      ∧ ((given 7 p).ReadyFor 7 (said 7 p) ∧ ((given 7 p).lane 0).rx.state ≠ .off) := by decide
/-- R22: 319 x 801 becomes 320 x 800. -/
theorem test_camera_config_full : (next? (exec (.cameraConfig at0) (asked 7 [0, 1, 1, 1, 0x3F, 3, 0x21] (seen .off)))).map
    (fun t => ((t.lane 0).rx.configured, (t.lane 0).rx.geometryMode, (t.lane 0).rx.state))
    = some (⟨320, 800⟩, .fixed, .searching) := by decide
/-- R22, R19: DISABLED from SEARCHING, state 1 to state 0. -/
theorem test_camera_config_off : (next? (exec (.cameraConfig at0) (given 7 [0, 0]))).map
    (fun t => ((t.lane 0).rx.state, t.chan.notices.map (·.data))) = some (.off, [[], [0, 1, 0, 1, 0, 0]]) := by decide

/-- `ChannelRestartCompletes`: a lane that restarts, one in OFF and one in LOCKED_OUT, for both commands. -/
theorem test_witness_channel_restart :
    ((asked 9 [fourByte 0] (seen .locked)).ReadyFor 9 (said 9 [0]) ∧ ((asked 9 [0] (seen .locked)).lane 0).rx.state ≠ .off
        ∧ ((asked 9 [0] (seen .locked)).lane 0).rx.state ≠ .lockedOut)
      ∧ (∀ st ∈ [LaneState.off, .lockedOut], (asked 9 [0] (seen st)).ReadyFor 9 (said 9 [0])
        ∧ ((asked 9 [0] (seen st)).lane 0).rx.state = st)
      ∧ ((asked 10 [0] (seen .lockedOut)).ReadyFor 10 (said 10 [0])
        ∧ ((asked 10 [0] (seen .lockedOut)).lane 0).rx.state = .lockedOut)
      ∧ ((asked 10 [0] (seen .locked)).ReadyFor 10 (said 10 [0])
        ∧ ((asked 10 [0] (seen .locked)).lane 0).rx.state ≠ .lockedOut) := by decide
/-- R19: a lane in SEARCHING restarts without a report, one in FAULTED with cause RECOVERY; R25: one re-armed shows code 8.
-/
theorem test_channel_restart_reports :
    ((State.reset.channelRestart 0 .recovery none).chan.notices = [])
      ∧ (((seen .faulted).channelRestart 0 .recovery none).chan.notices.map (·.data)) = [[0, 4, 1, 6, 0, 0]]
      ∧ (((seen .lockedOut).rearmRestart 0 none).chan.notices.map (·.data)) = [[0, 6, 1, 8, 0, 0]] := by decide
theorem test_camera_restart : (next? (exec (.cameraRestart at0) (asked 9 [0] (seen .locked)))).map
    (fun t => ((t.lane 0).rx.state, t.chan.notices.map (·.data))) = some (.searching, [[], [0, 3, 1, 7, 0, 0]]) := by decide
theorem test_camera_rearm : (next? (exec (.cameraRearm at0) (asked 10 [0] (lane0 fun l =>
    { l with rx := { l.rx with state := .lockedOut, attempts := 4 } })))).map
    (fun t => ((t.lane 0).rx.attempts, t.chan.notices.map (·.data))) = some (0, [[], [0, 6, 1, 8, 0, 4]]) := by decide

/-- `RelayMessagesComplete`, CAMERA_MESSAGE: one byte and 32 bytes, on a lane that holds messages, on one that does not, and
on a full queue. -/
theorem test_witness_camera_message :
    (∀ k ∈ [1, 32], let p : List Byte := fourByte 0 :: List.replicate k 9
      (asked 12 p busyLane).ReadyFor 12 (said 12 p) ∧ 1 ≤ (List.replicate k (9 : Byte)).length
        ∧ (List.replicate k (9 : Byte)).length ≤ 32 ∧ ((asked 12 p busyLane).lane 0).rx.state = .locked
        ∧ ((asked 12 p busyLane).lane 0).rx.mode = .normal ∧ ¬4 ≤ ((asked 12 p busyLane).lane 0).relay.queue.length)
      ∧ ((given 12 [0, 9]).ReadyFor 12 (said 12 [0, 9]) ∧ ((given 12 [0, 9]).lane 0).rx.state = .searching)
      ∧ (let s := asked 12 [0, 9] (busyLane.modRelay 0 fun r => { r with queue := List.replicate 4 ⟨1, [2]⟩ })
        s.ReadyFor 12 (said 12 [0, 9]) ∧ 4 ≤ (s.lane 0).relay.queue.length) := by decide
/-- `RelayMessagesComplete`, RELAY_FLUSH and the progress timer: a message in flight, and none. -/
theorem test_witness_relay_flush :
    ((asked 14 [fourByte 0] busyLane).ReadyFor 14 (said 14 [0])
        ∧ ((asked 14 [0] busyLane).lane 0).relay.inFlight.isSome = true
        ∧ ((asked 14 [0] busyLane).lane 0).relay.queue ≠ [])
      ∧ ((given 14 [0]).ReadyFor 14 (said 14 [0]) ∧ ((given 14 [0]).lane 0).relay.inFlight.isSome = false)
      ∧ (busyLane.resetAsserted = false ∧ (busyLane.lane 0).relay.inFlight = some .sending
        ∧ (busyLane.lane 0).relay.queue = ⟨1, [2]⟩ :: [] ∧ (busyLane.lane 0).relay.progressDue = some 0
        ∧ 0 ≤ max busyLane.now at0.tick) := by decide
theorem test_camera_message : (next? (exec (.cameraMessage at0) (asked 12 [0, 9] busyLane))).map
    (fun t => ((t.lane 0).relay.queue.map (·.bytes), (answered t).map (·.1))) = some ([[2], [9]], some .ok)
    ∧ (next? (exec (.cameraMessage at0) (given 12 [0, 9]))).bind answered = some (.laneDown, []) := by decide
theorem test_relay_flush : (next? (exec (.relayFlush at0) (asked 14 [0] busyLane))).map
    (fun t => ((t.lane 0).relay.abortOwed, t.chan.notices.map (·.data))) = some (2, [[1], [0, 1, 4, 1, 0, 0]]) := by decide
theorem test_progress_timer : (next? (exec (.progressTimerExpiry at0 0) busyLane)).map
    (fun t => ((t.lane 0).relay.inFlight, t.chan.notices.map (·.data))) = some (none, [[0, 1, 0, 1, 0, 0]]) := by decide

/-- The lane in INTERNAL with its pattern SHORT. -/
def internal : State := lane0 fun l => { l with rx := { l.rx with mode := .internal } }

/-- `LaneModeCompletes`: the same mode, with the same pattern and with another, in each mode; an entry to both test modes; a
return in a lane that restarts and in one that does not. -/
theorem test_witness_lane_mode :
    (∀ mode ∈ [LaneMode.normal, .check, .internal], let p : List Byte := [fourByte 0, BitVec.ofNat 8 mode.code, 0]
      (given 33 p).ReadyFor 33 (said 33 p) ∧ ((given 33 p).lane 0).rx.mode = .normal
        ∧ ((given 33 p).lane 0).test.pattern = .short)
      ∧ (∀ mode ∈ [LaneMode.normal, .check, .internal], let p : List Byte := [fourByte 0, BitVec.ofNat 8 mode.code, 1]
        let s := asked 33 p (internal.modRx 0 fun r => { r with mode := mode })
        s.ReadyFor 33 (said 33 p) ∧ (s.lane 0).rx.mode = mode ∧ Pattern.long ≠ (s.lane 0).test.pattern)
      ∧ ((asked 33 [0, 0, 0] internal).ReadyFor 33 (said 33 [0, 0, 0])
        ∧ ((asked 33 [0, 0, 0] internal).lane 0).rx.mode ≠ .normal
        ∧ ((asked 33 [0, 0, 0] internal).lane 0).rx.state = .searching)
      ∧ (let s := asked 33 [0, 0, 0] (internal.modRx 0 fun r => { r with state := .lockedOut })
        s.ReadyFor 33 (said 33 [0, 0, 0]) ∧ (s.lane 0).rx.mode ≠ .normal ∧ (s.lane 0).rx.state = .lockedOut) := by decide
/-- `LaneModeCompletes`: a ring with all four roles, and each of its slots FREE in CHECK and in INTERNAL (R56). -/
theorem test_test_modes_free_the_ring : (busyLane.lane 0).store.ringOk ∧ [1, 2].map (fun mode =>
    (next? (exec (.setLaneMode at0) (asked 33 [0, mode, 0] busyLane))).map fun t => (t.lane 0).store.ring)
    = [some (Four.const none), some (Four.const none)] := by decide +kernel
/-- R171, R172: the entry to CHECK and to INTERNAL leaves nothing of a checker in SYNC. -/
theorem test_entry_resets_the_checker : [1, 2].map (fun mode =>
    (next? (exec (.setLaneMode at0) (asked 33 [0, mode, 0] (lane0 fun l => { l with test := { l.test with
      checker := .sync, inverted := true, seedCount := 9, run := 64, errorCount := 3, window := [true] } })))).map fun t =>
    let k := (t.lane 0).test
    ((k.checker, k.inverted, k.seedCount), (k.run, k.errorCount, k.window)))
    = [some ((.hunt, false, 0), (0, 0, [])), some ((.hunt, false, 0), (0, 0, []))] := by decide +kernel
/-- `LaneModeCompletes`: an injection refused, taken and busy. -/
theorem test_witness_inject_error :
    ((given 34 [fourByte 0]).ReadyFor 34 (said 34 [0]) ∧ ((given 34 [0]).lane 0).rx.mode ≠ .internal)
      ∧ (∀ busy : Bool, let s := asked 34 [0] (internal.modTest 0 fun t => { t with injectPending := busy })
        s.ReadyFor 34 (said 34 [0]) ∧ (s.lane 0).rx.mode = .internal ∧ (s.lane 0).test.injectPending = busy) := by decide
/-- R173: floor(1,333,320 / 808) = 1,650 ticks a line. -/
theorem test_enter_internal : (next? (exec (.setLaneMode at0) (given 33 [0, 2, 1]))).map
    (fun t => (answered t, (t.lane 0).test.genRun, (t.lane 0).test.genShift.length))
    = some (some (.ok, [0]), some ⟨1650, 1650, ⟨1280, 800⟩, 0⟩, 15) := by decide
/-- R172: in INTERNAL another pattern sets its fifteen ones, and the generator goes on. -/
theorem test_other_pattern : (next? (exec (.setLaneMode at0) (asked 33 [0, 2, 1] (internal.modTest 0 fun t =>
    { t with genFrame := 7 })))).map (fun t => ((t.lane 0).test.genShift, (t.lane 0).test.genFrame, (t.lane 0).rx.mode))
    = some (List.replicate 15 true, 7, .internal) := by decide
theorem test_inject_error : (next? (exec (.injectError at0) (asked 34 [0] internal))).map
    (fun t => (t.lane 0).test.injectPending) = some true
    ∧ (next? (exec (.injectError at0) (given 34 [0]))).bind answered = some (.wrongState, []) := by decide

/-! ### The lens purge -/

/-- Lane 0 LOCKED in NORMAL with its purge in this state, every timer due at tick 0, and a soiled count of 11 (section
6.6). -/
def purging (st : PurgeState) (consecutive : Nat) : State := lane0 fun l =>
  { l with
    rx := receiving .locked
    purge := { l.purge with
      state := st, consecutive := consecutive, lastSoiled := some 11, pulseDue := some 0, settleDue := some 0
      cooldownDue := some 0 } }

/-- `PurgeCompletes`, its commands: each purge state for both commands. -/
theorem test_witness_purge_commands : ∀ st ∈ [PurgeState.idle, .pulse, .settle, .cooldown, .halted],
    (asked 23 [fourByte 0] (purging st 1)).ReadyFor 23 (said 23 [fourByte 0])
      ∧ (asked 24 [fourByte 0] (purging st 1)).ReadyFor 24 (said 24 [fourByte 0])
      ∧ ((asked 23 [0] (purging st 1)).lane 0).purge.state = st := by decide
theorem test_purge_now : (next? (exec (.purgeNow at0) (given 23 [0]))).map
    (fun t => ((t.lane 0).purge.pulseDue, t.chan.notices.map (·.data), t.purgeLine 0))
    = some (some 12000000, [[], [0, 0, 2, 0, 0xFF, 0xFF, 0x21]], true) := by decide
theorem test_purge_rearm : (next? (exec (.purgeRearm at0) (asked 24 [0] (purging .halted 3)))).map
    (fun t => ((t.lane 0).purge.state, (t.lane 0).purge.consecutive)) = some (.idle, 0) := by decide

/-- `PurgeCompletes`, its timers: PULSE and SETTLE with their timer due, and the ends of the rest: a return to HALTED, the limit
of 3, another blow below it, IDLE below Nsoil, and IDLE with auto purge off. -/
theorem test_witness_purge_timers :
    ((purging .pulse 1).resetAsserted = false ∧ ((purging .pulse 1).lane 0).purge.state = .pulse
        ∧ ((purging .pulse 1).lane 0).purge.pulseDue = some 0)
      ∧ (((purging .settle 1).lane 0).purge.state = .settle ∧ ((purging .settle 1).lane 0).purge.settleDue = some 0)
      ∧ (∀ k ∈ [2, 3], let l := (purging .cooldown k).lane 0
        l.purge.state = .cooldown ∧ l.purge.cooldownDue = some 0 ∧ l.purge.returnHalted = false
          ∧ l.purge.lastSoiled = some 11 ∧ l.purge.settings.nsoil ≤ 11 ∧ l.purge.consecutive = k
          ∧ l.purge.settings.kmax = 3 ∧ l.purge.settings.auto = true ∧ l.rx.state = .locked ∧ l.rx.mode = .normal)
      ∧ (∀ returns : Bool, let l := ((purging .cooldown 0).modPurge 0 fun p =>
          { p with returnHalted := returns, lastSoiled := some 9 }).lane 0
        l.purge.state = .cooldown ∧ l.purge.cooldownDue = some 0 ∧ l.purge.returnHalted = returns
          ∧ ¬l.purge.settings.nsoil ≤ 9)
      ∧ (let l := ((purging .cooldown 2).modPurge 0 fun p => { p with settings := { p.settings with auto := false } }).lane 0
        l.purge.state = .cooldown ∧ l.purge.returnHalted = false ∧ l.purge.consecutive < l.purge.settings.kmax
          ∧ l.purge.settings.auto = false) := by decide
theorem test_pulse_timer : (next? (exec (.pulseTimerExpiry at0 0) (purging .pulse 1))).map
    (fun t => ((t.lane 0).purge.state, (t.lane 0).purge.settleDue)) = some (.settle, some 20000000) := by decide
theorem test_settle_timer : (next? (exec (.settleTimerExpiry at0 0) (purging .settle 1))).map
    (fun t => ((t.lane 0).purge.state, (t.lane 0).purge.cooldownDue)) = some (.cooldown, some 1200000000) := by decide
/-- Section 6.6's last expiry: HALTED, count 3, soiled 11, LENS_SOILED of lane 0. -/
theorem test_cooldown_halts : (next? (exec (.cooldownTimerExpiry at0 0) (purging .cooldown 3))).map
    (fun t => ((t.lane 0).purge.state, t.chan.flags, t.chan.notices.map (·.data)))
    = some (.halted, 0x000100, [[0, 1, 0, 3, 0, 11, 0]]) := by decide
theorem test_cooldown_blows_again : (next? (exec (.cooldownTimerExpiry at0 0) (purging .cooldown 2))).map
    (fun t => ((t.lane 0).purge.state, t.chan.notices.map (·.data))) = some (.pulse, [[0, 0, 1, 3, 0, 11, 0]]) := by decide
/-- R109: PURGEn after the pulse timer, and after a rest that ends in another blow, in HALTED and in IDLE. -/
theorem test_purge_line :
    let line (i : Instr) (s : State) := (next? (exec i s)).map (·.purgeLine 0)
    (purging .pulse 1).purgeLine 0 = true ∧ line (.pulseTimerExpiry at0 0) (purging .pulse 1) = some false
      ∧ [2, 3].map (fun k => line (.cooldownTimerExpiry at0 0) (purging .cooldown k)) = [some true, some false]
      ∧ line (.purgeNow at0) (asked 23 [0] (purging .pulse 1)) = some true := by decide

/-! ### Packets and the lanes -/

/-- Section 11.2: a FRAME_START of frame 6, 640 x 480, byte by byte before its check. -/
theorem test_packet_fields : parsePacket (withCrc [0x16, 0x02, 0x80, 0x01, 0xE0, 0x5A, 0xF0])
    = some ⟨.frameStart, 6, 640, 480, ⟨true, 0x5A, true, true, true⟩, [], true⟩ := by decide +kernel
/-- R180: a FRAME_START of 10 bytes, and LINEs of 9 and of 10, have bad headers. -/
theorem test_packets_of_wrong_length :
    [header 1 6 640 480 ++ [0], header 2 6 0 0, header 2 6 0 0 ++ [0]].map parsePacket = [none, none, none] := by
  decide +kernel
/-- `PacketsAreParsed`: the greatest values, a payload check that differs, a kind outside 1 to 3, 8 bytes, payloads of one
byte and of none, and a header check that differs. -/
theorem test_witness_packets : (15 : Nat) < 16 ∧ (65535 : Nat) < 65536 ∧ [0, 0] ≠ crcBytes [16, 128]
    ∧ ([1, 2, 3, 4, 5, 6, 7, 8] : List Byte).length < 9 ∧ ([0] : List Byte) ≠ [] ∧ ([0] : List Byte).length < 2
    ∧ ([] : List Byte).length < 2
    ∧ crcBytes (([0, 0, 0, 0, 0, 0, 0, 0, 0] : List Byte).take 7) ≠ (([0, 0, 0, 0, 0, 0, 0, 0, 0] : List Byte).drop 7).take 2
    := by decide +kernel

/-- `PacketsThatOpenNothing`: OFF, INTERNAL, the three states without frames, and a LINE and a bad header in SEARCHING. -/
theorem test_witness_packets_open_nothing :
    ((seen .off).resetAsserted = false ∧ ((seen .off).lane 0).rx.state = .off) ∧ (internal.lane 0).rx.mode = .internal
      ∧ (∀ st ∈ [LaneState.faulted, .silent, .lockedOut], ((seen st).lane 0).rx.mode ≠ .internal
        ∧ ((seen st).lane 0).rx.state = st)
      ∧ ((State.reset.lane 0).rx.mode ≠ .internal ∧ (State.reset.lane 0).rx.state = .searching
        ∧ (parsePacket (lineOf 5 0)).map (·.kind) = some .line ∧ parsePacket [1, 2] = none) := by decide +kernel
theorem test_packet_in_silent : (next? (exec (.cameraPacket at0 0 [1, 2]) (seen .silent))).map
    (fun t => ((t.lane 0).rx.counters.packetsReceived, (t.lane 0).rx.counters.headerErrors, (t.lane 0).relay.abortOwed))
    = some (1, 1, 1) := by decide +kernel

/-- `SearchingTakesAFrameStart`: a store that is not ready; CHECK, which does not wait for it; and with a ready store the
least and the greatest geometry, one below the least, and one that is not the configured one in FIXED. -/
theorem test_witness_frame_start :
    (∀ g ∈ [(320, 256), (1280, 800), (256, 256)], parsePacket (header 1 6 g.1 g.2)
      = some ⟨.frameStart, 6, g.1, g.2, ⟨false, 0, false, false, false⟩, [], true⟩)
      ∧ (∀ s ∈ [State.reset, underLoad 0], s.resetAsserted = false ∧ (s.lane 1).rx.state = .searching
        ∧ (s.lane 1).rx.mode ≠ .internal ∧ (s.lane 1).relay.queue = [] ∧ (s.lane 1).rx.mode = .normal
        ∧ (s.lane 1).rx.geometryMode = .auto ∧ (s.lane 1).rx.openFrame = none ∧ (s.lane 1).rx.expectedFrame = none)
      ∧ State.reset.arb.storeReady = false ∧ (underLoad 0).arb.storeReady = true
      ∧ (∀ s ∈ [State.reset.modRx 1 fun r => { r with mode := .check, geometryMode := .fixed }],
        s.resetAsserted = false ∧ (s.lane 1).rx.state = .searching ∧ (s.lane 1).rx.mode = .check
          ∧ (s.lane 1).relay.queue = [] ∧ (s.lane 1).rx.configured = ⟨1280, 800⟩) := by decide +kernel
/-- Section 1.9's first row: ACQUIRING, frame 6 open, frame 7 and line 0 expected; 100 ms of silence allowed. -/
theorem test_acquisition : (next? (exec (.cameraPacket at0 1 (header 1 6 640 480)) (underLoad 0))).map
    (fun t => ((t.lane 1).rx.state, (t.lane 1).rx.openFrame, (t.lane 1).rx.expectedFrame, (t.lane 1).rx.silenceDue))
    = some (.acquiring, some ⟨6, .acquiring⟩, some 7, some 4000000) := by decide +kernel
/-- `SearchingTakesAFrameStart`, the store: a FREE slot, a commit pending, and no FREE slot. R47: slot 1 is FILLING, the
opening is deferred, and the frame has no slot; R88: its statistics set has 10 x 15 tiles. -/
theorem test_opening_from_searching :
    let other := slotIn .ready
    let with_ (ring : Four (Option HeldSlot)) (p : Option PendingCommit) : State := (underLoad 0).modStore 1 fun l =>
      { l with ring := ring, pendingCommit := p }
    let after (s : State) := (next? (exec (.cameraPacket at0 1 (header 1 6 640 480)) s)).map fun t => (t.lane 1).store.opening
    [with_ ⟨other, none, none, other⟩ none, with_ ⟨other, none, none, none⟩ (some ⟨0, 0, 4, .locked⟩),
        with_ ⟨other, other, other, other⟩ none].map after
      = [some (.stored 1), some (.deferred 6 ⟨640, 480⟩ []), some .unstored]
      ∧ (next? (exec (.cameraPacket at0 1 (header 1 6 640 480)) (underLoad 0))).map (fun t =>
        ((t.lane 1).dust.gathering.map fun k => (k.number, k.valid.length, k.luma.length), (t.lane 1).relay.abortOwed))
        = some (some (6, 15, 150), 1) := by decide +kernel

/-- `FrameStartsWhileReceiving`: another geometry; the frame expected and another; with a frame open and with none; NORMAL
and CHECK; a write of the lane on the port. -/
theorem test_witness_frame_start_while_receiving :
    (∀ q ∈ [(6, 2), (6, 1), (7, 1)], parsePacket (header 1 q.1 q.2 4)
      = some ⟨.frameStart, q.1, q.2, 4, ⟨false, 0, false, false, false⟩, [], true⟩)
      ∧ (∀ st ∈ [LaneState.acquiring, .locked], ∀ mode ∈ [LaneMode.normal, .check], ∀ f ∈ [none, some (⟨5, .locked⟩ : OpenFrame)],
        let s := (underLoad 1).serve.modRx 0 fun _ => { receiving st with mode := mode, openFrame := f, health := 30 }
        s.resetAsserted = false ∧ (s.lane 0).rx.state = st ∧ (s.lane 0).rx.mode = mode ∧ mode ≠ .internal
          ∧ (s.lane 0).rx.acquisition = some ⟨1, 4⟩ ∧ (s.lane 0).rx.health + 1 < 32
          ∧ s.arb.port = some ⟨.write 0 0 0 0 [1, 2], 5, true⟩) := by decide +kernel
/-- `FrameStartsWhileReceiving`: without a fault at a health count of 31, with the frame expected and with none expected. -/
theorem test_witness_clean_frame_start : ∀ e ∈ [none, some 6], ∀ st ∈ [LaneState.acquiring, .locked],
    let s := (seen st).modRx 0 fun r => { r with openFrame := none, expectedFrame := e, health := 31 }
    let q : Packet := ⟨.frameStart, 6, 1, 4, ⟨false, 0, false, false, false⟩, [], true⟩
    s.resetAsserted = false ∧ (s.lane 0).rx.state = st ∧ (s.lane 0).rx.mode ≠ .internal
      ∧ parsePacket (header 1 6 1 4) = some q ∧ q.kind = .frameStart ∧ (s.lane 0).rx.acquisition = some ⟨q.word1, q.word3⟩
      ∧ (s.lane 0).rx.openFrame = none ∧ (∀ k ∈ (s.lane 0).rx.expectedFrame, k = q.number)
      ∧ ¬(s.lane 0).rx.health + 1 < 32 := by decide +kernel
/-- R13, R6: it opens the frame and leaves the health count at 31. -/
theorem test_clean_frame_start : (next? (exec (.cameraPacket at0 0 (header 1 6 1 4)) ((seen .locked).modRx 0 fun r =>
    { r with openFrame := none, health := 31 }))).map
    (fun t => ((t.lane 0).rx.openFrame, (t.lane 0).rx.health, (t.lane 0).rx.state)) = some (some ⟨6, .locked⟩, 31, .locked) := by
  decide +kernel
/-- R51, R6, R13: the open frame is discarded with its line, its slot is the new frame's; one fault. -/
theorem test_overtaken_frame :
    (next? (exec (.cameraPacket at0 0 (header 1 6 1 4)) ((underLoad 1).modRx 0 fun _ => receiving .locked))).map
    (fun t => ((t.lane 0).store, (t.lane 0).rx.counters.framesDiscarded, (t.lane 0).rx.health, (t.lane 0).rx.openFrame))
    = some (⟨⟨some ⟨.filling, ⟨6, ⟨1, 4⟩, [], none⟩⟩, none, none, none⟩, [], none, .stored 0⟩, 1, 1, some ⟨6, .locked⟩) := by
  decide +kernel
/-- R6: another geometry opens nothing. -/
theorem test_frame_start_of_another_geometry :
    (next? (exec (.cameraPacket at0 0 (header 1 6 2 4)) (seen .locked))).map
    (fun t => ((t.lane 0).rx.openFrame, (t.lane 0).rx.counters.geometryErrors)) = some (some ⟨5, .acquiring⟩, 1) := by
  decide +kernel

/-- `LinesOutOfSequenceAreFaulty`: another frame number, line H, one below the expected line, and no open frame. -/
theorem test_witness_lines_out_of_sequence : ∀ st ∈ [LaneState.acquiring, .locked],
    let s := (seen st).modRx 0 fun r => { r with expectedLine := 1, health := 30 }
    let none_ := s.modRx 0 fun r => { r with openFrame := none }
    (s.resetAsserted = false ∧ (s.lane 0).rx.state = st ∧ (s.lane 0).rx.mode ≠ .internal
        ∧ (s.lane 0).rx.acquisition = some ⟨1, 4⟩ ∧ (s.lane 0).rx.health + 1 < 32)
      ∧ (parsePacket (lineOf 4 1) = some (lineParsed 4 1) ∧ (s.lane 0).rx.openFrame = some ⟨5, .acquiring⟩ ∧ 5 ≠ 4)
      ∧ (parsePacket (lineOf 5 4) = some (lineParsed 5 4) ∧ 4 ≤ (lineParsed 5 4).word1)
      ∧ (parsePacket (lineOf 5 0) = some (lineParsed 5 0) ∧ (lineParsed 5 0).word1 < (s.lane 0).rx.expectedLine)
      ∧ ((none_.lane 0).rx.openFrame = none ∧ (none_.lane 0).rx.acquisition = some ⟨1, 4⟩) := by decide +kernel
theorem test_line_of_another_frame : (next? (exec (.cameraPacket at0 0 (lineOf 4 0)) (seen .locked))).map
    (fun t => ((t.lane 0).rx.counters.frameNumberErrors, (t.lane 0).rx.health, (t.lane 0).rx.expectedLine))
    = some (1, 1, 0) := by decide +kernel

/-- `CleanLineIsTaken`: the first and the last line of the frame, in NORMAL and in CHECK. -/
theorem test_witness_clean_line : ∀ mode ∈ [LaneMode.normal, .check], ∀ line ∈ [0, 3],
    let s := (seen .locked).modRx 0 fun r => { r with mode := mode, expectedLine := line }
    let q := lineParsed 5 line
    s.resetAsserted = false ∧ (s.lane 0).rx.state = .locked ∧ (s.lane 0).rx.mode = mode ∧ mode ≠ .internal
      ∧ parsePacket (lineOf 5 line) = some q ∧ q.kind = .line ∧ (s.lane 0).rx.acquisition = some ⟨1, 4⟩
      ∧ q.payloadOk = true ∧ q.payload.length = 2 * 1 ∧ (s.lane 0).rx.openFrame = some ⟨5, .acquiring⟩ ∧ q.number = 5
      ∧ q.word1 = (s.lane 0).rx.expectedLine ∧ q.word1 < 4 ∧ (s.lane 0).store.buffer.length < 2
      ∧ ((s.lane 0).rx.measurePeriod q.word1 9).outOfTolerance = false ∧ s.timing.master = none
      ∧ (s.lane 0).store.opening ≠ .unstored := by decide +kernel
theorem test_clean_line : (next? (exec (.cameraPacket ⟨9, false⟩ 0 (lineOf 5 0)) (seen .locked))).map
    (fun t => ((t.lane 0).rx.expectedLine, (t.lane 0).rx.mark, (t.lane 0).store.buffer))
    = some (1, some ⟨0, 9⟩, [⟨.current, 0, [16, 128], 0⟩]) := by decide +kernel
/-- R87: line 33 of a frame of 128 x 64, luma rising by 1 in the first tile and by 2 in the second, adds to tile row 1 the
sums 2,016 and 4,224 and the differences 63 and 126. -/
theorem test_line_joins_the_statistics :
    let payload : List Byte := (List.range 64).flatMap (fun x => [BitVec.ofNat 8 x, 128])
      ++ (List.range 64).flatMap fun x => [BitVec.ofNat 8 (2 * x + 3), 128]
    StatSet.addLine 33 payload ⟨5, ⟨128, 64⟩, [32, 0], [1, 2, 3, 4], [5, 6, 7, 8]⟩
      = ⟨5, ⟨128, 64⟩, [32, 1], [1, 2, 2019, 4228], [5, 6, 70, 134]⟩ := by decide +kernel

/-- Lane 0 expecting line 1 of the frame in slot 0, with so many lines in the write buffer. -/
def hurting (mode : LaneMode) (buffered : Nat) : State := lane0 fun l =>
  { l with
    rx := { receiving .locked with
      mode := mode, health := 30, expectedLine := 1, damagedCount := 31, average := some 32080, periods := 16 }
    store := { l.store with
      ring := ⟨slotIn .filling, none, none, none⟩, opening := .stored 0
      buffer := List.replicate buffered ⟨.current, 0, [1, 2], 0⟩ } }

/-- `FaultyLinesAreTaken`: the last line, two ahead of the expected one; a payload check that differs; a full write buffer,
in NORMAL alone; a period of 0 against an average of 2,005. -/
theorem test_witness_faulty_lines :
    (∀ mode ∈ [LaneMode.normal, .check], ∀ k ∈ [0, 2], let s := hurting mode k
      s.resetAsserted = false ∧ (s.lane 0).rx.state = .locked ∧ (s.lane 0).rx.mode = mode ∧ mode ≠ .internal
        ∧ (s.lane 0).rx.acquisition = some ⟨1, 4⟩ ∧ (s.lane 0).rx.openFrame = some ⟨5, .acquiring⟩
        ∧ (s.lane 0).rx.health + 1 < 32 ∧ s.timing.master = none ∧ (s.lane 0).store.buffer.length = k)
      ∧ (parsePacket (lineOf 5 3) = some (lineParsed 5 3) ∧ 0 < 3 - 1 ∧ 3 < 4)
      ∧ parsePacket (header 2 5 1 0 ++ [16, 128, 0, 0]) = some { lineParsed 5 1 with payloadOk := false }
      ∧ parsePacket (lineOf 5 1) = some (lineParsed 5 1)
      ∧ ({ ((hurting .normal 0).lane 0).rx with mark := some ⟨0, 0⟩ }.measurePeriod 1 0).outOfTolerance = true := by
  decide +kernel
/-- R46: with 31 damaged lines the first that is passed over is the last entered; all three count. -/
theorem test_damaged_lines_entered :
    (next? (exec (.cameraPacket at0 0 (header 2 5 3 0 ++ [16, 128, 0, 0])) (hurting .normal 0))).map
    (fun t => (((t.lane 0).store.ring.get 0).map (·.record.damaged), (t.lane 0).rx.damagedCount, (t.lane 0).rx.health))
    = some (some [1], 34, 31) := by decide +kernel

/-- `CleanLineIsTaken`, the line period: no mark, the same line, another line; the line below with no average, with 15
periods, and with 16 on both sides of the tolerance (R12's worked bounds of 32,080). -/
theorem test_witness_line_period :
    let rx (avg : Option Nat) (periods : Nat) : Receiver :=
      { Receiver.reset with mark := some ⟨16, 0⟩, average := avg, periods := periods }
    Receiver.reset.mark = none ∧ (rx none 0).mark = some ⟨16, 0⟩ ∧ 16 + 1 = 17 ∧ 16 + 1 ≠ 18 ∧ (rx none 0).average = none
      ∧ (rx (some 32080) 15).periods < 16 ∧ 16 ≤ (rx (some 32080) 16).periods
      ∧ (16 * ((min 16777215 (1943 - 0) : Nat) : Int) - 32080).natAbs ≤ 32080 / 32
      ∧ 32080 / 32 < (16 * ((min 16777215 (1942 - 0) : Nat) : Int) - 32080).natAbs := by decide

/-- The frame is complete. -/
def complete (st : LaneState) (clean : Nat) : State :=
  lane0 fun l => { l with rx := { receiving st with expectedLine := 4, cleanFrames := clean } }

/-- `FrameEndClosesTheFrame`: in ACQUIRING clean after a clean frame, clean after none, and not clean; in LOCKED with Dmax
damaged lines and with one more; a line missing at a health count of 30, and none at 31; another number, and no frame. -/
theorem test_witness_frame_end :
    let q : Packet := ⟨.frameEnd, 5, 0, 0, ⟨false, 0, false, false, false⟩, [], true⟩
    let with_ (st : LaneState) (f : Receiver → Receiver) := (complete st 0).modRx 0 f
    parsePacket (header 3 5 0 0) = some q
      ∧ (∀ s ∈ [complete .acquiring 1, complete .acquiring 0, with_ .acquiring fun r => { r with damagedCount := 1 },
          with_ .locked fun r => { r with damagedCount := 4 },
          with_ .locked fun r => { r with damagedCount := 5, lockedRun := 299 },
          with_ .locked fun r => { r with expectedLine := 3, health := 30 },
          with_ .locked fun r => { r with health := 31 }],
        s.resetAsserted = false ∧ (s.lane 0).rx.mode ≠ .internal ∧ (s.lane 0).rx.acquisition = some ⟨1, 4⟩
          ∧ (s.lane 0).rx.openFrame = some ⟨5, .acquiring⟩ ∧ q.number = 5 ∧ (∀ j ∈ s.jobs.head?, j.run.isSome = true)
          ∧ ((s.lane 0).rx.health + 1 < 32 ∨ 4 - (s.lane 0).rx.expectedLine = 0)
          ∧ ((s.lane 0).rx.state = .acquiring ∧ (s.lane 0).rx.cleanFrames ≤ 1
            ∨ (s.lane 0).rx.state = .locked ∧ (s.lane 0).rx.dmax = 4))
      ∧ (∀ f ∈ [none, some (⟨4, .locked⟩ : OpenFrame)], let s := with_ .locked fun r => { r with openFrame := f, health := 30 }
        s.resetAsserted = false ∧ (s.lane 0).rx.state = .locked ∧ (s.lane 0).rx.acquisition = some ⟨1, 4⟩
          ∧ (∀ g ∈ f, g.number ≠ q.number) ∧ (s.lane 0).rx.health + 1 < 32) := by decide +kernel
/-- `FrameEndClosesTheFrame`: a lock with a geometry change on a lane that shows a frame. -/
theorem test_witness_lock_release :
    let s := (complete .acquiring 1).modLane 0 fun l => { l with
      store := { l.store with ring := ⟨slotIn .ready, slotIn .showing, none, none⟩ } }
    (s.lane 0).store.slotOf .ready = some 0 ∧ (s.lane 0).store.slotOf .showing = some 1 ∧ ⟨1, 4⟩ ≠ (s.lane 0).rx.geometry := by
  decide
/-- R10, R13: the FRAME_END of another frame closes nothing and is one fault. -/
theorem test_frame_end_of_another_frame :
    (next? (exec (.cameraPacket at0 0 (header 3 4 0 0)) (complete .locked 0))).map
    (fun t => ((t.lane 0).rx.openFrame, (t.lane 0).rx.counters.frameNumberErrors, (t.lane 0).rx.health))
    = some (some ⟨5, .acquiring⟩, 1, 1) := by decide +kernel
/-- Section 1.9: the second clean frame locks, and the lane geometry becomes that of acquisition. -/
theorem test_lock : (next? (exec (.cameraPacket at0 0 (header 3 5 0 0)) (complete .acquiring 1))).map
    (fun t => ((t.lane 0).rx.state, (t.lane 0).rx.geometry, (t.lane 0).rx.counters.locks, t.chan.notices.map (·.data)))
    = some (.locked, ⟨1, 4⟩, 1, [[0, 2, 3, 3, 0, 0]]) := by decide +kernel

/-- `LanesGoDown`, its timers: the silence timer at 0 and at 3 attempts, the recovery timer in FAULTED and SILENT. -/
theorem test_witness_lane_timers :
    (∀ k ∈ [0, 3], let s := (seen .acquiring).modRx 0 fun r => { r with attempts := k }
      s.resetAsserted = false ∧ 0 ≤ max s.now at0.tick ∧ (s.lane 0).rx.state = .acquiring
        ∧ (s.lane 0).rx.silenceDue = some 0 ∧ (s.lane 0).rx.attempts ≤ 3)
      ∧ (∀ st ∈ [LaneState.faulted, .silent], let s := (seen st).modRx 0 fun r => { r with recoveryDue := some 0 }
        s.resetAsserted = false ∧ (s.lane 0).rx.state = st ∧ (s.lane 0).rx.recoveryDue = some 0) := by decide
/-- R16, R19: SILENT, one attempt, recovery 500 ms later, LANE_FAULT of lane 0. -/
theorem test_silence_timer : (next? (exec (.silenceTimerExpiry at0 0) (seen .locked))).map
    (fun t => ((t.lane 0).rx.state, (t.lane 0).rx.recoveryDue, t.chan.flags, t.chan.notices.map (·.data)))
    = some (.silent, some 20000000, 1, [[0, 3, 5, 5, 0, 1]]) := by decide
/-- R164: the fourth attempt asserts FAULT, the third does not; CAMERA_REARM and a disable deassert it. -/
theorem test_fault_line_of_a_lane :
    let out := (seen .lockedOut).modRx 0 fun r => { r with attempts := 4 }
    [2, 3].map (fun k => (next? (exec (.silenceTimerExpiry at0 0)
      ((seen .locked).modRx 0 fun r => { r with attempts := k }))).map State.faultLine) = [some false, some true]
      ∧ out.faultLine = true
      ∧ (next? (exec (.cameraRearm at0) (asked 10 [0] out))).map State.faultLine = some false
      ∧ (next? (exec (.cameraConfig at0) (asked 7 [0, 0] out))).map State.faultLine = some false := by decide +kernel
theorem test_recovery_timer : (next? (exec (.recoveryTimerExpiry at0 0) (lane0 fun l =>
    { l with rx := { l.rx with state := .faulted, health := 32, recoveryDue := some 0 } }))).map
    (fun t => ((t.lane 0).rx.state, (t.lane 0).rx.health, t.chan.notices.map (·.data)))
    = some (.searching, 0, [[0, 4, 1, 6, 32, 0]]) := by decide

/-- `LanesGoDown`, a bad header: health counts of 0, 30 and 31. -/
theorem test_witness_bad_header : parsePacket [1, 2] = none ∧ ∀ k ∈ [0, 30, 31],
    let s := (seen .locked).modRx 0 fun r => { r with health := k }
    s.resetAsserted = false ∧ (s.lane 0).rx.state = .locked ∧ (s.lane 0).rx.mode ≠ .internal
      ∧ (s.lane 0).rx.attempts ≤ 3 ∧ (k < 31 ∨ (s.lane 0).rx.health = 31) := by decide +kernel
theorem test_thirty_second_fault : (next? (exec (.cameraPacket at0 0 [1, 2]) (lane0 fun l =>
    { l with rx := { receiving .locked with health := 31 } }))).map
    (fun t => ((t.lane 0).rx.state, (t.lane 0).rx.health, t.chan.flags)) = some (.faulted, 32, 1) := by decide +kernel
/-- R13, R16, R19, R21: the third down entry is a fault, the fourth a lockout too, with flags 0 and 4. -/
theorem test_down_entries : [2, 3].map (fun k =>
    let t := ((seen .locked).modRx 0 fun r => { r with attempts := k, health := 32 }).downEntry 0 .health
    (((t.lane 0).rx.counters.faults, (t.lane 0).rx.counters.lockouts), t.chan.flags, t.chan.notices.map (·.data)))
    = [((1, 0), 1, [[0, 3, 4, 4, 32, 3]]), ((1, 1), 0x11, [[0, 3, 6, 4, 32, 4]])] := by decide

/-- Lane 0 at a health count of 31, expecting line 1 of frame 5 in slot 0. -/
def failing (mode : LaneMode) (buffered : Nat) : State := (hurting mode buffered).modRx 0 fun r => { r with health := 31 }

/-- `ThirtySecondFaultGoesDown`: in NORMAL and in CHECK, with no frame open and with one; a FRAME_START of another geometry,
of the frame expected and of another; a LINE of another frame, at line H, below the expected line, ahead of it, and at it
with a check that differs, with a full write buffer and with a period of 0; and a FRAME_END of another frame, and one with
lines missing. -/
theorem test_witness_thirty_second_fault :
    (∀ mode ∈ [LaneMode.normal, .check], ∀ f ∈ [none, some (⟨5, .acquiring⟩ : OpenFrame)], ∀ k ∈ [0, 2],
      let s := (failing mode k).modRx 0 fun r => { r with openFrame := f }
      s.resetAsserted = false ∧ (s.lane 0).rx.state = .locked ∧ (s.lane 0).rx.mode = mode ∧ mode ≠ .internal
        ∧ (s.lane 0).rx.acquisition = some ⟨1, 4⟩ ∧ (s.lane 0).rx.health = 31 ∧ (s.lane 0).rx.openFrame = f
        ∧ (s.lane 0).rx.expectedFrame = some 6 ∧ (s.lane 0).rx.expectedLine = 1 ∧ (s.lane 0).store.buffer.length = k)
      ∧ (∀ q ∈ [(6, 2), (6, 1), (7, 1)], parsePacket (header 1 q.1 q.2 4)
        = some ⟨.frameStart, q.1, q.2, 4, ⟨false, 0, false, false, false⟩, [], true⟩)
      ∧ (∀ q ∈ [(4, 1), (5, 4), (5, 0), (5, 3), (5, 1)], parsePacket (lineOf q.1 q.2) = some (lineParsed q.1 q.2))
      ∧ parsePacket (header 2 5 1 0 ++ [16, 128, 0, 0]) = some { lineParsed 5 1 with payloadOk := false }
      ∧ ({ ((failing .normal 0).lane 0).rx with mark := some ⟨0, 0⟩ }.measurePeriod 1 0).outOfTolerance = true
      ∧ (∀ k ∈ [4, 5], parsePacket (header 3 k 0 0)
        = some ⟨.frameEnd, k, 0, 0, ⟨false, 0, false, false, false⟩, [], true⟩) := by decide +kernel
/-- Log 11: lines 1 and 2 count as damaged, the first is entered, and line 3 is not stored; R6: both faults are counted. -/
theorem test_thirty_second_fault_by_line : (next? (exec (.cameraPacket at0 0 (lineOf 5 3)) (failing .normal 0))).map
    (fun t => ((t.lane 0).rx.state, (t.lane 0).rx.damagedCount, (t.lane 0).rx.counters.damagedLines,
      (t.lane 0).rx.counters.sequenceErrors, (t.lane 0).store.buffer)) = some (.faulted, 33, 2, 1, []) := by decide +kernel
theorem test_thirty_second_fault_by_frame_start :
    (next? (exec (.cameraPacket at0 0 (header 1 7 1 4)) (failing .normal 0))).map
    (fun t => ((t.lane 0).rx.state, (t.lane 0).rx.openFrame, (t.lane 0).rx.counters.framesDiscarded,
      (t.lane 0).rx.counters.sequenceErrors, (t.lane 0).rx.counters.frameNumberErrors))
    = some (.faulted, none, 1, 1, 1) := by decide +kernel

/-! ### Relay and link test -/

/-- `EveryPacketIsAnswered`: two abort words owed, a message being sent, and none in flight. -/
theorem test_witness_relay_words :
    let sending := ({ Relay.reset with abortOwed := 0 }).append 0 ⟨0x21, [1, 2]⟩
    0 < ({ Relay.reset with candidate := none } : Relay).abortOwed
      ∧ (sending.abortOwed = 0 ∧ sending.inFlight = some .sending ∧ sending.queue = ⟨0x21, [1, 2]⟩ :: [])
      ∧ (({ Relay.reset with abortOwed := 0 } : Relay).abortOwed = 0
        ∧ ({ Relay.reset with abortOwed := 0 } : Relay).inFlight ≠ some .sending) := by decide
/-- `EveryPacketIsAnswered`, the last owed word with a message waiting. R30: it goes in flight from its first byte, with
the progress timer 50 ms on. -/
theorem test_last_abort_word :
    let r : Relay := { Relay.reset with queue := [⟨0x21, [1, 2]⟩], abortOwed := 1, byteIndex := 1, taken := 1, reply := [9] }
    let t := (r.takePacket 0 7 none).1
    (r.abortOwed = 1 ∧ r.queue ≠ [] ∧ r.inFlight = none)
      ∧ (t.abortOwed, t.inFlight, t.byteIndex, t.taken, t.progressDue) = (0, some .sending, 0, 0, some 2000007)
      ∧ t.reply = [] ∧ t.offered = false ∧ t.forwardWord = some (withCrc [0, 0x20]) := by decide +kernel
/-- A message of two bytes in flight, with another behind it or none. -/
def carrying (rest : List RelayMessage) : Relay :=
  { ({ Relay.reset with abortOwed := 0 }).append 0 ⟨0x21, [1, 2]⟩ with queue := ⟨0x21, [1, 2]⟩ :: rest, doubleLook := false }

/-- `HeadersMoveTheMessage` in SENDING: a byte before the last and the last, with a reply byte that is new in the same header
and with none, and a byte not yet offered or not yet acknowledged. -/
theorem test_witness_relay_sending : ∀ rest ∈ [[], [(⟨0x22, [3]⟩ : RelayMessage)]],
    let f : RelayFields := ⟨true, 7, false, false, false⟩
    let r := { carrying rest with offered := true }
    r.queue = ⟨0x21, [1, 2]⟩ :: rest ∧ r.abortOwed = 0 ∧ f.abort = false ∧ r.inFlight = some .sending ∧ r.offered = true
      ∧ f.ack = r.sendToggle ∧ r.byteIndex + 1 < 2 ∧ ({ r with byteIndex := 1 } : Relay).byteIndex + 1 = 2
      ∧ f.replyToggle = r.acceptedToggle ∧ ({ f with replyToggle := true } : RelayFields).replyToggle ≠ r.acceptedToggle
      ∧ (carrying rest).offered = false ∧ ({ f with ack := false } : RelayFields).ack ≠ r.sendToggle := by decide
/-- `HeadersMoveTheMessage` in AWAITING_REPLY: a byte that is not new by its toggle or by the double look; new bytes with 31
and with 32 held, with the double look and without, with and without reply end; an old camera abort. -/
theorem test_witness_relay_replies : ∀ rest ∈ [[], [(⟨0x22, [3]⟩ : RelayMessage)]], ∀ ended : Bool, ∀ held ∈ [31, 32],
    let f : RelayFields := ⟨true, 7, true, ended, true⟩
    let r := { carrying rest with inFlight := some .awaitingReply, abortSeen := true, reply := List.replicate held 7 }
    let looks := { r with doubleLook := true, candidate := some ⟨true, 7, ended⟩ }
    r.queue = ⟨0x21, [1, 2]⟩ :: rest ∧ r.abortOwed = 0 ∧ r.abortSeen = true ∧ r.inFlight = some .awaitingReply
      ∧ f.replyToggle ≠ r.acceptedToggle ∧ r.doubleLook = false ∧ r.reply.length = held
      ∧ looks.candidate = some ⟨f.replyToggle, f.reply, f.replyEnd⟩
      ∧ ({ looks with candidate := none } : Relay).candidate ≠ some ⟨f.replyToggle, f.reply, f.replyEnd⟩
      ∧ f.replyToggle = ({ r with acceptedToggle := true } : Relay).acceptedToggle := by decide
/-- `HeadersMoveTheMessage`, a new camera abort: in both phases, with none in flight, and with abort words owed. -/
theorem test_witness_relay_abort :
    (∀ phase ∈ [RelayPhase.sending, .awaitingReply], let r := { carrying [] with inFlight := some phase }
      r.abortSeen = false ∧ r.inFlight = some phase ∧ r.queue = ⟨0x21, [1, 2]⟩ :: [] ∧ r.abortOwed = 0)
      ∧ Relay.reset.inFlight = none ∧ Relay.reset.queue = [] ∧ 0 < Relay.reset.abortOwed := by decide
/-- `HeadersMoveTheMessage`, none in flight and no new abort: an empty queue, abort words owed, an abort already seen; the
candidate and the abort flag are those of the header. -/
theorem test_witness_relay_idle :
    let idle : Relay := { Relay.reset with abortOwed := 0 }
    let owing : Relay := { Relay.reset with queue := [⟨0x22, [3]⟩], abortOwed := 1, abortSeen := true }
    idle.inFlight = none ∧ idle.queue = [] ∧ owing.inFlight = none ∧ 0 < owing.abortOwed ∧ owing.abortSeen = true
      ∧ (let r := (owing.takeHeader 0 0 ⟨false, 7, true, false, true⟩).1
        (r.candidate, r.abortSeen, r.sendToggle) = (some ⟨true, 7, false⟩, true, owing.sendToggle))
      ∧ ((idle.takeHeader 0 0 ⟨true, 9, false, true, false⟩).1.candidate, (idle.takeHeader 0 0 ⟨true, 9, false, true, false⟩).2)
        = (some ⟨false, 9, true⟩, []) := by decide
/-- R31, R32: the header that takes the last byte brings the first reply byte too. -/
theorem test_last_byte_and_first_reply :
    let r := ({ carrying [] with offered := true, byteIndex := 1 }).takeHeader 0 0 ⟨true, 7, true, false, false⟩
    r.1.inFlight = some .awaitingReply ∧ r.1.reply = [7] ∧ r.2 = [] := by decide
/-- R33, R35: reason 3 OVERLONG in phase 2 with 32 held, and reason 1 ABORTED in phase 1; the next message goes in flight. -/
theorem test_overlong_and_abort :
    let next : RelayMessage := ⟨0x22, [3]⟩
    let long := ({ carrying [next] with
      inFlight := some .awaitingReply, reply := List.replicate 32 7 }).takeHeader 0 0 ⟨true, 7, true, false, false⟩
    let cut := (carrying [next]).takeHeader 0 0 ⟨true, 0, false, false, true⟩
    long.2.map (·.data) = [[0, 0x21, 3, 2, 0, 32]] ∧ long.1.abortOwed = 2 ∧ long.1.inFlight = none ∧ long.1.queue = [next]
      ∧ cut.2.map (·.data) = [[0, 0x21, 1, 1, 0, 0]] ∧ cut.1.abortOwed = 0 ∧ cut.1.inFlight = some .sending := by decide

/-- INTERNAL with frame `number` due at tick 0 and `made` of its packets made; frames of 1 x 4 pixels. -/
def generating (made : Nat) : State := lane0 fun l =>
  { l with
    rx := { receiving .locked with mode := .internal, geometry := ⟨1, 4⟩ }
    test := { l.test with genRun := some ⟨0, 0, ⟨1, 4⟩, made⟩, genFrame := 5 } }

/-- `GeneratorAndCheckerAgree`, the generator: the FRAME_START, the first and the last LINE, and the FRAME_END, in OFF too. -/
theorem test_witness_generator : ∀ made ∈ [0, 1, 4, 5], ∀ st ∈ [LaneState.locked, .off],
    let s := (generating made).modRx 0 fun r => { r with state := st }
    let g : GeneratorRun := ⟨0, 0, ⟨1, 4⟩, made⟩
    s.resetAsserted = false ∧ (s.lane 0).rx.mode = .internal ∧ (s.lane 0).test.genRun = some g
      ∧ (if g.made = 0 then g.frameStart else if g.made ≤ g.geometry.h then g.frameStart + g.made * g.lineTime
        else g.frameStart + (g.geometry.h + 1) * g.lineTime) ≤ max s.now at0.tick := by decide
/-- R173: a line time of floor(1,333,320 / 12), and frame 5 goes out as its FRAME_START. -/
theorem test_generator_frame_start : (next? (exec (.generatorPacket at0 0) (generating 0))).map
    (fun t => ((t.lane 0).test.genRun, (t.lane 0).rx.counters.packetsReceived))
    = some (some ⟨0, 111110, ⟨1, 4⟩, 1⟩, 1) := by decide
/-- R173: nine ones first, then the sequence goes on: 5 and 9 places back agree, so the next four bits are 0. -/
theorem test_generator_line : ((LinkTest.makePayload LinkTest.reset 1).1).take 1 = [0xFF]
    ∧ (Pattern.short.generate 13 Pattern.short.allOnes).1.drop 9 = [false, false, false, false] := by decide

/-- A checker in SYNC one shift length behind its generator. -/
def following (inject : Bool) : LinkTest :=
  { LinkTest.reset with
    checker := .sync, chkShift := Pattern.short.allOnes, injectPending := inject
    genShift := (Pattern.short.generate 9 Pattern.short.allOnes).2 }

/-- `GeneratorAndCheckerAgree`, the checker: with and without a pending error. -/
theorem test_witness_checker : ∀ inject : Bool, 0 < 1 ∧ (following inject).checker = .sync
    ∧ (∀ inverted : Bool, ({ following inject with inverted := inverted } : LinkTest).inverted = inverted)
    ∧ (following inject).chkShift.length = (following inject).pattern.seedLength
    ∧ (following inject).genShift
      = ((following inject).pattern.generate (following inject).pattern.seedLength (following inject).chkShift).2
    ∧ ((following inject).window.countP id) ≤ 14 := by decide
/-- Section 10.5: an injected error adds exactly 1. -/
theorem test_injected_error_counts_once :
    let line := (following true).makePayload 2
    (line.2.takePayload line.1).errorCount = 1 ∧ (line.2.takePayload line.1).checker = .sync := by decide +kernel
/-- `GeneratorAndCheckerAgree`, the sequence: a shift state of each pattern's length, and a position beyond it. R173: the long
one's first bits after fifteen ones are fourteen 0 and then a 1. -/
theorem test_witness_sequence :
    Pattern.short.allOnes.length = 9 ∧ Pattern.long.allOnes.length = 15 ∧ 9 ≤ 9 ∧ 9 < 1 + 9 ∧ 15 ≤ 15 ∧ 15 < 1 + 15
      ∧ (Pattern.long.generate 30 Pattern.long.allOnes).1.drop 15 = List.replicate 14 false ++ [true] := by decide
/-- `GeneratorAndCheckerAgree`, one received bit: loading below the shift length and at it; a run of one kind that is broken,
that goes on, and that reaches 64, of right and of wrong predictions; and SYNC. -/
theorem test_witness_received_bits :
    let hunt (loaded run : Nat) (right : Bool) : LinkTest :=
      { LinkTest.reset with chkShift := Pattern.short.allOnes, seedCount := loaded, run := run, runCorrect := right }
    let after (t : LinkTest) (b : Bool) := let u := t.takeBit b; (u.checker, u.inverted, u.seedCount, u.run)
    (∀ k ∈ [0, 8, 9], (hunt k 0 true).checker = .hunt ∧ (hunt k 0 true).seedCount = k) ∧ (following false).checker = .sync
      ∧ after (hunt 8 0 true) true = (.hunt, false, 9, 0) ∧ after (hunt 9 0 true) true = (.hunt, false, 9, 1)
      ∧ after (hunt 9 62 true) true = (.hunt, false, 0, 0) ∧ after (hunt 9 62 true) false = (.hunt, false, 9, 63)
      ∧ after (hunt 9 63 true) false = (.sync, false, 9, 64) ∧ after (hunt 9 63 false) true = (.sync, true, 9, 64)
      ∧ (hunt 9 63 false).chkShift.map (fun x => !x) = List.replicate 9 false
      ∧ ((hunt 9 63 false).takeBit true).chkShift = List.replicate 9 false := by decide +kernel
/-- R175: the sixteenth error of the last 256 bits brings HUNT and leaves the count; one that leaves the window as another
enters brings none. -/
theorem test_sync_is_lost :
    let full (w : List Bool) (b : Bool) :=
      let u := ({ following false with window := w, errorCount := 65534 } : LinkTest).takeBit b
      (u.checker, u.errorCount, u.window.length)
    let errors (k : Nat) := List.replicate k true
    full (errors 15 ++ List.replicate 240 false) true = (.hunt, 65535, 0)
      ∧ full (errors 15 ++ List.replicate 241 false) true = (.sync, 65535, 256)
      ∧ full (errors 14) true = (.sync, 65535, 15) ∧ full (errors 15) false = (.sync, 65534, 16) := by decide +kernel

/-! ### Tiles and the frame store -/

/-- `TilesAreClassified`: nothing measured, a first measurement, and the two tests at their limits: 192 above and 2,560 of
detail for CLEAR, 96 above and 3,200 for DUSTY, and one beyond each. -/
theorem test_witness_tiles :
    let clear (mu act : Nat) := (classifyMeasured .reset ⟨true, .clear, 1600, 320, 0, 16, 0⟩ mu act).record.state
    let dusty (mu act : Nat) := (classifyMeasured .reset ⟨true, .dusty, 1600, 320, 0, 16, 0⟩ mu act).record.state
    (classifyTile .reset .fresh 0 9 9).record = .fresh ∧ (classifyTile .reset .fresh 1 6400 630).record.mean = 1600
      ∧ clear 112 10 = .dusty ∧ clear 111 10 = .clear ∧ clear 112 11 = .clear
      ∧ dusty 106 12 = .dusty ∧ dusty 105 12 = .clear ∧ dusty 106 13 = .clear := by decide

/-- `StoreGrantsInOrder`: each timer due, and a refresh that ends. -/
theorem test_witness_store_timers : State.reset.arb.initDue = some 8000
    ∧ ({ State.reset.arb with refreshDue := some 0 } : Arbiter).refreshDue = some 0
    ∧ ((underLoad 8).serve).arb.port = some ⟨.refresh, 16, true⟩ := by decide
theorem test_dram_init : (next? (exec (.dramInitComplete ⟨8000, false⟩) State.reset)).map
    (fun t => (t.arb.storeReady, t.arb.refreshDue)) = some (true, some 8312) := by decide
theorem test_refresh_timer : (next? (exec (.refreshTimerExpiry at0)
    { State.reset with arb := { State.reset.arb with refreshDue := some 0, owed := 8 } })).map
    (fun t => (t.arb.owed, t.arb.refreshDue)) = some (8, some 312) := by decide
theorem test_refresh_complete : (next? (exec (.refreshComplete ⟨16, false⟩) (underLoad 8).serve)).map
    (fun t => (t.arb.owed, t.arb.lastGranted)) = some (7, 0) := by decide

/-- Lane 0 with this buffer and pending commit, and the write of a segment of line 0 of slot `slot` on the port. -/
def writing (slot line : Nat) (buffer : List BufferedLine) (commit : Option PendingCommit) (live : Bool) : State :=
  { lane0 fun l => { l with store := { l.store with
      ring := ⟨slotIn .filling, none, none, none⟩, buffer := buffer, pendingCommit := commit } } with
    arb := { State.reset.arb with port := some ⟨.write 0 (Fin.ofNat 4 slot) line 0 [1, 2], 0, live⟩ } }

/-- `LaneWriteCompletes`: discarded, beyond the DRAM, and a line with a segment to go, one that ends, and one whose frame
is then committed. -/
theorem test_witness_lane_write :
    let b : BufferedLine := ⟨.committing, 0, [1, 2], 0⟩
    let p : PendingCommit := ⟨0, 0, 4, .acquiring⟩
    let long : BufferedLine := ⟨.current, 0, List.replicate 514 0, 0⟩
    (∀ live : Bool, (writing 0 0 [b] none live).arb.port = some ⟨.write 0 0 0 0 [1, 2], 0, live⟩
        ∧ 0 ≤ max (writing 0 0 [b] none live).now at0.tick)
      ∧ ((writing 0 13108 [b] none true).arb.port = some ⟨.write 0 0 13108 0 [1, 2], 0, true⟩
        ∧ 33554432 < 0 * 8388608 + 0 * 2097152 + 13108 * 2560 + 512 * 0 + 2)
      ∧ (0 * 8388608 + 0 * 2097152 + 0 * 2560 + 512 * 0 + 2 ≤ 33554432
        ∧ ((writing 0 0 [long] none true).lane 0).store.buffer = long :: [] ∧ 512 * (long.written + 1) < long.payload.length
        ∧ ((writing 0 0 [long] none true).lane 0).store.pendingCommit = none)
      ∧ (((writing 0 0 [b] none true).lane 0).store.buffer = b :: [] ∧ b.payload.length ≤ 512 * (b.written + 1)
        ∧ ((writing 0 0 [b] none true).lane 0).store.pendingCommit = none
        ∧ ((writing 0 0 [b] none true).lane 0).store.opening ≠ .unstored)
      ∧ (((writing 0 0 [b] (some p) true).lane 0).store.buffer = b :: []
        ∧ ((writing 0 0 [b] (some p) true).lane 0).store.opening = .closed
        ∧ ((writing 0 0 [b] (some p) true).lane 0).store.pendingCommit = some p
        ∧ ∀ j ∈ (writing 0 0 [b] (some p) true).jobs.head?, j.run.isSome = true) := by decide +kernel
/-- `LaneWriteCompletes` while a commit is pending: a line with a segment to go, alone and with a line of the next frame
behind it, and a last segment with a line of the committing frame behind it. -/
theorem test_witness_lane_write_before_a_commit :
    let p : PendingCommit := ⟨0, 0, 4, .locked⟩
    let short : BufferedLine := ⟨.committing, 0, [1, 2], 0⟩
    let long : BufferedLine := ⟨.committing, 0, List.replicate 514 0, 0⟩
    let store (b : List BufferedLine) := ((writing 0 0 b (some p) true).lane 0).store
    (∀ rest ∈ [[], [{ short with tag := .current }]], (store (long :: rest)).buffer = long :: rest
        ∧ 512 * (long.written + 1) < long.payload.length ∧ ∃ c ∈ long :: rest, c.tag = .committing)
      ∧ ((store [short, short]).buffer = [short, short] ∧ short.payload.length ≤ 512 * (short.written + 1)
        ∧ (∃ c ∈ [short], c.tag = .committing) ∧ (store [short, short]).opening ≠ .unstored)
      ∧ ([[long], [short, short]].map fun b => (next? (exec (.laneWriteComplete at0) (writing 0 0 b (some p) true))).map fun t =>
        ((t.lane 0).store.buffer.map fun b => b.written, (t.lane 0).store.pendingCommit))
        = [some ([1], some p), some ([0], some p)] := by decide +kernel
/-- R41: slot 3, line 1 of lane 0 begins at 3 x 2,097,152 + 2,560. -/
theorem test_lane_write_address : (next? (exec (.laneWriteComplete at0)
    (writing 3 1 [⟨.current, 1, [1, 2], 0⟩] none true))).map (·.dram) = some [(6294016, 1), (6294017, 2)] := by decide
theorem test_lane_write_commits : (next? (exec (.laneWriteComplete at0)
    (writing 0 0 [⟨.committing, 0, [1, 2], 0⟩] (some ⟨0, 0, 4, .acquiring⟩) true))).map
    (fun t => ((t.lane 0).store.ring.get 0, (t.lane 0).store.buffer)) = some (none, []) := by decide

/-- `CommitsMakeJobs`: the three kinds of opening that a close ends, and a last line's write that ends a frame, alone in the
buffer and with a line of the next frame behind it. -/
theorem test_witness_commits :
    (∀ o ∈ [Opening.stored 0, .closed, .unstored, .deferred 6 ⟨1, 4⟩ []],
      (((writing 0 0 [] none true).modLane 0 fun l => { l with store := { l.store with opening := o } }).lane 0).store.opening = o)
      ∧ (∀ rest ∈ [[], [(⟨.current, 0, [1, 2], 0⟩ : BufferedLine)]], let b : BufferedLine := ⟨.committing, 3, [1, 2], 0⟩
        let s := writing 0 3 (b :: rest) (some ⟨0, 0, 4, .locked⟩) true
        s.arb.port = some ⟨.write 0 0 3 0 [1, 2], 0, true⟩ ∧ 0 ≤ max s.now at0.tick
          ∧ 0 * 8388608 + 0 * 2097152 + 3 * 2560 + 512 * 0 + 2 ≤ 33554432 ∧ (s.lane 0).store.buffer = b :: rest
          ∧ b.payload.length ≤ 512 * (b.written + 1) ∧ (∀ c ∈ rest, c.tag = .current)
          ∧ (s.lane 0).store.pendingCommit = some ⟨0, 0, 4, .locked⟩ ∧ (s.lane 0).store.opening ≠ .unstored) := by
  decide +kernel

/-- Lane 0 with all four roles, its job queued behind lane 1's running one. -/
def queued : State := { busyLane with
  jobs := [⟨1, 0, 9, some ⟨[], .reset, .reset, 90, true, none, none, [.toSearch], []⟩⟩, ⟨0, 2, 4, none⟩] }
/-- R63, R49, R51: the new frame takes the queued job's place, whose slot is freed; a damaged frame makes no job. -/
theorem test_commits :
    let good := queued.commit 0 ⟨3, 4, 4, .locked⟩
    let bad := queued.commit 0 ⟨3, 5, 4, .locked⟩
    (good.lane 0).store.ring = ⟨slotIn .ready, slotIn .showing, none, slotIn .conditioning⟩
      ∧ good.jobs.map (fun j => (j.lane, j.slot, j.number)) = [(1, 0, 9), (0, 3, 5)]
      ∧ (good.lane 0).rx.counters.framesSkipped = 1
      ∧ (bad.lane 0).store.ring = ⟨slotIn .ready, slotIn .showing, slotIn .conditioning, none⟩ ∧ bad.jobs = queued.jobs
      ∧ (bad.lane 0).rx.counters.framesDiscarded = 1 := by decide +kernel

/-- A read of two bytes on the port: a fetch for output line 0, or a conditioning read. -/
def reading (live : Bool) (k : TransferKind) : State :=
  { State.reset with
    dram := [(0, 7)], arb := { State.reset.arb with port := some ⟨k, 0, live⟩ }
    readBuffer := { State.reset.readBuffer with place0 := .filling 0 [] } }

/-- `PortReadsComplete`: a fetch and a read, counting and discarded, in the DRAM and beyond it, and the running job. -/
theorem test_witness_port_reads :
    let run : RunningJob := ⟨[⟨0, 0, true⟩], .reset, .reset, 90, false, some 1, none, [.toSearch], []⟩
    (∀ live : Bool, (reading live (.fetch 0 ⟨0, 0, 0, 0, 0, 2⟩)).arb.port = some ⟨.fetch 0 ⟨0, 0, 0, 0, 0, 2⟩, 0, live⟩
        ∧ (reading live (.read 0 0 0 0 2)).arb.port = some ⟨.read 0 0 0 0 2, 0, live⟩)
      ∧ (reading true (.fetch 0 ⟨0, 0, 0, 0, 0, 2⟩)).readBuffer.place0 = .filling 0 []
      ∧ ((reading true (.read 3 3 819 2 512)).arb.port = some ⟨.read 3 3 819 2 512, 0, true⟩
        ∧ 33554432 < 3 * 8388608 + 3 * 2097152 + 819 * 2560 + 512 * 2 + 512)
      ∧ 0 * 8388608 + 0 * 2097152 + 0 * 2560 + 512 * 0 + 2 ≤ 33554432
      ∧ (let s := { reading true (.read 0 0 0 0 2) with jobs := [⟨0, 2, 5, some run⟩] }
        s.jobs = ⟨0, 2, 5, some run⟩ :: [] ∧ run.current = some (0, ⟨0, 0, true⟩)
          ∧ run.got.length + 1 < 32 + 2 * run.settings.sy) := by decide
theorem test_fetch_complete : (next? (exec (.compositorFetchComplete at0) (reading true (.fetch 0 ⟨0, 0, 0, 0, 0, 2⟩)))).map
    (·.readBuffer.place0) = some (.filling 0 [⟨0, 0, [7, 0]⟩]) := by decide +kernel
theorem test_fetch_beyond_dram :
    (match exec (.compositorFetchComplete at0) (reading true (.fetch 0 ⟨0, 3, 3, 819, 2, 512⟩)) with
    | .fault .dramAddress => true
    | _ => false) = true := by decide +kernel
/-- R66: the job of the lane waits for its anchor's next segment. -/
theorem test_conditioning_read :
    let run : RunningJob := ⟨[⟨0, 0, true⟩], .reset, .reset, 90, false, some 1, none, [.toSearch], []⟩
    (next? (exec (.conditioningReadComplete at0) { reading true (.read 0 0 0 0 2) with jobs := [⟨0, 2, 5, some run⟩] })).map
      (fun t => t.jobs.map fun j => j.run.map (·.got)) = some [some [[7, 0]]] := by decide +kernel

/-- A segment whose pixel x has luma (x + k)² mod 256. -/
def squares (k : Nat) : List Byte := (List.range 48).flatMap fun x => [BitVec.ofNat 8 ((x + k) * (x + k)), 128]

/-- `AnchorsAreSearched`: the last of 32 + 2·Sy reads, of the last anchor and of one before another, of a search over one
candidate and over all 25 x 13. -/
theorem test_witness_anchors_searched : ∀ sy ∈ [0, 6], ∀ more ∈ [[], [AnchorVerdict.toSearch]],
    let run : RunningJob := ⟨[⟨3, 24, true⟩, ⟨4, 0, true⟩], { Stabilizer.reset with sy := sy }, .reset, 90, false, some 1,
      none, .toSearch :: more, List.replicate (31 + 2 * sy) []⟩
    let s := { reading true (.read 0 1 0 0 2) with jobs := [⟨0, 2, 5, some run⟩] }
    s.arb.port = some ⟨.read 0 1 0 0 2, 0, true⟩ ∧ 0 ≤ max s.now at0.tick
      ∧ 0 * 8388608 + 1 * 2097152 + 0 * 2560 + 512 * 0 + 2 ≤ 33554432 ∧ s.jobs = ⟨0, 2, 5, some run⟩ :: []
      ∧ run.verdicts.findIdx? (· == .toSearch) = some 0 ∧ run.anchors[0]? = some ⟨3, 24, true⟩
      ∧ 32 + 2 * run.settings.sy ≤ run.got.length + 1 := by decide +kernel
/-- R75 to R78: the scene is one pixel to the right, the same in every row; the sum of the 15 differences is 1,335 a row. -/
theorem test_search :
    let k : Stabilizer := { Stabilizer.reset with sx := 1, sy := 1 }
    let found := searchAnchor 0 k (List.replicate 16 (squares 0) ++ List.replicate 18 (squares 1))
    found = ⟨1, 0, 0, 21360⟩ ∧ judgeAnchor 0 k [] [] found = .accepted := by decide +kernel
/-- R74, R76: an even picture: every candidate has the SAD 0, and (0, 0) is taken, its contrast 0. -/
theorem test_search_of_an_even_picture :
    let k : Stabilizer := { Stabilizer.reset with sx := 1, sy := 1 }
    let s := searching 33 k (List.replicate 33 [])
    (next? (exec (.conditioningReadComplete at0)
        { s with arb := { s.arb with port := some ⟨.read 0 0 9 0 2, 0, true⟩ } })).map
      (fun t => (t.jobs.length, (t.lane 0).motion.summary.map (·.anchors)))
    = some (0, some [⟨0, 0, .lowContrast, some ⟨0, 0, 0, 0⟩⟩]) := by decide +kernel

/-- The statistics of one tile, whose 64 valid rows have the mean 100 and the detail 10. -/
def oneTile : StatSet := ⟨5, ⟨64, 32⟩, [32], [204800], [20160]⟩

/-- Lane 0's job of slot 2 at the head of the queue, with one enabled anchor on tile (0, 0) and a valid reference or none. -/
def starting (referenceValid : Bool) (purge : PurgeState) : State :=
  { busyLane.modLane 0 fun l => { l with
      motion := { l.motion with anchors := [⟨0, 0, true⟩], referenceValid := referenceValid }
      purge := { l.purge with state := purge }, dust := { l.dust with jobSet := some oneTile, table := [.fresh] } } with
    jobs := [⟨0, 2, 5, none⟩] }

/-- `JobsStart`: a running head, and a head to start with a reference and without, frozen and not. -/
theorem test_witness_jobs_start : (∀ j ∈ queued.jobs.head?, j.run.isSome = true)
    ∧ ∀ valid : Bool, ∀ p ∈ [PurgeState.idle, .pulse, .settle], let s := starting valid p
      s.jobs = ⟨0, 2, 5, none⟩ :: [] ∧ (s.lane 0).store.ring.get 2 = slotIn .conditioning
        ∧ (s.lane 0).dust.jobSet = some oneTile ∧ (s.lane 0).purge.state = p := by decide
/-- R65, R73: with a reference the anchor on a CLEAR tile is to be searched in the READY slot; without one the job
completes at once. -/
theorem test_jobs_start :
    ((starting true .idle).startJobs.jobs.map fun j => j.run.map fun r => (r.reference, r.verdicts))
      = [some (some 0, [.toSearch])]
      ∧ (starting false .idle).startJobs.jobs = []
      ∧ ((starting true .pulse).startJobs.lane 0).motion.counters = ⟨1, 0, 1, 1, 0⟩ := by decide +kernel

/-- Lane 0's job of slot 2 running with slot 0 as reference, every anchor judged, another slot READY. -/
def jobRuns (frozen : Bool) (classes : Option (List TileClass)) (verdicts : List AnchorVerdict) (p : PurgeState)
    (settled : Nat) : State :=
  { busyLane.modPurge 0 fun q => { q with state := p, settleJobs := settled } with
    jobs := [⟨0, 2, 5, some ⟨[⟨0, 0, true⟩, ⟨1, 0, true⟩, ⟨2, 0, true⟩], .reset, .reset, 90, frozen, some 0, classes,
      verdicts, []⟩⟩] }

/-- Three anchors accepted, their shifts around (2, −1). -/
def threeFound : List AnchorVerdict :=
  [.done .accepted (some ⟨2, -1, 100, 2000⟩), .done .accepted (some ⟨3, -1, 100, 2000⟩),
    .done .accepted (some ⟨2, 0, 100, 2000⟩)]

/-- `n` DUSTY tiles of this age. -/
def soiledTiles (n age : Nat) : Option (List TileClass) := some (List.replicate n ⟨⟨true, .dusty, 1600, 320, age, 20, 115⟩, 40⟩)

/-- `JobCompletes`: a slot in CONDITIONING with another READY; a frozen job in SETTLE with no job counted and with one; a job
that is not frozen, with 9 and with 10 soiled tiles. -/
theorem test_witness_job :
    (∀ k ∈ [0, 1], let s := jobRuns true none [] .settle k
      s.jobs = ⟨0, 2, 5, some ⟨[⟨0, 0, true⟩, ⟨1, 0, true⟩, ⟨2, 0, true⟩], .reset, .reset, 90, true, some 0, none, [], []⟩⟩
          :: []
        ∧ (s.lane 0).store.ring.get 2 = slotIn .conditioning ∧ (s.lane 0).store.slotOf .ready = some 0
        ∧ (s.lane 0).purge.state = .settle ∧ (s.lane 0).purge.settleJobs = k)
      ∧ (∀ k ∈ [9, 10], let s := jobRuns false (soiledTiles k 90) threeFound .idle 0
        s.jobs = ⟨0, 2, 5, some ⟨[⟨0, 0, true⟩, ⟨1, 0, true⟩, ⟨2, 0, true⟩], .reset, .reset, 90, false, some 0,
            soiledTiles k 90, threeFound, []⟩⟩ :: []
          ∧ ((s.completeJob).lane 0).dust.table.countP (fun r => 90 ≤ r.age) = k ∧ (s.lane 0).purge.settings.nsoil = 10
          ∧ (s.lane 0).purge.settings.auto = true ∧ (s.lane 0).purge.state = .idle ∧ (s.lane 0).rx.state = .locked
          ∧ (s.lane 0).rx.mode = .normal) := by decide +kernel
/-- R52, R82: the slot is READY, the one before it FREE and counted as dropped; VOID and frozen. -/
theorem test_job_completes : let t := (jobRuns true none [] .settle 0).completeJob
    (t.lane 0).store.slotOf .ready = some 2 ∧ (t.lane 0).store.ring.get 0 = none ∧ (t.lane 0).rx.counters.framesDropped = 1
      ∧ (t.lane 0).motion.counters = ⟨1, 0, 1, 1, 0⟩ ∧ (t.lane 0).purge.settleJobs = 1 := by decide
/-- R79, R82: VALID with three accepted, shift (2, −1), the outcomes those of the anchors. -/
theorem test_valid_job : let l := (jobRuns false (soiledTiles 1 0) threeFound .idle 0).completeJob.lane 0
    l.motion.summary.map (fun q => (q.result, q.accepted, q.shiftX, q.shiftY)) = some (.valid, 3, 2, -1)
      ∧ l.motion.summary.map (fun q => q.anchors.map (·.col)) = some [0, 1, 2]
      ∧ l.motion.summary.map (fun q => q.anchors.map (·.outcome)) = some [.accepted, .accepted, .accepted]
      ∧ l.motion.counters = ⟨1, 1, 0, 0, 0⟩ := by decide +kernel
/-- R110, R117: at Nsoil = 10 soiled tiles a blow starts, with its STARTED report; at 9 none does. -/
theorem test_automatic_blow : [9, 10].map (fun k => let t := (jobRuns false (soiledTiles k 90) threeFound .idle 0).completeJob
    ((t.lane 0).purge.state, (t.lane 0).purge.lastSoiled, t.chan.notices.map (·.data)))
    = [(.idle, some 9, []), (.pulse, none, [[0, 0, 0, 1, 0, 10, 0]])] := by decide +kernel

/-! ### The output frame -/

/-- In BLANKING with this watch. -/
def watched (w : Watch) (flywheel : Nat) : State :=
  { seen .locked with timing := { State.reset.timing with watch := some w, master := some 0, flywheel := flywheel } }

/-- `OutputFramesStart`: a timer due; a deadline due at the second and at the third forced start; the master's offset line
in BLANKING and before it; and another line. -/
theorem test_witness_output_starts :
    ((watched (.timer 0) 0).resetAsserted = false ∧ (watched (.timer 0) 0).timing.phase = .blanking
        ∧ 0 ≤ max (watched (.timer 0) 0).now at0.tick ∧ (watched (.timer 0) 0).timing.watch = some (.timer 0))
      ∧ (∀ k ∈ [1, 2], let s := watched (.deadline 0) k
        s.resetAsserted = false ∧ s.timing.phase = .blanking ∧ s.timing.watch = some (.deadline 0)
          ∧ s.timing.master = some 0 ∧ (2 ≤ s.timing.flywheel ∨ k = 1))
      ∧ ((watched (.deadline 9) 0).timing.master = some 0 ∧ 8 = (watched (.deadline 9) 0).timing.syncInForce
        ∧ 7 ≠ (watched (.deadline 9) 0).timing.syncInForce ∧ (watched (.deadline 9) 0).timing.phase = .blanking
        ∧ ((watched (.deadline 9) 0).startFrame none).timing.master = some 0
        ∧ ((watched (.deadline 9) 0).startFrame none).timing.phase ≠ .blanking) := by decide
/-- Lane 0 the master in this phase, expecting line 1 of its open frame, so that line 2 is its offset line. -/
def offsetting (phase : FramePhase) (health : Nat) : State :=
  let s := (seen .locked).modRx 0 fun r => { r with expectedLine := 1, health := health }
  { s with timing := { State.reset.timing with
    master := some 0, phase := phase, syncOffset := 2, syncInForce := 2, flywheel := 2, offsetMark := some ⟨4, 0⟩
    watch := some (.deadline 9) } }

/-- `OutputFramesStart`: a packet with the master's offset line, in BLANKING and before it: clean at a health count of 31,
and one line ahead, or with a check that differs, at 30. -/
theorem test_witness_offset_line :
    (∀ phase ∈ [FramePhase.blanking, .picture], ∀ health ∈ [30, 31], let s := offsetting phase health
      s.resetAsserted = false ∧ (s.lane 0).rx.state = .locked ∧ (s.lane 0).rx.mode = .normal
        ∧ (s.lane 0).rx.acquisition = some ⟨1, 4⟩ ∧ (s.lane 0).rx.openFrame = some ⟨5, .acquiring⟩
        ∧ s.timing.master = some 0 ∧ 2 = s.timing.syncInForce ∧ s.timing.phase = phase
        ∧ (s.lane 0).rx.expectedLine ≤ 2 ∧ (s.lane 0).rx.health = health ∧ 2 < 4)
      ∧ parsePacket (lineOf 5 2) = some (lineParsed 5 2)
      ∧ parsePacket (header 2 5 2 0 ++ [16, 128, 0, 0]) = some { lineParsed 5 2 with payloadOk := false } := by
  decide +kernel
/-- R142: at tick 7 the line that is one ahead starts the frame in BLANKING alone; the average is 16 x 7 either way. -/
theorem test_offset_line :
    let after (phase : FramePhase) (f : Timing → Nat × Option Nat) := (next? (exec
      (.cameraPacket ⟨7, false⟩ 0 (lineOf 5 2)) (offsetting phase 30))).map fun t => (t.timing.phase, f t.timing)
    [FramePhase.blanking, .picture].map (after · fun t => (t.flywheel, t.average))
      = [some (.picture, 0, some 112), some (.picture, 2, some 112)]
      ∧ [FramePhase.blanking, .picture].map (after · fun t => (t.lastStart, t.offsetMark.map (·.tick)))
        = [some (.picture, 7, some 7), some (.picture, 0, some 7)] := by decide +kernel
/-- R143: the third forced start drops the master, and holdover runs with the free-run period. -/
theorem test_third_forced_start : (next? (exec (.flywheelDeadlineExpiry at0) (watched (.deadline 0) 2))).map
    (fun t => (t.timing.master, t.timing.flywheel, t.timing.holdover, t.timing.watch))
    = some (none, 0, true, some (.timer 1333320)) := by decide
theorem test_output_timer : (next? (exec (.outputTimerExpiry ⟨1333320, false⟩) State.reset)).map
    (fun t => (t.timing.phase, t.timing.frameNumber, t.timing.watch)) = some (.picture, 0, some (.timer 2666640)) := by
  decide

/-- In PICTURE of the smallest raster, with line `k` next. -/
def sending (k : Nat) (place : LinePlace) : State :=
  { State.reset with
    timing := { State.reset.timing with raster := .r800x480, phase := .picture, nextLine := k }
    readBuffer := ⟨place, .empty⟩, tx := ⟨.blanking, [1, 2]⟩ }

/-- `OutputLinesComplete`: the first and the last line of the raster on their ticks, complete and not. -/
theorem test_witness_active_lines : ∀ k ∈ [0, 479],
    (sending k .empty).resetAsserted = false ∧ (sending k .empty).timing.phase = .picture
      ∧ (sending k .empty).timing.nextLine = k ∧ k < 480
      ∧ (sending k .empty).timing.lastStart + (k + 1) * 1600 ≤ max (sending k .empty).now ((k + 1) * 1600)
      ∧ (sending 0 (.complete 0 [9])).readBuffer.place0 = .complete 0 [9]
      ∧ (sending k .empty).readBuffer = ⟨.empty, .empty⟩ := by decide
/-- `OutputLinesComplete`: line 3 next with line 2's place filled, complete and incomplete, and on the port a fetch for it, a
fetch for another line, and a transfer that is no fetch. -/
theorem test_witness_line_with_a_fetch :
    let fetch (k : Nat) : TransferKind := .fetch k ⟨2, 0, 1, 97, 0, 512⟩
    let s (third : LinePlace) (k : TransferKind) : State :=
      { sending 3 .empty with
        readBuffer := ⟨.complete 2 [7], third⟩, arb := { State.reset.arb with port := some ⟨k, 9000, true⟩ } }
    let after (third : LinePlace) (k : TransferKind) := (next? (exec (.activeLineBegin ⟨6400, false⟩) (s third k))).map fun t =>
      (t.arb.port.map (·.live), t.readBuffer.place0 == .complete 2 [7], t.readBuffer.place1, t.chan.counters.underruns)
    (∀ third ∈ [.empty, .filling 3 [], .complete 3 [9]], ∀ k ∈ [fetch 3, fetch 4, .refresh],
      (s third k).resetAsserted = false ∧ (s third k).timing.phase = .picture ∧ (s third k).timing.nextLine = 3
        ∧ (s third k).timing.lastStart + (3 + 1) * 1600 ≤ max (s third k).now 6400 ∧ 3 % 2 ≠ 0)
      ∧ after (.filling 3 []) (fetch 3) = some (some false, false, .empty, 1)
      ∧ after .empty .refresh = some (some true, false, .empty, 1)
      ∧ after (.complete 3 [9]) (fetch 4) = some (some true, false, .complete 3 [9], 0) := by decide +kernel
theorem test_complete_line_is_sent : (next? (exec (.activeLineBegin ⟨1600, false⟩) (sending 0 (.complete 0 [9])))).map
    (fun t => (t.tx.lastLine, t.chan.counters.underruns)) = some ([9], 0) := by decide
/-- R59: line 2 underruns, the line sent last is sent again, OUTPUT_UNDERRUN is flag 15. -/
theorem test_underrun : (next? (exec (.activeLineBegin ⟨4800, false⟩) (sending 2 (.filling 2 [])))).map
    (fun t => (t.tx.lastLine, t.chan.counters.underruns, t.chan.flags)) = some ([1, 2], 1, 0x008000) := by decide

/-- Line 10 next, in a window of 32 x 32 pixels at (10, 10) that shows slot 1 of lane 0 from (240, 98) on. -/
def drawing (c : Content) (place : LinePlace) : State :=
  let v : FrameView := ⟨1, ⟨640, 480⟩, [98], [], 0, []⟩
  let s := sending 10 place
  { s with comp := { s.comp with plan := [⟨2, { WindowRecord.reset with enabled := true, x := 10, y := 10, w := 32, h := 32 },
      c, 240, 98, 32, 32, 0, 0, some v⟩] } }

/-- `OutputLinesAreDrawn`: the window's first and last pixel and one beyond, each content; damaged lines with and without an
undamaged line before them; a line of the window; the next line with nothing missing, with a segment missing, complete, and
outside PICTURE. -/
theorem test_witness_drawing :
    (∀ c ∈ [Content.normal, .stale, .lost], ∃ p ∈ (drawing c .empty).comp.plan,
      (p.record.x ≤ 10 ∧ 41 < p.record.x + p.record.w ∧ p.record.y ≤ 10 ∧ 41 < p.record.y + p.record.h)
        ∧ ¬42 < p.record.x + p.record.w ∧ p.content = c ∧ p.view = some ⟨1, ⟨640, 480⟩, [98], [], ((0 : Fin 4) : Nat), []⟩)
      ∧ ((98 ∈ [98] ∧ 97 ∉ [98]) ∧ (0 ∈ [0, 1] ∧ 2 ∉ [0, 1] ∧ (∀ i, 0 < i → i < 2 → i ∈ [0, 1])))
      ∧ ((drawing .normal .empty).timing.phase = .picture ∧ (drawing .normal .empty).timing.nextLine < 480
        ∧ (drawing .normal .empty).readBuffer.place0 = .empty)
      ∧ (sending 10 .empty).comp.plan = [] ∧ (sending 10 (.complete 10 [])).readBuffer.place0 = .complete 10 []
      ∧ State.reset.timing.phase ≠ .picture := by
  refine ⟨by decide, ⟨by decide, by decide, by decide, fun i h0 h2 => ?_⟩, by decide, by decide, by decide, by decide⟩
  obtain rfl : i = 1 := by omega
  decide
/-- Section 3.1, R57: the columns from 240 on lie in two segments; line 98 is damaged, line 97 stands for it. -/
theorem test_fetch_list : ((drawing .normal .empty).comp.plan.map fun p => p.fetchItems 10)
    = [[⟨2, 0, 1, 97, 0, 512⟩, ⟨2, 0, 1, 97, 1, 512⟩]]
    ∧ (drawing .normal .empty).fetchRequest = some (.fetch 10 ⟨2, 0, 1, 97, 0, 512⟩) := by decide +kernel
/-- R124, R125, R128: output black outside, the source pixel, the substitute block, and grey beside it. -/
theorem test_drawn_pixels :
    let got : List Fetched := [⟨2, 0, List.replicate 512 100⟩]
    (drawing .normal .empty).pixel got 9 10 = ⟨16, 128⟩ ∧ (drawing .normal .empty).pixel got 10 10 = ⟨100, 100⟩
      ∧ (drawing .stale .empty).pixel got 10 10 = (drawing .lost .empty).pixel got 10 10
      ∧ (drawing .lost .empty).pixel got 26 10 = ⟨64, 128⟩ := by decide +kernel

/-- `OutputLinesComplete`: the status line on its tick after the last active line, and its end on its tick. -/
theorem test_witness_status_line :
    ((sending 480 .empty).resetAsserted = false ∧ (sending 480 .empty).timing.phase = .picture
        ∧ 480 ≤ (sending 480 .empty).timing.nextLine
        ∧ (sending 480 .empty).timing.lastStart + (480 + 1) * 1600 ≤ max (sending 480 .empty).now 769600)
      ∧ (let s := { State.reset with timing := { State.reset.timing with phase := .statusLine } }
        s.resetAsserted = false ∧ s.timing.phase = .statusLine
          ∧ s.timing.lastStart + (800 + 2) * 960 ≤ max s.now 769920) := by decide
/-- R150, R151, section 11.5: 1,600 bytes, flags reported, four of five notices gone. -/
theorem test_status_line : (next? (exec (.statusLineEvent ⟨769600, false⟩) { sending 480 .empty with
    chan := { State.reset.chan with flags := 8, notices := List.replicate 5 (Notice.mk .reply none .ok []) } })).map
    (fun t => (match t.tx.video with | .statusLine b => (b.length, (b.drop 10).take 3) | _ => (0, []),
      t.chan.reported, t.chan.notices.length)) = some ((1600, [0, 0, 8]), 8, 1) := by decide +kernel
/-- R140: 802 line times of 960 ticks after the start. -/
theorem test_status_line_end :
    let s := { State.reset with timing := { State.reset.timing with phase := .statusLine } }
    (next? (exec (.statusLineEnd ⟨769920, false⟩) s)).map (·.timing.phase) = some .blanking
      ∧ (next? (exec (.statusLineEnd ⟨769919, false⟩) s)).map (·.timing.phase) = some .statusLine := by decide

/-! ### The cab command lane -/

/-- `ExecutionsComeNext`: an arrival at an empty queue with 15 notices and with 16; an execution with 14 and with 15; numbers
0 and 36; the status line; and an event that brings none. -/
theorem test_witness_executions :
    (∀ k ∈ [15, 16], let s := noticed k State.reset
      s.resetAsserted = false ∧ s.chan.receiver = .idle ∧ s.chan.queue = [] ∧ (said 1 []).payload.length ≤ 72)
      ∧ (∀ k ∈ [14, 15], (Instr.heartbeat at0).commandNumber = some 1 ∧ (Instr.heartbeat at0).moment = at0
        ∧ (noticed k (given 1 [])).resetAsserted = false ∧ (noticed k (given 1 [])).ReadyFor 1 (said 1 []))
      ∧ (∀ k ∈ [0, 36], (given k []).ReadyFor k (said k []) ∧ (k = 0 ∨ 36 ≤ k)
        ∧ Instr.unknownCommand at0 = .unknownCommand (Instr.unknownCommand at0).moment)
      ∧ ((sending 480 .empty).timing.phase = .picture ∧ 480 ≤ (sending 480 .empty).timing.nextLine
        ∧ (sending 480 .empty).timing.lastStart + (480 + 1) * 1600 ≤ max (sending 480 .empty).now 769600)
      ∧ (∀ k ∈ [1, 35], 1 ≤ (said k []).number.toNat ∧ (said k []).number.toNat ≤ 35)
      ∧ (said 0 []).number.toNat = 0 ∧ 36 ≤ (said 36 []).number.toNat
      ∧ ((Instr.refreshTimerExpiry at0).commandNumber = none ∧ Instr.refreshTimerExpiry at0 ≠ .unknownCommand at0
        ∧ Instr.refreshTimerExpiry at0 ≠ .statusLineEvent at0
        ∧ (next? (exec (.refreshTimerExpiry at0) State.reset)).isSome = true) := by decide
/-- R156: the execution of a message that arrives at an empty queue comes before an event that waits; not with 16 notices. -/
theorem test_arrival_brings_the_execution : [15, 16].map (fun k =>
    (next? (exec (.commandMessageArrival ⟨7, true⟩ (said 1 []).wire)
      { noticed k State.reset with pending := [.statusLineEvent at0] })).map (·.pending))
    = [some [.heartbeat ⟨7, true⟩, .statusLineEvent at0], some [.statusLineEvent at0]] := by decide +kernel
/-- R156: an execution brings the next with an entry still free after its reply, and not without one. -/
theorem test_execution_brings_the_next : [14, 15].map (fun k => let s := noticed k (given 1 [])
    (next? (exec (.heartbeat at0) { s with chan := { s.chan with queue := [said 1 [], said 36 []] } })).map (·.pending))
    = [some [.unknownCommand at0], some []] := by decide
/-- R156: the status line frees entries and brings the execution that waited. -/
theorem test_status_line_brings_the_execution :
    (next? (exec (.statusLineEvent ⟨769600, false⟩) (noticed 16 (asked 1 [] (sending 480 .empty))))).map
    (fun t => (t.pending, t.chan.notices.length)) = some ([.heartbeat ⟨769600, false⟩], 12) := by decide +kernel

/-- `CommandMessagesArrive`: 72 bytes of payload, a queue of 15 and one of 16, a check that differs, a length of 73, noise,
and a gap on its tick. -/
theorem test_witness_messages :
    (said 1 (List.replicate 72 0)).payload.length ≤ 72
      ∧ (∀ k ∈ [15, 16], let s := { State.reset with chan := { State.reset.chan with queue := List.replicate k (said 1 []) } }
        s.resetAsserted = false ∧ s.chan.receiver = .idle ∧ (s.chan.queue.length < 16 ∨ 16 ≤ s.chan.queue.length)
          ∧ (next? (exec (.commandMessageArrival at0 (said 1 []).wire) s)).isSome = true)
      ∧ [0, 0] ≠ crcBytes [1, 0x21, 0] ∧ 72 < (73 : Byte).toNat ∧ (0x7E : Byte) ∉ [1, 2]
      ∧ (let s := { State.reset with chan := { State.reset.chan with receiver := .inProgress [0x7E] 40000 } }
        s.resetAsserted = false ∧ s.chan.receiver = .inProgress [0x7E] 40000 ∧ 40000 ≤ max s.now 40000) := by
  decide +kernel
theorem test_message_accepted : (next? (exec (.commandMessageArrival at0 (1 :: (said 4 [3, 0xE8]).wire)) State.reset)).map
    (fun t => (t.chan.queue, t.chan.counters.accepted)) = some ([said 4 [3, 0xE8]], 1) := by decide +kernel
/-- Log 9: the bytes after a message arrive again after its execution. -/
theorem test_two_messages_in_one_run : (next? (exec (.commandMessageArrival at0 ((said 1 []).wire ++ [0x7E, 2])) State.reset)).map
    (·.pending) = some [.heartbeat at0, .commandMessageArrival at0 [0x7E, 2]] := by decide +kernel
/-- R181, R155: a length of 73 is a check error, flag 13. -/
theorem test_message_too_long : (next? (exec (.commandMessageArrival at0 [0x7E, 1, 2, 73]) State.reset)).map
    (fun t => (t.chan.receiver, t.chan.counters.checkErrors, t.chan.flags)) = some (.idle, 1, 0x002000) := by decide
theorem test_gap_timeout : (next? (exec (.backlaneGapTimeout ⟨40000, false⟩)
    { State.reset with chan := { State.reset.chan with receiver := .inProgress [0x7E] 40000 } })).map
    (fun t => (t.chan.receiver, t.chan.counters.checkErrors)) = some (.idle, 1) := by decide

/-! ### Whole-machine statements: witnesses -/

/-- `CompositionCommandsStayApart`: one of the six. -/
theorem test_witness_composition :
    Instr.selectPage at0 ∈ [.loadWindow at0, .clearWindow at0, .loadMarks at0, .commitTables at0, .selectPage at0,
      .setSubstitute at0] := by decide

/-- The invariants: the state after reset meets each, and a step follows it. -/
theorem test_witness_invariants : Memory.wf State.reset.dram = true
    ∧ (∀ n, (State.reset.lane n).rx.healthOk ∧ (State.reset.lane n).purge.timersOk ∧ (State.reset.lane n).relay.flightOk
      ∧ (State.reset.lane n).messagesOk)
    ∧ State.reset.chan.queueOk ∧ State.reset.chan.noticesOk ∧ State.reset.chan.flagsOk
    ∧ (next? (step State.reset)).isSome = true := by decide
/-- `MasterStaysLocked`: a master with its deadline, none with the timer, and RESET_N asserted with no watch. -/
theorem test_witness_master_and_watch :
    (let s := (mastered .locked 0).modTiming fun t => { t with watch := some (.deadline 9) }
    s.masterOk ∧ s.watchOk ∧ s.timing.watch = some (.deadline 9))
      ∧ (State.reset.masterOk ∧ State.reset.watchOk)
      ∧ (∃ t, exec (.pinResetAssert at0) State.reset = .next t ∧ t.watchOk ∧ t.timing.watch = none) :=
  ⟨⟨by decide, ⟨rfl, rfl⟩, rfl⟩, ⟨by decide, rfl, rfl⟩, _, rfl, ⟨rfl, rfl⟩, rfl⟩
/-- `StoreStaysSound`: a ring with all four roles, two lines in the buffer, the lane's job behind another lane's that runs,
and a step. -/
theorem test_witness_store :
    let lane (l : LaneBlocks) : LaneBlocks := { l with store := { l.store with
      opening := .stored 3, buffer := [⟨.current, 0, [1, 2], 0⟩, ⟨.current, 1, [1, 2], 0⟩] } }
    let s := queued.modLane 0 lane
    s.storeOk ∧ (∀ n, (s.lane n).store.bufferOk) ∧ s.jobs.length = 2 ∧ (next? (step s)).isSome = true := by
  decide +kernel

/-- `TransfersHoldThePort`: a transfer due later, and an event before it. -/
theorem test_witness_transfer : ∃ t, exec (.heartbeat at0) (underLoad 8).serve = .next t
    ∧ (underLoad 8).serve.arb.port = some ⟨.refresh, 16, true⟩
    ∧ max (underLoad 8).serve.now (Instr.heartbeat at0).moment.tick < 16 := ⟨_, rfl, by decide, by decide⟩

/-- `FramesStartInBlanking`: an event outside BLANKING. -/
theorem test_witness_outside_blanking : ∃ t, exec (.heartbeat at0) (sending 0 .empty) = .next t
    ∧ (sending 0 .empty).timing.phase ≠ .blanking := ⟨_, rfl, by decide⟩

end Sys2Proof.Tests
end

/-! SUPPORT. A camera packet in SEARCHING while the store is not ready (R4): it is counted and answered, and the lane is
judged as before. With what the resets leave (Laws/Resets.lean) this settles R1's statement. -/

namespace Sys2Proof.Machine

/-! ### Store-ready -/

/-- The quiet updates do not touch store-ready: the end of initialisation sets it (R43). -/
theorem keeps_storeReady (ready : Bool) : Keeps (fun s => s.arb.storeReady = ready) where
  lanes _ _ _ _ hs := hs
  purge _ _ _ _ hs := hs
  relay _ _ _ _ hs := hs
  reports _ _ _ _ hs := hs
  jobs _ _ hs := hs
  readBuffer _ _ hs := hs
  comp _ _ hs := hs
  discard _ _ hs := hs
  hold _ k _ hs := by cases k <;> exact hs

/-! ### A Lane Receiver that waits for the store (R4) -/

theorem Receiver.mode_of_judged {a b : Receiver} (h : a.judged = b.judged) : a.mode = b.mode :=
  congrArg (f := Receiver.mode) (a₁ := a.judged) (a₂ := b.judged) h

theorem Receiver.openFrame_of_judged {a b : Receiver} (h : a.judged = b.judged) : a.openFrame = b.openFrame :=
  congrArg (f := Receiver.openFrame) (a₁ := a.judged) (a₂ := b.judged) h

/-- Lane `n` is in SEARCHING, in a mode that stores frames, and the store is not ready (R4). -/
structure State.WaitsForStore (n : Lane) (s : State) : Prop where
  searching : (s.lane n).rx.state = .searching
  stores : (s.lane n).rx.mode.stores = true
  notReady : s.arb.storeReady = false

/-- Whether a lane waits for the store is read from its judgement and store-ready. -/
theorem State.WaitsForStore.of_judged {n : Lane} {s t : State} (h : s.WaitsForStore n)
    (hj : (t.lane n).rx.judged = (s.lane n).rx.judged) (hr : t.arb.storeReady = s.arb.storeReady) :
    t.WaitsForStore n where
  searching := (Receiver.state_of_judged hj).trans h.searching
  stores := by rw [Receiver.mode_of_judged hj, h.stores]
  notReady := hr.trans h.notReady

/-- A packet with a good header leaves a lane that waits for the store as it is: a FRAME_START is ignored, and SEARCHING
judges no other kind (R2, R4). -/
theorem State.WaitsForStore.lanePacket_some {n : Lane} {s : State} (h : s.WaitsForStore n) (p : Packet) :
    s.lanePacket n (some p) = s := by
  simp only [State.lanePacket, h.searching]
  cases p.kind with
  | frameStart => simp [State.searchFrameStart, h.stores, h.notReady]
  | line => rfl
  | frameEnd => rfl

/-- A packet with a bad header is counted alone: the health count stands still in SEARCHING (R2, R13). -/
theorem State.WaitsForStore.lanePacket_none {n : Lane} {s : State} (h : s.WaitsForStore n) :
    s.lanePacket n none = s.modCounters n fun k => { k with headerErrors := count k.headerErrors 1 } := by
  have hstate : ((s.modCounters n fun k => { k with headerErrors := count k.headerErrors 1 }).lane n).rx.state
      = .searching := by
    simp [State.modCounters, h.searching]
  simp [State.lanePacket, State.badHeader, hstate, LaneState.receiving]

namespace Keeps

variable {P : State → Prop} (h : Keeps P) {s : State}
include h

/-- The answer of the Relay Unit to a packet (R28). -/
theorem takePacket (n : Lane) (now : Nat) (fields : Option RelayFields) (hs : P s) :
    P (s.relayEvent n (Relay.takePacket n now fields)) :=
  h.relayEvent n _
    ⟨Relay.flightOk_takePacket n _ _, fun hempty hne => absurd (Relay.queue_takePacket n _ _ hempty) hne⟩ hs

/-- The judgement of a packet by a lane that waits for the store makes quiet updates alone. -/
theorem lanePacket_of_waits {n : Lane} (hw : s.WaitsForStore n) (p : Option Packet) (hs : P s) :
    P (s.lanePacket n p) := by
  cases p with
  | none =>
    rw [hw.lanePacket_none]
    exact h.counters n _ hs
  | some p =>
    rw [hw.lanePacket_some]
    exact hs

/-- A camera packet to a lane that waits for the store makes quiet updates alone. -/
theorem cameraPacket_of_waits {n : Lane} (hw : s.WaitsForStore n) (bytes : List Byte) (hs : P s) :
    P (s.cameraPacket n bytes) := by
  have answered {Q : State → Prop} (hQ : Keeps Q) (hq : Q s) :
      Q ((s.countPacket n).relayEvent n
        (Relay.takePacket n (s.countPacket n).now (packetFields (parsePacket bytes)))) :=
    hQ.takePacket n _ _ (hQ.counters n _ hq)
  have waits := hw.of_judged (answered (keeps_judged n _) rfl) (answered (keeps_storeReady _) rfl)
  exact h.serve (h.lanePacket_of_waits waits _ (answered h hs))

/-- The same for the whole event CAMERA_PACKET, whether RESET_N is asserted or not. -/
theorem onEvent_cameraPacket_of_waits {n : Lane} (hw : s.WaitsForStore n) (m : Moment) (bytes : List Byte)
    (hs : P (s.advance m)) :
    P (s.onEvent m (fun s => (s.lane n).rx.hearsCamera) (State.cameraPacket n bytes)) := by
  have waits : (s.advance m).WaitsForStore n := hw.of_judged rfl rfl
  exact either (h.cameraPacket_of_waits waits bytes hs) hs

end Keeps

/-! ### What the resets leave of the lanes (R1) -/

/-- Every lane's Lane Receiver after a reset. -/
theorem State.ResetTo.rx {s t : State} (h : s.ResetTo t) (n : Lane) : (t.lane n).rx = .reset := by
  obtain ⟨hlanes, _⟩ := h.leaves
  rw [State.lane_of_const hlanes]
  rfl

/-- No report stands and no flag is raised after a reset. -/
theorem State.ResetTo.chan_quiet {s t : State} (h : s.ResetTo t) : t.chan.notices = [] ∧ t.chan.flags = 0 := by
  obtain ⟨_, _, _, _, ⟨cause, restarts, tag, hchan⟩, _⟩ := h.leaves
  rw [hchan]
  exact ⟨rfl, rfl⟩

/-- After a reset every lane waits for the store until it is ready: the lane mode is NORMAL (R1, R4). -/
theorem State.ResetTo.waitsForStore {s t : State} (h : s.ResetTo t) (hr : t.arb.storeReady = false) (n : Lane) :
    t.WaitsForStore n where
  searching := by rw [h.rx n]; rfl
  stores := by rw [h.rx n]; rfl
  notReady := hr

/-- A camera packet right after a reset, the store not ready, leaves the lane's judgement at the reset's (R4). -/
theorem State.ResetTo.exec_cameraPacket {s t : State} (h : s.ResetTo t) (hr : t.arb.storeReady = false) (n : Lane)
    (m : Moment) (bytes : List Byte) :
    ∃ u, exec (.cameraPacket m n bytes) t = .next u ∧ (u.lane n).rx.judged = Receiver.reset.judged
      ∧ u.arb.storeReady = false := by
  have waits := h.waitsForStore hr n
  have judged : ((t.advance m).lane n).rx.judged = Receiver.reset.judged := by rw [State.lane_advance, h.rx n]
  exact ⟨_, rfl, (keeps_judged n _).onEvent_cameraPacket_of_waits waits m bytes judged,
    (keeps_storeReady _).onEvent_cameraPacket_of_waits waits m bytes hr⟩

/-- Settles O1: the values are what every reset leaves; a packet then finds the lane waiting for the store. -/
theorem resetSetsReceivers : Obligations.ResetSetsReceivers := by
  intro s t h
  obtain ⟨hnotices, hflags⟩ := h.chan_quiet
  refine ⟨h.rx, hnotices, hflags, fun n m bytes hr => ?_⟩
  obtain ⟨u, hu, hjudged, hready⟩ := h.exec_cameraPacket hr n m bytes
  exact ⟨u, hu, Receiver.state_of_judged hjudged, Receiver.openFrame_of_judged hjudged, hready⟩

end Sys2Proof.Machine

/-! SUPPORT. A relay context that owes abort words (R29): nothing is in flight, a good header brings nothing in flight, and
each packet is answered with a forward word that carries part-abort until none is owed. With what the resets leave
(Laws/Resets.lean) this settles the statement of R27 and R108. -/

namespace Sys2Proof.Machine

/-! ### What leaves the abort words owed -/

/-- The context owes `k` abort words and has no message in flight, as R29 leaves it; messages may wait in its queue. -/
structure Relay.Owes (k : Nat) (r : Relay) : Prop where
  notInFlight : r.inFlight = none
  owed : r.abortOwed = k

/-- The context as every reset leaves it (R27). -/
theorem Relay.owes_reset : Relay.reset.Owes 2 := ⟨rfl, rfl⟩

/-- No message goes in flight before the abort words are out (R30). -/
theorem Relay.Owes.launch {k : Nat} {r : Relay} (h : r.Owes (k + 1)) (now : Nat) : r.launch now = r := by
  simp [Relay.launch, h.owed]

/-- Nothing in flight, nothing fails. -/
theorem Relay.Owes.failInFlight {k : Nat} {r : Relay} (h : r.Owes k) (n : Lane) (reason : RelayReason) :
    r.failInFlight n reason = (r, []) := by
  simp [Relay.failInFlight, h.notInFlight]

/-- A camera abort leaves the abort words owed (R35). -/
theorem Relay.Owes.takeAbort {k : Nat} {r : Relay} (h : r.Owes k) (n : Lane) (flag : Bool) :
    (r.takeAbort n flag).1.Owes k := by
  unfold Relay.takeAbort
  split
  · rw [h.failInFlight]
    exact ⟨h.notInFlight, h.owed⟩
  · exact ⟨h.notInFlight, h.owed⟩

/-- No byte is offered, so no ack toggle acknowledges one (R31). -/
theorem Relay.Owes.takeAck {k : Nat} {r : Relay} (h : r.Owes k) (now : Nat) (ack : Bool) : r.takeAck now ack = r := by
  simp [Relay.takeAck, h.notInFlight]

/-- No reply is awaited, so no reply byte is accepted (R32). -/
theorem Relay.Owes.takeReply {k : Nat} {r : Relay} (h : r.Owes k) (n : Lane) (now : Nat) (f : RelayFields) :
    (r.takeReply n now f).1.Owes k := by
  have notAwaited : (r.inFlight == some .awaitingReply) = false := by rw [h.notInFlight]; rfl
  simp only [Relay.takeReply, notAwaited, Bool.false_and, Bool.false_eq_true, if_false]
  exact ⟨h.notInFlight, h.owed⟩

/-- A good header's relay fields leave the abort words owed (R28). -/
theorem Relay.Owes.takeHeader {k : Nat} {r : Relay} (h : r.Owes (k + 1)) (n : Lane) (now : Nat) (f : RelayFields) :
    (r.takeHeader n now f).1.Owes (k + 1) := by
  have replied := (h.takeAbort n f.abort).takeReply n now f
  simp only [Relay.takeHeader, (h.takeAbort n f.abort).takeAck, replied.launch]
  exact replied

/-! ### The words that go out -/

theorem Relay.forwardWord_launch (now : Nat) (r : Relay) : (r.launch now).forwardWord = r.forwardWord := by
  unfold Relay.launch
  split <;> rfl

/-- The abort word: byte 0, part-abort alone of the flags set (R28, R180). -/
theorem Relay.Owes.buildWord {k : Nat} {r : Relay} (h : r.Owes (k + 1)) : r.buildWord = withCrc [0, 0x20] := by
  have partAbort : flagByte false false true false = 0x20 := by decide
  simp [Relay.buildWord, h.owed, partAbort]

/-- Sending the abort word counts it off; then the head may go in flight (R29). -/
theorem Relay.Owes.sendWord {k : Nat} {r : Relay} (h : r.Owes (k + 1)) (now : Nat) :
    r.sendWord now = { r with abortOwed := k, forwardWord := some (withCrc [0, 0x20]) }.launch now := by
  simp [Relay.sendWord, h.owed, h.buildWord]

/-- While an abort word is owed, a packet, whether its header is good or bad, is answered by sending it from a context
that owes as many (R28, R29). -/
theorem Relay.Owes.takePacket {k : Nat} {r : Relay} (h : r.Owes (k + 1)) (n : Lane) (now : Nat)
    (fields : Option RelayFields) :
    ∃ u : Relay, u.Owes (k + 1) ∧ (r.takePacket n now fields).1 = u.sendWord now := by
  cases fields with
  | none => exact ⟨{ r with candidate := none }, ⟨h.notInFlight, h.owed⟩, rfl⟩
  | some f => exact ⟨(r.takeHeader n now f).1, h.takeHeader n now f, rfl⟩

theorem Relay.Owes.forwardWord_takePacket {k : Nat} {r : Relay} (h : r.Owes (k + 1)) (n : Lane) (now : Nat)
    (fields : Option RelayFields) : (r.takePacket n now fields).1.forwardWord = some (withCrc [0, 0x20]) := by
  obtain ⟨u, hu, hsent⟩ := h.takePacket n now fields
  rw [hsent, hu.sendWord, Relay.forwardWord_launch]

/-- With more than one abort word owed, a packet leaves one fewer owed. -/
theorem Relay.Owes.owes_takePacket {k : Nat} {r : Relay} (h : r.Owes (k + 2)) (n : Lane) (now : Nat)
    (fields : Option RelayFields) : (r.takePacket n now fields).1.Owes (k + 1) := by
  obtain ⟨u, hu, hsent⟩ := h.takePacket n now fields
  have sent : ({ u with abortOwed := k + 1, forwardWord := some (withCrc [0, 0x20]) } : Relay).Owes (k + 1) :=
    ⟨hu.notInFlight, rfl⟩
  rw [hsent, hu.sendWord, sent.launch]
  exact sent

/-! ### What the resets leave of the relay contexts and the Purge Controllers (R27, R108) -/

/-- Every lane's blocks after a reset. -/
theorem State.ResetTo.lane {s t : State} (h : s.ResetTo t) (n : Lane) : t.lane n = .reset := by
  obtain ⟨hlanes, _⟩ := h.leaves
  exact State.lane_of_const hlanes n

/-- No purge is in PULSE after a reset, so no PURGEn is driven (R109). -/
theorem State.ResetTo.purgeLine {s t : State} (h : s.ResetTo t) (n : Lane) : t.purgeLine n = false := by
  rw [State.purgeLine, h.lane n]
  rfl

/-- Settles O2: the values are what every reset leaves; the context owes two abort words, which answer the first two
packets. -/
theorem resetSetsRelayAndPurge : Obligations.ResetSetsRelayAndPurge := by
  intro s t h
  refine ⟨fun n => ?_, h.chan_quiet⟩
  have values := h.lane n
  have owes : (t.lane n).relay.Owes 2 := by rw [values]; exact Relay.owes_reset
  refine ⟨⟨none, ?_⟩, ?_, h.purgeLine n, fun now later first second => ?_⟩
  · rw [values]
    rfl
  · rw [values]
    rfl
  · exact ⟨owes.forwardWord_takePacket n now first,
      (owes.owes_takePacket n now first).forwardWord_takePacket n later second⟩

end Sys2Proof.Machine

/-! SUPPORT. Stage 2 of the Dust Monitor on one tile: the two brightness and detail tests over the integers (R92, R93), the
moving average by division toward zero (R94), and what a measured tile becomes in each case. This settles the statement of
R90 to R96. -/

namespace Sys2Proof.Machine

/-! ### The moving average (R94) -/

/-- The model's division toward zero is the integers' own. -/
theorem truncDiv_eq_tdiv (a : Int) (b : Nat) : truncDiv a b = a.tdiv b := by
  obtain ⟨n, rfl | rfl⟩ := Int.eq_nat_or_neg a
  · simp [truncDiv]
  · obtain rfl | hn := Nat.eq_zero_or_pos n
    · simp [truncDiv]
    · simp [truncDiv, Nat.ne_of_gt hn]

/-- A moving average takes the truncated eighth of its distance to the new value `16m`. -/
theorem foldEighth_sixteenfold (avg m : Nat) :
    foldEighth avg (16 * m) = ((avg : Int) + (16 * (m : Int) - avg).tdiv 8).toNat := by
  simp [foldEighth, truncDiv_eq_tdiv]

/-! ### The tests (R92, R93) -/

/-- R92 over the integers: the rise above the background may be negative. -/
theorem becomesDusty_iff {k : DustSettings} {t : TileRecord} {mu act : Nat} :
    becomesDusty k t mu act = true ↔
      (16 * k.trise : Int) ≤ 16 * mu - t.mean ∧ 256 * act ≤ t.activity * k.kdrop := by
  have brighter : t.mean + 16 * k.trise ≤ 16 * mu ↔ (16 * k.trise : Int) ≤ 16 * mu - t.mean := by omega
  simp [becomesDusty, brighter]

/-- R93 over the integers. -/
theorem staysDusty_iff {k : DustSettings} {t : TileRecord} {mu act : Nat} :
    staysDusty k t mu act = true ↔
      (8 * k.trise : Int) ≤ 16 * mu - t.mean ∧ 256 * act ≤ t.activity * (k.kdrop + 2) := by
  have brighter : t.mean + 8 * k.trise ≤ 16 * mu ↔ (8 * k.trise : Int) ≤ 16 * mu - t.mean := by omega
  simp [staysDusty, brighter]

/-- The test made on an initialised tile: R92's on a CLEAR one, R93's on a DUSTY one. -/
def TileRecord.testsDusty (k : DustSettings) (t : TileRecord) (mu act : Nat) : Bool :=
  match t.state with
  | .clear => becomesDusty k t mu act
  | .dusty => staysDusty k t mu act

theorem TileRecord.testsDusty_of_clear {t : TileRecord} (hs : t.state = .clear) (k : DustSettings) (mu act : Nat) :
    t.testsDusty k mu act = becomesDusty k t mu act := by
  simp [TileRecord.testsDusty, hs]

theorem TileRecord.testsDusty_of_dusty {t : TileRecord} (hs : t.state = .dusty) (k : DustSettings) (mu act : Nat) :
    t.testsDusty k mu act = staysDusty k t mu act := by
  simp [TileRecord.testsDusty, hs]

/-! ### What a measured tile becomes (R91 to R96) -/

/-- A tile in its first measurement takes it as its background (R91). -/
theorem classifyMeasured_of_uninitialised {t : TileRecord} (hi : t.initialised = false) (k : DustSettings)
    (mu act : Nat) :
    classifyMeasured k t mu act = ⟨⟨true, .clear, 16 * mu, 16 * act, 0, t.gain, mu⟩, 16⟩ := by
  simp [classifyMeasured, hi]

/-- A tile found DUSTY keeps its background and ages; its target gain is R96's ratio. -/
theorem classifyMeasured_of_testsDusty {k : DustSettings} {t : TileRecord} {mu act : Nat}
    (hi : t.initialised = true) (h : t.testsDusty k mu act = true) :
    classifyMeasured k t mu act = ⟨{ t with state := .dusty, age := min 255 (t.age + 1), lastMean := mu },
      clampNat 16 k.gmax (t.activity / max act 1)⟩ := by
  cases hs : t.state with
  | clear =>
    rw [TileRecord.testsDusty_of_clear hs] at h
    simp [classifyMeasured, hi, hs, h, satAdd, dustyTarget]
  | dusty =>
    rw [TileRecord.testsDusty_of_dusty hs] at h
    simp [classifyMeasured, hi, hs, h, satAdd, dustyTarget]

/-- A tile found CLEAR has age 0, its background moved, and target gain 16 (R94 to R96). -/
theorem classifyMeasured_of_not_testsDusty {k : DustSettings} {t : TileRecord} {mu act : Nat}
    (hi : t.initialised = true) (h : ¬t.testsDusty k mu act = true) :
    classifyMeasured k t mu act = ⟨{ t with
      state := .clear, age := 0, lastMean := mu
      mean := ((t.mean : Int) + (16 * (mu : Int) - t.mean).tdiv 8).toNat
      activity := ((t.activity : Int) + (16 * (act : Int) - t.activity).tdiv 8).toNat }, 16⟩ := by
  rw [← foldEighth_sixteenfold, ← foldEighth_sixteenfold]
  cases hs : t.state with
  | clear =>
    rw [TileRecord.testsDusty_of_clear hs] at h
    simp [classifyMeasured, hi, hs, h]
  | dusty =>
    rw [TileRecord.testsDusty_of_dusty hs] at h
    simp [classifyMeasured, hi, hs, h]

/-! ### The tile at stage 2 (R90) -/

/-- A tile whose row has no valid line is skipped, its gain its own target (R90, R96). -/
theorem classifyTile_of_no_lines (k : DustSettings) (t : TileRecord) (luma detail : Nat) :
    classifyTile k t 0 luma detail = ⟨t, t.gain⟩ := rfl

/-- Any other tile is classified by its mean and its activity. -/
theorem classifyTile_of_lines {v : Nat} (hv : 0 < v) (k : DustSettings) (t : TileRecord) (luma detail : Nat) :
    classifyTile k t v luma detail = classifyMeasured k t (luma / (64 * v)) (detail / (63 * v)) :=
  if_neg (Nat.ne_of_gt hv)

/-- Settles O41: a tile is skipped, initialised, or judged by the test of the state it was in, whose two outcomes are R94's
and R95's. -/
theorem tilesAreClassified : Obligations.TilesAreClassified := by
  intro k t v luma detail c mu act
  have measured (hv : 0 < v) : c = classifyMeasured k t mu act := classifyTile_of_lines hv k t luma detail
  refine ⟨?skipped, fun hv hi => ?first, fun hv hi => ?tested⟩
  case skipped =>
    rintro rfl
    exact classifyTile_of_no_lines k t luma detail
  case first => rw [measured hv, classifyMeasured_of_uninitialised hi]
  case tested =>
    intro dusty
    have tests : t.testsDusty k mu act = true ↔ dusty := by
      cases hs : t.state with
      | clear => simpa [dusty, hs, TileRecord.testsDusty_of_clear hs] using becomesDusty_iff
      | dusty => simpa [dusty, hs, TileRecord.testsDusty_of_dusty hs] using staysDusty_iff
    rw [measured hv, ← tests]
    exact ⟨classifyMeasured_of_testsDusty hi, classifyMeasured_of_not_testsDusty hi⟩

end Sys2Proof.Machine

/-! SUPPORT. The congruences that core Lean has for propositions alone (the package's files import no more than it), then
what no event but a reset, or a lane write's completion, changes beyond the moment: the tick, the level of REVERSE, whether
RESET_N is held, and the DRAM. -/

namespace Sys2Proof.Machine

theorem ite_of_iff {α : Sort _} {p q : Prop} [Decidable p] [Decidable q] {a b c d : α} (h : p ↔ q) (hthen : a = c)
    (helse : b = d) : (if p then a else b) = if q then c else d :=
  ite_congr (propext h) (fun _ => hthen) fun _ => helse

theorem congr_both {α β γ : Sort _} (f : α → β → γ) {a a' : α} {b b' : β} (h : a = a') (h' : b = b') : f a b = f a' b' :=
  congr (congrArg f h) h'

/-- What every operation of a block leaves alone: the moment, RESET_N and the DRAM. -/
structure Root where
  now : Nat
  reverse : Bool
  resetAsserted : Bool
  dram : List Host.Cell

def State.root (s : State) : Root := ⟨s.now, s.reverse, s.resetAsserted, s.dram⟩

/-- Every operation that keeps the predicates of `KeepsAll` leaves the root alone. -/
theorem keepsTiming_root (d : Root) : KeepsTiming (fun u => u.root = d) where
  lanes _ _ _ _ hs := hs
  purge _ _ _ _ hs := hs
  reports _ _ _ _ hs := hs
  jobs _ _ hs := hs
  readBuffer _ _ hs := hs
  comp _ _ hs := hs
  discard _ _ hs := hs
  hold _ k _ hs := by cases k <;> exact hs
  timing _ _ hs := hs
  tone _ _ hs := hs
  tx _ _ hs := hs
  rings _ _ hs := hs

theorem keepsAll_root (d : Root) : KeepsAll (fun u => u.root = d) :=
  (keepsTiming_root d).toAll { (keepsTiming_root d).toKeepsQuiet with relay := fun _ _ _ _ hs => hs }
    (fun _ _ _ hs => hs) (fun _ _ _ hs => hs)

section Root

variable (s : State)

@[simp] theorem State.root_modLane (n : Lane) (f : LaneBlocks → LaneBlocks) : (s.modLane n f).root = s.root := rfl
@[simp] theorem State.root_modRx (n : Lane) (f : Receiver → Receiver) : (s.modRx n f).root = s.root := rfl
@[simp] theorem State.root_modRelay (n : Lane) (f : Relay → Relay) : (s.modRelay n f).root = s.root := rfl
@[simp] theorem State.root_modMotion (n : Lane) (f : Motion → Motion) : (s.modMotion n f).root = s.root := rfl
@[simp] theorem State.root_modDust (n : Lane) (f : Dust → Dust) : (s.modDust n f).root = s.root := rfl
@[simp] theorem State.root_modPurge (n : Lane) (f : Purge → Purge) : (s.modPurge n f).root = s.root := rfl
@[simp] theorem State.root_modTest (n : Lane) (f : LinkTest → LinkTest) : (s.modTest n f).root = s.root := rfl
@[simp] theorem State.root_modCounters (n : Lane) (f : LaneCounters → LaneCounters) :
    (s.modCounters n f).root = s.root := rfl
@[simp] theorem State.root_modArb (f : Arbiter → Arbiter) : (s.modArb f).root = s.root := rfl
@[simp] theorem State.root_modComp (f : Compositor → Compositor) : (s.modComp f).root = s.root := rfl
@[simp] theorem State.root_modTiming (f : Timing → Timing) : (s.modTiming f).root = s.root := rfl
@[simp] theorem State.root_modChan (f : CommandChannel → CommandChannel) : (s.modChan f).root = s.root := rfl
@[simp] theorem State.root_raise (f : EventFlag) : (s.raise f).root = s.root := rfl
@[simp] theorem State.root_pushNotice (nt : Notice) : (s.pushNotice nt).root = s.root := rfl
@[simp] theorem State.root_bringExecution : s.bringExecution.root = s.root := rfl
@[simp] theorem State.root_freePort : s.freePort.root = s.root := rfl
@[simp] theorem State.root_clearCounters : s.clearCounters.root = s.root := rfl
@[simp] theorem State.root_answer (c : CmdMessage) (code : ReplyCode) (data : List Byte) :
    (s.answer c code data).root = s.root := rfl
@[simp] theorem State.root_refuse (c : CmdMessage) (code : ReplyCode) : (s.refuse c code).root = s.root := rfl
@[simp] theorem State.root_offer (nt : Notice) : (s.offer nt).root = s.root := (keepsAll_root _).offer nt rfl
@[simp] theorem State.root_serve : s.serve.root = s.root := (keepsAll_root _).serve rfl
@[simp] theorem State.root_takeRead (data : List Byte) : (s.takeRead data).root = s.root :=
  (keepsAll_root _).takeRead data rfl
@[simp] theorem State.root_relayEvent (n : Lane) (f : Relay → Relay × List Notice) :
    (s.relayEvent n f).root = s.root := (keepsAll_root _).offerAll _ rfl
@[simp] theorem State.root_purgeEvent (n : Lane) (f : Purge → Purge × List Notice) :
    (s.purgeEvent n f).root = s.root := (keepsAll_root _).offerAll _ rfl
@[simp] theorem State.root_lanePacket (n : Lane) (p : Option Packet) : (s.lanePacket n p).root = s.root :=
  (keepsAll_root _).lanePacket n p rfl
@[simp] theorem State.root_downEntry (n : Lane) (c : DownCause) : (s.downEntry n c).root = s.root :=
  (keepsAll_root _).downEntry n c rfl
@[simp] theorem State.root_deliverLaneDown (n : Lane) : (s.deliverLaneDown n).root = s.root :=
  (keepsAll_root _).deliverLaneDown n rfl
@[simp] theorem State.root_checkMaster (n : Lane) : (s.checkMaster n).root = s.root :=
  (keepsTiming_root _).checkMaster n rfl
@[simp] theorem State.root_channelRestart (n : Lane) (c : LaneCause) (o : Origin) :
    (s.channelRestart n c o).root = s.root := by
  unfold State.channelRestart
  simp only [root_checkMaster, root_deliverLaneDown]
  split <;> simp
@[simp] theorem State.root_rearmRestart (n : Lane) (o : Origin) : (s.rearmRestart n o).root = s.root :=
  (keepsAll_root _).rearmRestart n o rfl
@[simp] theorem State.root_setLaneMode (n : Lane) (mode : LaneMode) (p : Pattern) (o : Origin) :
    (s.setLaneMode n mode p o).root = s.root := (keepsAll_root _).setLaneMode n mode p o rfl
@[simp] theorem State.root_startFrame (d : Option Lane) : (s.startFrame d).root = s.root :=
  (keepsTiming_root _).startFrame d rfl
@[simp] theorem State.root_forceStart : s.forceStart.root = s.root := (keepsTiming_root _).forceStart rfl

@[simp] theorem State.root_applyEnable (n : Lane) (on : Bool) (o : Origin) : (s.applyEnable n on o).root = s.root := by
  unfold State.applyEnable
  split
  · exact State.root_offer _ _
  · rfl
  · rfl
  · exact (keepsAll_root _).disable n o rfl

@[simp] theorem State.root_finishFetch (line : Nat) (item : FetchItem) (data : List Byte) :
    (s.finishFetch line item data).root = s.root := by
  unfold State.finishFetch
  split
  · split <;> rfl
  · rfl

@[simp] theorem State.root_freeBefore (k : Nat) : (s.freeBefore k).root = s.root := by
  unfold State.freeBefore
  split <;> rfl

@[simp] theorem State.root_beginLine : s.beginLine.root = s.root := by
  unfold State.beginLine
  simp only [root_modTiming]
  split
  · exact State.root_freeBefore _ _
  · exact State.root_freeBefore _ _

@[simp] theorem State.root_beginStatusLine : s.beginStatusLine.root = s.root := by
  unfold State.beginStatusLine
  simp only [root_bringExecution, root_modTiming, root_freeBefore]
  rfl

@[simp] theorem State.root_cameraPacket (n : Lane) (bytes : List Byte) : (s.cameraPacket n bytes).root = s.root := by
  simp [State.cameraPacket, State.countPacket]

@[simp] theorem State.root_generatorPacket (n : Lane) : (s.generatorPacket n).root = s.root := by
  unfold State.generatorPacket
  split
  · rfl
  · simp only
    split <;> simp [State.countPacket]

@[simp] theorem State.root_takeArrival (bytes : List Byte) : (s.takeArrival bytes).root = s.root := by
  rw [State.takeArrival_eq]
  rfl

@[simp] theorem State.root_endRest (n : Lane) : (s.endRest n).root = s.root := by
  unfold State.endRest
  simp only [root_purgeEvent]
  split <;> rfl

/-! ### Executions and timed events -/

variable {s}

theorem State.root_onEvent (m : Moment) (due : State → Bool) {act : State → State}
    (h : ∀ u : State, (act u).root = u.root) : (s.onEvent m due act).root = (s.advance m).root := by
  unfold State.onEvent
  split
  · exact h _
  · rfl

theorem State.root_execute (m : Moment) (named : CmdMessage → Bool) {body : CmdMessage → State → State}
    (h : ∀ (c : CmdMessage) (u : State), (body c u).root = u.root) :
    (s.execute m named body).root = (s.advance m).root := by
  unfold State.execute
  split
  · rfl
  · split
    · exact h _ _
    · rfl

@[simp] theorem State.root_ofLength (k : Nat) (c : CmdMessage) (body : State → State) :
    (s.ofLength k c body).root = if c.payload.length = k then (body s).root else s.root :=
  apply_ite State.root _ _ _

@[simp] theorem State.root_ofLane (c : CmdMessage) (body : Lane → State → State) :
    (s.ofLane c body).root = (laneArg c.payload 0).elim s.root fun n => (body n s).root := by
  unfold State.ofLane
  cases laneArg c.payload 0 <;> rfl

@[simp] theorem State.root_ofField {α : Type} (field : Option α) (c : CmdMessage) (body : α → State → State) :
    (s.ofField field c body).root = field.elim s.root fun a => (body a s).root := by
  unfold State.ofField
  cases field <;> rfl

@[simp] theorem State.root_unless (ok : Bool) (code : ReplyCode) (c : CmdMessage) (body : State → State) :
    (s.unless ok code c body).root = if ok then (body s).root else s.root :=
  apply_ite State.root _ _ _

/-- A field's two outcomes that are one. -/
@[simp] theorem option_elim_same {α β : Type} (o : Option α) (b : β) : (o.elim b fun _ => b) = b := by
  cases o <;> rfl

end Root

end Sys2Proof.Machine

namespace Sys2Proof.Machine

@[simp] theorem State.root_configShort (s : State) (c : CmdMessage) (n : Lane) : (s.configShort c n).root = s.root := by
  simp [State.configShort]

@[simp] theorem State.root_configFull (s : State) (c : CmdMessage) (n : Lane) : (s.configFull c n).root = s.root := by
  simp [State.configFull]

@[simp] theorem State.root_withTone (s : State) (t : ToneTables) : ({ s with tone := t } : State).root = s.root := rfl

@[simp] theorem State.root_loseTerminal (s : State) : s.loseTerminal.root = s.root := by
  unfold State.loseTerminal
  simp

/-- An execution of a command leaves the root as the moment leaves it, RESTART too (log 8). -/
theorem exec_root_of_command {i : Instr} {k : Nat} (hk : i.commandNumber = some k) {s t : State}
    (he : exec i s = .next t) : t.root = (s.advance i.moment).root := by
  cases i <;> simp only [Instr.commandNumber, reduceCtorEq] at hk <;> injection he with he <;> rw [← he] <;>
    refine State.root_execute _ _ fun c u => ?_
  case restart => exact (State.root_ofLength _ _ _).trans (ite_self _)
  all_goals simp [apply_ite State.root]

/-- A completion on the port: what its branches leave. -/
theorem exec_root_of_completion {i : Instr} {s t : State} (he : exec i s = .next t)
    (hi : match i with
      | .compositorFetchComplete _ | .conditioningReadComplete _ | .refreshComplete _ => True
      | _ => False) : t.root = (s.advance i.moment).root := by
  cases i <;> simp only at hi
  case compositorFetchComplete m =>
    simp only [exec, execCompositorFetchComplete] at he
    split at he
    · split at he
      · injection he with he
        rw [← he]; simp [Instr.moment]
      · split at he
        · injection he with he
          rw [← he]; simp [Instr.moment]
        · cases he
    · injection he with he
      rw [← he]; rfl
  case conditioningReadComplete m =>
    simp only [exec, execConditioningReadComplete] at he
    split at he
    · split at he
      · injection he with he
        rw [← he]; simp [Instr.moment]
      · split at he
        · injection he with he
          rw [← he]; simp [Instr.moment]
        · cases he
    · injection he with he
      rw [← he]; rfl
  case refreshComplete m =>
    simp only [exec, execRefreshComplete] at he
    split at he
    · injection he with he
      rw [← he]; simp [Instr.moment]
    · injection he with he
      rw [← he]; rfl

/-- An event that is neither a reset of the pins or the power nor the completion of a lane write. -/
def Instr.keepsRoot (i : Instr) : Prop :=
  match i with
  | .powerOn _ | .pinResetAssert _ | .pinResetRelease _ | .laneWriteComplete _ => False
  | _ => True

/-- Such an event leaves the root as its moment leaves it. -/
theorem exec_root {i : Instr} {s t : State} (he : exec i s = .next t) (hi : Instr.keepsRoot i) :
    t.root = (s.advance i.moment).root := by
  cases hk : i.commandNumber with
  | some k => exact exec_root_of_command hk he
  | none =>
    cases i <;> simp only [Instr.commandNumber, reduceCtorEq] at hk <;> simp only [Instr.keepsRoot] at hi
    case compositorFetchComplete m => exact exec_root_of_completion he trivial
    case conditioningReadComplete m => exact exec_root_of_completion he trivial
    case refreshComplete m => exact exec_root_of_completion he trivial
    case unknownCommand m =>
      injection he with he
      exact he ▸ State.root_execute _ _ fun _ _ => rfl
    case statusLineEnd m =>
      injection he with he
      exact he ▸ State.root_onEvent _ _ fun _ => rfl
    all_goals
      injection he with he
      rw [← he]
      exact State.root_onEvent _ _ fun u => by simp

/-! ### The DRAM (R41, R48) -/

/-- The canonical form is kept by every part of every command. -/
theorem keepsExec_dramWf : KeepsExec (fun s => Memory.wf s.dram = true) where
  toKeepsAll :=
    have quiet : KeepsTiming (fun s => Memory.wf s.dram = true) :=
      { lanes := fun _ _ _ _ hs => hs, purge := fun _ _ _ _ hs => hs, reports := fun _ _ _ _ hs => hs
        jobs := fun _ _ hs => hs, readBuffer := fun _ _ hs => hs, comp := fun _ _ hs => hs
        discard := fun _ _ hs => hs, hold := fun _ k _ hs => by cases k <;> exact hs
        timing := fun _ _ hs => hs, tone := fun _ _ hs => hs, tx := fun _ _ hs => hs, rings := fun _ _ hs => hs }
    quiet.toAll { quiet.toKeepsQuiet with relay := fun _ _ _ _ hs => hs } (fun _ _ _ hs => hs) (fun _ _ _ hs => hs)
  moment _ _ hs := hs
  chan _ _ _ hs := hs
  arb _ _ _ hs := hs
  free _ _ _ hs := hs
  write _ addr data hs := Memory.wf_writeRun addr data hs
  lines _ _ _ hs := hs
  tx _ _ hs := hs
  tone _ _ hs := hs
  pending _ _ hs := hs
  purges _ _ _ hs := hs

/-- What a step answers is what the command at the front of the queue does, on an empty queue nothing (log 4). -/
theorem step_cases {s t : State} (h : step s = .next t) :
    s = t ∨ ∃ i rest, s.pending = i :: rest ∧ exec i { s with pending := rest } = .next t := by
  unfold step at h
  split at h
  · injection h with h
    exact .inl h
  · exact .inr ⟨_, _, ‹_›, h⟩

/-- The DRAM right after a reset of any kind. -/
theorem exec_dram_of_apart {i : Instr} {s t : State} (he : exec i s = .next t) (ha : Instr.apart i s) :
    t.dram = [] ∨ t.dram = s.dram := by
  cases i <;> simp only [Instr.apart] at ha
  case powerOn m => injection he with he; exact .inl (he ▸ rfl)
  case pinResetAssert m => injection he with he; exact .inr (he ▸ rfl)
  case pinResetRelease m =>
    rw [exec_pinResetRelease_asserted m ha] at he
    injection he with he
    exact .inr (he ▸ rfl)
  case restart m => exact .inr (congrArg Root.dram (exec_root he trivial))
  case statusLineEnd m => exact .inr (congrArg Root.dram (exec_root he trivial))

/-- Every command keeps the canonical form of the DRAM. -/
theorem exec_dramWf {i : Instr} {s t : State} (he : exec i s = .next t) (hs : Memory.wf s.dram = true) :
    Memory.wf t.dram = true :=
  keepsExec_dramWf.exec_keeps i he (fun ha => by
    rcases exec_dram_of_apart he ha with h | h <;> rw [h]
    · rfl
    · exact hs) hs

/-- Only POWER_ON and the completion of a lane write change the DRAM. -/
theorem exec_dram {i : Instr} (hi : match i with | .powerOn _ | .laneWriteComplete _ => False | _ => True)
    {s t : State} (he : exec i s = .next t) : t.dram = s.dram := by
  cases i <;> simp only at hi
  case pinResetAssert m => injection he with he; exact he ▸ rfl
  case pinResetRelease m =>
    injection he with he
    rw [← he]
    split <;> rfl
  all_goals exact congrArg Root.dram (exec_root he trivial)

/-- Settles O54: the canonical form is kept by `writeRun` and by an empty DRAM; every other command leaves the root. -/
theorem dramKeepsItsForm : Obligations.DramKeepsItsForm := by
  refine ⟨fun s t hs h => ?_, fun i s t hi he => exec_dram hi he⟩
  rcases step_cases h with rfl | ⟨i, rest, _, he⟩
  · exact hs
  · exact exec_dramWf he hs

end Sys2Proof.Machine

/-! SUPPORT. The port: a granted transfer stays on it until it is due (R60). -/

namespace Sys2Proof.Machine

/-! ### The tick after an event (log 1) -/

/-- The completion of a lane write leaves the root but the DRAM. -/
theorem exec_root_of_laneWrite {m : Moment} {s t : State} (he : exec (.laneWriteComplete m) s = .next t) :
    t.root = { (s.advance m).root with dram := t.dram } := by
  have finished (u : State) (n : Lane) (addr : Nat) (data : List Byte) :
      (u.finishWrite n addr data).serve.root = { u.root with dram := Memory.writeRun addr data u.dram } :=
    (keepsAll_root _).serve ((keepsAll_root _).commitIfDrained n rfl)
  have of_root {u : State} (h : t.root = u.root) : t.root = { u.root with dram := t.dram } := by
    rw [show t.dram = u.dram from congrArg Root.dram h, h]
    rfl
  simp only [exec, execLaneWriteComplete] at he
  split at he
  · rename_i n slot line k data due live _
    split at he
    · injection he with he
      exact of_root (he ▸ State.root_serve _)
    · split at he
      · injection he with he
        have h := finished (s.advance m).freePort n (segmentAddress n slot line k) data
        rw [he] at h
        rw [show t.dram = _ from congrArg Root.dram h, h]
        rfl
      · cases he
  · injection he with he
    exact of_root (he ▸ rfl)

/-- Every event leaves the later of the two ticks. -/
theorem exec_now {i : Instr} {s t : State} (he : exec i s = .next t) : t.now = max s.now i.moment.tick := by
  cases i
  case powerOn m => injection he with he; exact he ▸ rfl
  case pinResetAssert m => injection he with he; exact he ▸ rfl
  case pinResetRelease m =>
    injection he with he
    rw [← he]
    split <;> rfl
  case laneWriteComplete m => exact congrArg Root.now (exec_root_of_laneWrite he)
  all_goals exact congrArg Root.now (exec_root he trivial)

/-- An event of the running part leaves RESET_N as it is. -/
theorem exec_resetAsserted {i : Instr} (hi : match i with
      | .powerOn _ | .pinResetAssert _ | .pinResetRelease _ => False
      | _ => True)
    {s t : State} (he : exec i s = .next t) : t.resetAsserted = s.resetAsserted := by
  cases i <;> simp only at hi
  case laneWriteComplete m => exact congrArg Root.resetAsserted (exec_root_of_laneWrite he)
  all_goals exact congrArg Root.resetAsserted (exec_root he trivial)

/-! ### The transfer on the port -/

/-- Until it is due the transfer `tr` stands on the port, its data live or not. -/
def State.Holds (tr : Transfer) (s : State) : Prop :=
  s.now < tr.due → ∃ live, s.arb.port = some { tr with live := live }

/-- A rule that discards data leaves a transfer's kind and time. -/
theorem State.Holds.discardTransfer {tr : Transfer} {s : State} (h : s.Holds tr) (p : TransferKind → Bool) :
    (s.discardTransfer p).Holds tr := by
  intro hdue
  obtain ⟨live, hp⟩ := h hdue
  refine ⟨if p tr.kind then false else live, ?_⟩
  simp only [State.discardTransfer, State.modArb, hp, Option.map_some]
  split <;> rfl

/-- A grant finds the port idle, so no transfer that holds it is displaced. -/
theorem State.Holds.hold {tr : Transfer} {s : State} (h : s.Holds tr) (k : TransferKind) (idle : s.arb.port = none) :
    (s.hold k).Holds tr := by
  intro hdue
  have hnow : s.now < tr.due := by cases k <;> exact hdue
  obtain ⟨live, hp⟩ := h hnow
  rw [idle] at hp
  cases hp

/-- The port is freed by a transfer that is due. -/
theorem State.Holds.freePort {tr u : Transfer} {s : State} (h : s.Holds tr) (done : s.completed = some u) :
    s.freePort.Holds tr := by
  intro hdue
  obtain ⟨live, hp⟩ := h hdue
  have early : ¬tr.due ≤ s.now := Nat.not_le.2 hdue
  simp [State.completed, hp, Option.filter, early] at done

/-- A reset leaves the transfer on the port, its data discarded (R42). -/
theorem State.Holds.orphan {tr : Transfer} {s t : State} (h : s.Holds tr) (hnow : s.now ≤ t.now)
    (hport : t.arb.port = s.arb.port.map Transfer.orphan) : t.Holds tr := by
  intro hdue
  obtain ⟨live, hp⟩ := h (Nat.lt_of_le_of_lt hnow hdue)
  rw [hport, hp, Option.map_some]
  unfold Transfer.orphan
  split
  · exact ⟨live, rfl⟩
  · exact ⟨false, rfl⟩

theorem keepsExec_holds (tr : Transfer) : KeepsExec (State.Holds tr) where
  toKeepsAll :=
    have quiet : KeepsTiming (State.Holds tr) :=
      { lanes := fun _ _ _ _ hs => hs, purge := fun _ _ _ _ hs => hs, reports := fun _ _ _ _ hs => hs
        jobs := fun _ _ hs => hs, readBuffer := fun _ _ hs => hs, comp := fun _ _ hs => hs
        discard := fun _ p hs => hs.discardTransfer p, hold := fun _ k idle hs => hs.hold k idle
        timing := fun _ _ hs => hs, tone := fun _ _ hs => hs, tx := fun _ _ hs => hs, rings := fun _ _ hs => hs }
    quiet.toAll { quiet.toKeepsQuiet with relay := fun _ _ _ _ hs => hs } (fun _ _ _ hs => hs) (fun _ _ _ hs => hs)
  moment _ _ hs hdue := hs (Nat.lt_of_le_of_lt (Nat.le_max_left _ _) hdue)
  chan _ _ _ hs := hs
  arb s f hf hs hdue := by
    obtain ⟨live, hp⟩ := hs hdue
    exact ⟨live, (hf s.arb).trans hp⟩
  free _ _ done hs := hs.freePort done
  write _ _ _ hs := hs
  lines _ _ _ hs := hs
  tx _ _ hs := hs
  tone _ _ hs := hs
  pending _ _ hs := hs
  purges _ _ _ hs := hs

/-- Every command but POWER_ON keeps a transfer on the port until it is due. -/
theorem exec_holds {i : Instr} (hi : match i with | .powerOn _ => False | _ => True) {s t : State}
    (he : exec i s = .next t) {tr : Transfer} (hs : s.Holds tr) : t.Holds tr := by
  refine (keepsExec_holds tr).exec_keeps i he (fun ha => ?_) hs
  have later : s.now ≤ t.now := exec_now he ▸ Nat.le_max_left _ _
  cases i <;> simp only [Instr.apart] at ha hi
  case pinResetAssert m => injection he with he; exact hs.orphan later (he ▸ rfl)
  case pinResetRelease m =>
    rw [exec_pinResetRelease_asserted m ha] at he
    injection he with he
    exact hs.orphan later (he ▸ rfl)
  case restart m =>
    obtain ⟨c, ready, empty⟩ := ha
    rw [exec_restart_ready m ready empty] at he
    injection he with he
    exact hs.orphan later (he ▸ rfl)
  case statusLineEnd m =>
    injection he with he
    exact he ▸ (keepsExec_holds tr).onEvent m _ _ (fun _ _ ht => ht) hs

/-- Settles O55: nothing but the port's own completion, which is not yet due, frees it. -/
theorem transfersHoldThePort : Obligations.TransfersHoldThePort := by
  intro i s t tr hi he hport early
  have held : t.Holds tr := exec_holds hi he fun _ => ⟨tr.live, hport⟩
  exact held (exec_now he ▸ early)

/-! ### Output frame starts (R141) -/

/-- The phase is not BLANKING, and the frame number and the last start are as given. -/
structure Timing.InFrame (start number : Nat) (t : Timing) : Prop where
  phase : t.phase ≠ .blanking
  lastStart : t.lastStart = start
  frameNumber : t.frameNumber = number

def State.InFrame (start number : Nat) (s : State) : Prop := s.timing.InFrame start number

theorem keeps_inFrame (start number : Nat) : Keeps (State.InFrame start number) where
  lanes _ _ _ _ hs := hs
  purge _ _ _ _ hs := hs
  relay _ _ _ _ hs := hs
  reports _ _ _ _ hs := hs
  jobs _ _ hs := hs
  readBuffer _ _ hs := hs
  comp _ _ hs := hs
  discard _ _ hs := hs
  hold _ k _ hs := by cases k <;> exact hs

/-- The loss of the master starts no frame outside BLANKING (R147). -/
theorem State.InFrame.checkMaster {start number : Nat} {s : State} (h : s.InFrame start number) (n : Lane) :
    (s.checkMaster n).InFrame start number := by
  unfold State.checkMaster
  split
  · simp only
    split
    · rename_i expired
      exact absurd (Timing.blanking_of_timer expired) h.phase
    · exact (keeps_inFrame start number).offer _ ⟨h.phase, h.lastStart, h.frameNumber⟩
  · exact h

/-- Nor does the master's offset line (R142). -/
theorem State.InFrame.lineToTiming {start number : Nat} {s : State} (h : s.InFrame start number) (n : Lane)
    (line frame : Nat) : (s.lineToTiming n line frame).InFrame start number := by
  unfold State.lineToTiming
  split
  · simp only
    split
    · rename_i blanking
      exact absurd blanking h.phase
    · exact ⟨h.phase, h.lastStart, h.frameNumber⟩
  · exact h

theorem keepsExec_inFrame (start number : Nat) : KeepsExec (State.InFrame start number) where
  toKeeps := keeps_inFrame start number
  test _ _ _ hs := hs
  rx _ _ _ _ hs := hs
  leave s n f g1 g2 _ _ h1 h2 hs :=
    have quiet := keeps_inFrame start number
    have left : (s.modRx n f).InFrame start number := hs
    (h2 _ quiet (fun _ _ _ hs => hs) _ (quiet.deliverLaneDown n (h1 _ quiet (fun _ _ _ hs => hs) _ left))).checkMaster n
  start _ _ blanking hs := absurd blanking hs.phase
  force _ blanking hs := absurd blanking hs.phase
  offset _ n l f hs := hs.lineToTiming n l f
  moment _ _ hs := hs
  chan _ _ _ hs := hs
  arb _ _ _ hs := hs
  free _ _ _ hs := hs
  write _ _ _ hs := hs
  lines s f hf hs := by
    obtain ⟨_, _, hstart, hnumber, hphase⟩ := hf s.timing
    refine ⟨?_, hstart.trans hs.lastStart, hnumber.trans hs.frameNumber⟩
    rcases hphase with hphase | hphase
    · exact hphase ▸ hs.phase
    · show (f s.timing).phase ≠ .blanking
      rw [hphase]
      decide
  tx _ _ hs := hs
  tone _ _ hs := hs
  pending _ _ hs := hs
  purges _ _ _ hs := hs

/-- The end of the status line changes the phase alone of the output timing. -/
theorem exec_statusLineEnd_timing {m : Moment} {s t : State} (he : exec (.statusLineEnd m) s = .next t) :
    t.timing = s.timing ∨ t.timing = { s.timing with phase := .blanking } := by
  injection he with he
  rw [← he]
  unfold State.onEvent
  split
  · exact .inr rfl
  · exact .inl rfl

/-- Settles O56: outside BLANKING every part of every command keeps the last start and the frame number; the end of the
status line brings BLANKING and starts nothing. -/
theorem framesStartInBlanking : Obligations.FramesStartInBlanking := by
  intro i s t hi he hphase
  by_cases hend : ∃ m, i = .statusLineEnd m
  · obtain ⟨m, rfl⟩ := hend
    rcases exec_statusLineEnd_timing he with h | h <;> rw [h] <;> exact ⟨rfl, rfl⟩
  · have kept : t.InFrame s.timing.lastStart s.timing.frameNumber := by
      refine (keepsExec_inFrame _ _).exec_keeps i he (fun ha => ?_) ⟨hphase, rfl, rfl⟩
      cases i <;> simp only [Instr.apart] at ha hi
      case statusLineEnd m => exact absurd ⟨m, rfl⟩ hend
    exact ⟨kept.lastStart, kept.frameNumber⟩

end Sys2Proof.Machine

/-! SUPPORT. What a step keeps of each lane and of the Command Channel. An invariant of one lane's blocks that the small
updates keep is kept by every command (`keepsExec_lanes`). -/

namespace Sys2Proof.Machine

/-! ### Where the resets stand -/

/-- The commands that stand apart are resets, but the end of the status line, which leaves the lanes, the Command Channel
and the master. -/
theorem resetTo_of_apart {i : Instr} {s t : State} (he : exec i s = .next t) (ha : Instr.apart i s) :
    s.ResetTo t ∨ t.lanes = s.lanes ∧ t.chan = s.chan ∧ t.timing.master = s.timing.master := by
  cases i <;> simp only [Instr.apart] at ha
  case powerOn m => exact .inl ⟨m, .inl he⟩
  case pinResetAssert m => exact .inl ⟨m, .inr (.inl he)⟩
  case pinResetRelease m => exact .inl ⟨m, .inr (.inr (.inl ⟨ha, he⟩))⟩
  case restart m =>
    obtain ⟨c, ready, empty⟩ := ha
    exact .inl ⟨m, .inr (.inr (.inr ⟨c, ready, empty, he⟩))⟩
  case statusLineEnd m =>
    injection he with he
    refine .inr ?_
    rw [← he]
    unfold State.onEvent
    split <;> exact ⟨rfl, rfl, rfl⟩

/-! ### The Command Channel (R154 to R161) -/

theorem keepsExec_chanOk : KeepsExec (fun s => s.chan.ok) where
  toKeepsAll :=
    have quiet : KeepsTiming (fun s => s.chan.ok) :=
      { lanes := fun _ _ _ _ hs => hs, purge := fun _ _ _ _ hs => hs, reports := fun _ _ hf _ hs => hf hs
        jobs := fun _ _ hs => hs, readBuffer := fun _ _ hs => hs, comp := fun _ _ hs => hs
        discard := fun _ _ hs => hs, hold := fun _ k _ hs => by cases k <;> exact hs
        timing := fun _ _ hs => hs, tone := fun _ _ hs => hs, tx := fun _ _ hs => hs, rings := fun _ _ hs => hs }
    quiet.toAll { quiet.toKeepsQuiet with relay := fun _ _ _ _ hs => hs } (fun _ _ _ hs => hs) (fun _ _ _ hs => hs)
  moment _ _ hs := hs
  chan _ _ hf hs := hf hs
  arb _ _ _ hs := hs
  free _ _ _ hs := hs
  write _ _ _ hs := hs
  lines _ _ _ hs := hs
  tx _ _ hs := hs
  tone _ _ hs := hs
  pending _ _ hs := hs
  purges _ _ _ hs := hs

theorem CommandChannel.ok_reset (cause : ResetCause) (restarts : Nat) (tag : Option Byte) :
    (CommandChannel.reset cause restarts tag).ok := by
  simp [CommandChannel.ok, CommandChannel.queueOk, CommandChannel.noticesOk, CommandChannel.flagsOk,
    CommandChannel.reset]

theorem exec_chanOk {i : Instr} {s t : State} (he : exec i s = .next t) (hs : s.chan.ok) : t.chan.ok :=
  keepsExec_chanOk.exec_keeps i he (fun ha => by
    rcases resetTo_of_apart he ha with hreset | ⟨_, hchan, _⟩
    · obtain ⟨_, _, _, _, ⟨cause, restarts, tag, hchan⟩, _⟩ := hreset.leaves
      rw [hchan]
      exact CommandChannel.ok_reset cause restarts tag
    · rw [hchan]
      exact hs) hs

/-- Settles O60: every part of every command keeps the Command Channel as a safe run has it. -/
theorem channelStaysSound : Obligations.ChannelStaysSound := by
  intro s t h hs
  rcases step_cases h with rfl | ⟨i, rest, _, he⟩
  · exact hs
  · exact exec_chanOk he hs

/-! ### An invariant of one lane's blocks -/

/-- A lane after a change of one lane. -/
theorem State.lane_modLane_of {Q : LaneBlocks → Prop} {s : State} {j k : Lane} {f : LaneBlocks → LaneBlocks}
    (h : Q (s.lane k)) (hf : k = j → Q (f (s.lane j))) : Q ((s.modLane j f).lane k) := by
  by_cases hk : k = j
  · subst hk
    simpa using hf rfl
  · rwa [State.lane_modLane_other f s hk]

/-- An invariant of a lane's blocks that each small update keeps, and every reset brings. -/
structure LaneInvariant (Q : LaneBlocks → Prop) : Prop where
  quiet : ∀ a b : LaneBlocks, a.Quiet b → Q a → Q b
  purge : ∀ (l : LaneBlocks) p, (l.purge.timersOk → p.timersOk) → Q l → Q { l with purge := p }
  relay : ∀ (l : LaneBlocks) b, l.RelayStays b → Q l → Q { l with relay := b }
  test : ∀ (l : LaneBlocks) t, Q l → Q { l with test := t }
  rx : ∀ (l : LaneBlocks) r, l.rx.Stays r → Q l → Q { l with rx := r }
  reset : Q .reset

/-- The invariant of all lanes but `n`, on which nothing is said. -/
def State.Others (Q : LaneBlocks → Prop) (n : Lane) (s : State) : Prop := ∀ k, k ≠ n → Q (s.lane k)

namespace LaneInvariant

variable {Q : LaneBlocks → Prop} (h : LaneInvariant Q)
include h

theorem keepsTiming : KeepsTiming (fun s => ∀ k, Q (s.lane k)) where
  lanes _ _ _ hf hs := State.lanes_modLane hs (h.quiet _ _ (hf _) (hs _))
  purge _ _ _ hf hs := State.lanes_modLane hs (h.purge _ _ hf (hs _))
  reports _ _ _ _ hs := hs
  jobs _ _ hs := hs
  readBuffer _ _ hs := hs
  comp _ _ hs := hs
  discard _ _ hs := hs
  hold _ k _ hs := by cases k <;> exact hs
  timing _ _ hs := hs
  tone _ _ hs := hs
  tx _ _ hs := hs
  rings s _ hs k := by
    have held := State.lane_map s LaneBlocks.atFrameStart k
    exact Eq.mpr (congrArg Q held) (h.quiet (s.lane k) _ ⟨rfl, rfl, rfl, rfl⟩ (hs k))

theorem keeps : Keeps (fun s => ∀ k, Q (s.lane k)) :=
  { h.keepsTiming.toKeepsQuiet with
    relay := fun _ _ _ hf hs => State.lanes_modLane hs (h.relay _ _ hf (hs _)) }

theorem modTest (s : State) (n : Lane) (f : LinkTest → LinkTest) (hs : ∀ k, Q (s.lane k)) :
    ∀ k, Q ((s.modTest n f).lane k) := State.lanes_modLane hs (h.test _ _ (hs n))

/-- The same for the other lanes alone. -/
theorem keeps_others (n : Lane) : Keeps (State.Others Q n) where
  lanes _ j _ hf hs k hk := State.lane_modLane_of (hs k hk) fun e => h.quiet _ _ (hf _) (hs j (e ▸ hk))
  purge _ j _ hf hs k hk := State.lane_modLane_of (hs k hk) fun e => h.purge _ _ hf (hs j (e ▸ hk))
  relay _ j _ hf hs k hk := State.lane_modLane_of (hs k hk) fun e => h.relay _ _ hf (hs j (e ▸ hk))
  reports _ _ _ _ hs := hs
  jobs _ _ hs := hs
  readBuffer _ _ hs := hs
  comp _ _ hs := hs
  discard _ _ hs := hs
  hold _ k _ hs := by cases k <;> exact hs

theorem others_modTest (n : Lane) (s : State) (j : Lane) (f : LinkTest → LinkTest) (hs : State.Others Q n s) :
    State.Others Q n (s.modTest j f) :=
  fun k hk => State.lane_modLane_of (hs k hk) fun e => h.test _ _ (hs j (e ▸ hk))

/-- What every command keeps of every lane, when a lane that leaves its state with its lane down is left with it. -/
theorem keepsExec (hleave : ∀ (s : State) n f g, ((s.lane n).rx.healthOk → (f (s.lane n).rx).healthOk) → Quietly g →
      (∀ k, Q (s.lane k)) → ∀ k, Q (((g (s.modRx n f)).deliverLaneDown n).lane k))
    (hpurges : ∀ (l m : LaneBlocks), m.rx = l.rx → m.relay = l.relay → (l.purge.timersOk → m.purge.timersOk) →
      Q l → Q m) :
    KeepsExec (fun s => ∀ k, Q (s.lane k)) where
  toKeeps := h.keeps
  test := h.modTest
  rx _ _ _ hf hs := State.lanes_modLane hs (h.rx _ _ hf (hs _))
  leave s n f g1 g2 hf _ h1 h2 hs :=
    h.keepsTiming.checkMaster n (h2 _ h.keeps h.modTest _ (hleave s n f g1 hf h1 hs))
  start _ d _ hs := h.keepsTiming.startFrame d hs
  force _ _ hs := h.keepsTiming.forceStart hs
  offset _ n l f hs := h.keepsTiming.lineToTiming n l f hs
  moment _ _ hs := hs
  chan _ _ _ hs := hs
  arb _ _ _ hs := hs
  free _ _ _ hs := hs
  write _ _ _ hs := hs
  lines _ _ _ hs := hs
  tx _ _ hs := hs
  tone _ _ hs := hs
  pending _ _ hs := hs
  purges s f hf hs k := by
    have held := State.lane_map s f k
    obtain ⟨hrx, hrelay, hpurge⟩ := hf (s.lane k)
    exact Eq.mpr (congrArg Q held) (hpurges _ _ hrx hrelay hpurge (hs k))

/-- A change of the receiver that keeps it, whatever it is, leaves it at the lane down. -/
theorem keepsExec_of_rx (hrx : ∀ (l : LaneBlocks) r, (l.rx.healthOk → r.healthOk) → Q l → Q { l with rx := r })
    (hpurges : ∀ (l m : LaneBlocks), m.rx = l.rx → m.relay = l.relay → (l.purge.timersOk → m.purge.timersOk) →
      Q l → Q m) :
    KeepsExec (fun s => ∀ k, Q (s.lane k)) :=
  h.keepsExec (fun _ n _ _ hf hg hs => h.keeps.deliverLaneDown n (hg _ h.keeps h.modTest _
    (State.lanes_modLane hs (hrx _ _ hf (hs _))))) hpurges

/-- Every step keeps it. -/
theorem of_step (hk : KeepsExec (fun s => ∀ k, Q (s.lane k))) {s t : State} (hstep : step s = .next t)
    (hs : ∀ k, Q (s.lane k)) : ∀ k, Q (t.lane k) := by
  rcases step_cases hstep with rfl | ⟨i, rest, _, he⟩
  · exact hs
  · refine hk.exec_keeps i he (fun ha => ?_) hs
    rcases resetTo_of_apart he ha with hreset | ⟨hlanes, _⟩
    · exact fun k => hreset.lane k ▸ h.reset
    · intro k
      rw [State.lane, hlanes]
      exact hs k

end LaneInvariant

/-! ### Health and attempts (R13, R16) -/

theorem Receiver.healthOk_of_judged {a b : Receiver} (h : b.judged = a.judged) (ha : a.healthOk) : b.healthOk := by
  have hhealth := congrArg Receiver.health h
  have hstate := congrArg Receiver.state h
  have hattempts := congrArg Receiver.attempts h
  simp only [Receiver.judged] at hhealth hstate hattempts
  simpa only [Receiver.healthOk, hhealth, hstate, hattempts] using ha

theorem Receiver.mayHold_of_judged {a b : Receiver} (h : b.judged = a.judged) (ha : a.mayHold) : b.mayHold := by
  have hstate := congrArg Receiver.state h
  have hmode := congrArg Receiver.mode h
  simp only [Receiver.judged] at hstate hmode
  simpa only [Receiver.mayHold, hstate, hmode] using ha

theorem laneInvariant_health : LaneInvariant (fun l => l.rx.healthOk) where
  quiet _ _ hq hs := Receiver.healthOk_of_judged hq.1 hs
  purge _ _ _ hs := hs
  relay _ _ _ hs := hs
  test _ _ hs := hs
  rx _ _ hf hs := hf.health hs
  reset := by decide

theorem keepsExec_health : KeepsExec (fun s => ∀ n, (s.lane n).rx.healthOk) :=
  laneInvariant_health.keepsExec_of_rx (fun _ _ hf hs => hf hs) fun _ _ hrx _ _ hs => hrx.symm ▸ hs

/-! ### Purge timers (R110 to R113) -/

theorem laneInvariant_purge : LaneInvariant (fun l => l.purge.timersOk) where
  quiet _ _ hq hs := hq.2.2.1.symm ▸ hs
  purge _ _ hf hs := hf hs
  relay _ _ _ hs := hs
  test _ _ hs := hs
  rx _ _ _ hs := hs
  reset := by decide

theorem keepsExec_purge : KeepsExec (fun s => ∀ n, (s.lane n).purge.timersOk) :=
  laneInvariant_purge.keepsExec_of_rx (fun _ _ _ hs => hs) fun _ _ _ _ hp hs => hp hs

/-! ### Relay flight (R29, R30, R34) -/

theorem laneInvariant_flight : LaneInvariant (fun l => l.relay.flightOk) where
  quiet _ _ hq hs := hq.2.1.symm ▸ hs
  purge _ _ _ hs := hs
  relay _ _ hf hs := hf.flight hs
  test _ _ hs := hs
  rx _ _ _ hs := hs
  reset := by decide

theorem keepsExec_flight : KeepsExec (fun s => ∀ n, (s.lane n).relay.flightOk) :=
  laneInvariant_flight.keepsExec_of_rx (fun _ _ _ hs => hs) fun _ _ _ hr _ hs => hr.symm ▸ hs

/-! ### Relay queues (R30) -/

theorem laneInvariant_messages : LaneInvariant LaneBlocks.messagesOk where
  quiet _ _ hq hs hne := Receiver.mayHold_of_judged hq.1 (hs (hq.2.1 ▸ hne))
  purge _ _ _ hs := hs
  relay l _ hf hs hne := by
    by_cases hempty : l.relay.queue = []
    · exact hf.fill hempty hne
    · exact hs hempty
  test _ _ hs := hs
  rx _ _ hf hs hne := hf.messages (hs hne)
  reset := by decide

/-- The lane down empties the lane's relay queue, whatever its receiver has become (R36). -/
theorem messagesOk_deliverLaneDown {s : State} {n : Lane} (hs : State.Others LaneBlocks.messagesOk n s) :
    ∀ k, ((s.deliverLaneDown n).lane k).messagesOk := by
  have inv := laneInvariant_messages
  refine inv.keeps.startJobs (inv.keeps.abandonJob n (inv.keeps.offerAll _ fun k => ?_))
  by_cases hk : k = n
  · subst hk
    intro hne
    exact absurd (by simp [Relay.queue_laneDown]) hne
  · rw [State.lane_modRelay_other _ _ hk]
    exact (inv.keeps_others n).storeLaneDown n hs k hk

theorem keepsExec_messages : KeepsExec (fun s => ∀ n, (s.lane n).messagesOk) := by
  have inv := laneInvariant_messages
  refine inv.keepsExec (fun s n f g _ hg hs => messagesOk_deliverLaneDown ?_) fun l m hrx hrelay _ hs => ?_
  · refine hg _ (inv.keeps_others n) (inv.others_modTest n) _ fun k hk => ?_
    rw [State.lane_modRx_other _ _ hk]
    exact hs k
  · simpa only [LaneBlocks.messagesOk, hrx, hrelay] using hs

/-- Settles O57: each of the four invariants is one of a lane's blocks that every small update keeps; a lane down empties
the relay queue. -/
theorem lanesStaySound : Obligations.LanesStaySound := fun _ _ h =>
  ⟨laneInvariant_health.of_step keepsExec_health h, laneInvariant_purge.of_step keepsExec_purge h,
    laneInvariant_flight.of_step keepsExec_flight h, laneInvariant_messages.of_step keepsExec_messages h⟩

end Sys2Proof.Machine

/-! SUPPORT. The timing master and the start watch (R139, R141, R147), and what RESET_N holds while it is asserted. -/

namespace Sys2Proof.Machine

/-! ### What RESET_N holds (log 6) -/

theorem State.onEvent_asserted {s : State} (h : s.resetAsserted = true) (m : Moment) (due : State → Bool)
    (act : State → State) : s.onEvent m due act = s.advance m := by
  simp [State.onEvent, h]

theorem State.execute_asserted {s : State} (h : s.resetAsserted = true) (m : Moment) (named : CmdMessage → Bool)
    (body : CmdMessage → State → State) : s.execute m named body = s.advance m := by
  unfold State.execute
  split
  · rfl
  · simp [State.executes, h]

/-- An event that is neither a reset of the power or the pins nor a completion on the port. -/
def Instr.isHeld (i : Instr) : Prop :=
  match i with
  | .powerOn _ | .pinResetAssert _ | .pinResetRelease _ | .laneWriteComplete _ | .compositorFetchComplete _
  | .conditioningReadComplete _ | .refreshComplete _ => False
  | _ => True

/-- While RESET_N is asserted such an event only lets time pass. -/
theorem exec_of_asserted {i : Instr} (hi : Instr.isHeld i) {s : State} (h : s.resetAsserted = true) :
    exec i s = .next (s.advance i.moment) := by
  cases i <;> simp only [Instr.isHeld] at hi
  case dramInitComplete | cameraPacket | generatorPacket | silenceTimerExpiry | recoveryTimerExpiry | progressTimerExpiry
      | refreshTimerExpiry | flywheelDeadlineExpiry | outputTimerExpiry | activeLineBegin | statusLineEvent
      | statusLineEnd | pulseTimerExpiry | settleTimerExpiry | cooldownTimerExpiry | heartbeatTimerExpiry
      | commandMessageArrival | backlaneGapTimeout =>
    exact congrArg _ (State.onEvent_asserted h _ _ _)
  all_goals exact congrArg _ (State.execute_asserted h _ _ _)

/-! ### What leaves the output timing alone -/

theorem keeps_timing (t : Timing) : Keeps (fun s => s.timing = t) where
  lanes _ _ _ _ hs := hs
  purge _ _ _ _ hs := hs
  relay _ _ _ _ hs := hs
  reports _ _ _ _ hs := hs
  jobs _ _ hs := hs
  readBuffer _ _ hs := hs
  comp _ _ hs := hs
  discard _ _ hs := hs
  hold _ k _ hs := by cases k <;> exact hs

@[simp] theorem State.timing_serve (s : State) : s.serve.timing = s.timing := (keeps_timing _).serve rfl

theorem State.timing_finishFetch (line : Nat) (item : FetchItem) (data : List Byte) (s : State) :
    (s.finishFetch line item data).timing = s.timing := by
  unfold State.finishFetch
  split
  · split <;> rfl
  · rfl

/-- A completion on the port leaves the output timing. -/
theorem exec_timing_of_completion {i : Instr}
    (hi : match i with
      | .laneWriteComplete _ | .compositorFetchComplete _ | .conditioningReadComplete _ | .refreshComplete _ => True
      | _ => False)
    {s t : State} (he : exec i s = .next t) : t.timing = s.timing := by
  cases i <;> simp only at hi
  case laneWriteComplete m =>
    simp only [exec, execLaneWriteComplete] at he
    split at he
    · split at he
      · injection he with he
        exact he ▸ State.timing_serve _
      · split at he
        · injection he with he
          exact he ▸ (State.timing_serve _).trans ((keeps_timing _).commitIfDrained _ rfl)
        · cases he
    · injection he with he
      exact he ▸ rfl
  case compositorFetchComplete m =>
    simp only [exec, execCompositorFetchComplete] at he
    split at he
    · split at he
      · injection he with he
        exact he ▸ State.timing_serve _
      · split at he
        · injection he with he
          exact he ▸ (State.timing_serve _).trans (State.timing_finishFetch _ _ _ _)
        · cases he
    · injection he with he
      exact he ▸ rfl
  case conditioningReadComplete m =>
    simp only [exec, execConditioningReadComplete] at he
    split at he
    · split at he
      · injection he with he
        exact he ▸ State.timing_serve _
      · split at he
        · injection he with he
          exact he ▸ (State.timing_serve _).trans ((keeps_timing _).takeRead _ rfl)
        · cases he
    · injection he with he
      exact he ▸ rfl
  case refreshComplete m =>
    simp only [exec, execRefreshComplete] at he
    split at he
    · injection he with he
      exact he ▸ State.timing_serve _
    · injection he with he
      exact he ▸ rfl

/-! ### The master (R147) -/

theorem Receiver.video_iff {r : Receiver} : r.video = true ↔ r.state = .locked ∧ r.mode = .normal := by
  simp [Receiver.video]

theorem Receiver.video_of_judged {a b : Receiver} (h : b.judged = a.judged) : b.video = a.video := by
  have hstate := congrArg Receiver.state h
  have hmode := congrArg Receiver.mode h
  simp only [Receiver.judged] at hstate hmode
  simp only [Receiver.video, hstate, hmode]

/-- The master, if lane `k` is it, is LOCKED in NORMAL. -/
def State.masterAt (s : State) (k : Lane) : Prop := s.timing.master = some k → (s.lane k).rx.video = true

theorem State.masterOk_iff {s : State} : s.masterOk ↔ ∀ k, s.masterAt k := by
  simp only [State.masterOk, State.masterAt, Receiver.video_iff]

theorem State.masterAt_modLane {s : State} {n k : Lane} {f : LaneBlocks → LaneBlocks} (h : s.masterAt k)
    (hf : (s.lane n).rx.video = true → (f (s.lane n)).rx.video = true) : (s.modLane n f).masterAt k := by
  intro hm
  exact State.lane_modLane_of (Q := fun l => l.rx.video = true) (h hm) fun e => hf (e ▸ h hm)

theorem keeps_masterAt (k : Lane) : Keeps (fun s => s.masterAt k) where
  lanes _ _ _ hf hs := State.masterAt_modLane hs fun hv => (Receiver.video_of_judged (hf _).1).trans hv
  purge _ _ _ _ hs := State.masterAt_modLane hs id
  relay _ _ _ _ hs := State.masterAt_modLane hs id
  reports _ _ _ _ hs := hs
  jobs _ _ hs := hs
  readBuffer _ _ hs := hs
  comp _ _ hs := hs
  discard _ _ hs := hs
  hold _ k _ hs := by cases k <;> exact hs

theorem keeps_master : Keeps (fun s => ∀ k, s.masterAt k) where
  lanes s n f hf hs k := (keeps_masterAt k).lanes s n f hf (hs k)
  purge s n f hf hs k := (keeps_masterAt k).purge s n f hf (hs k)
  relay s n f hf hs k := (keeps_masterAt k).relay s n f hf (hs k)
  reports _ _ _ _ hs := hs
  jobs _ _ hs := hs
  readBuffer _ _ hs := hs
  comp _ _ hs := hs
  discard _ _ hs := hs
  hold _ k _ hs := by cases k <;> exact hs

/-- A lane that the mode names as candidate is LOCKED in NORMAL (R146). -/
theorem State.video_of_candidate {s : State} {d : Option Lane} {n : Lane} (h : s.candidate d = some n) :
    (s.lane n).rx.video = true := by
  have of_qualifies (hq : s.qualifies d n = true) : (s.lane n).rx.video = true :=
    (Bool.and_eq_true_iff.1 hq).1
  unfold State.candidate at h
  split at h
  · exact of_qualifies (List.find?_some h)
  · split at h
    · cases h
      exact of_qualifies ‹_›
    · cases h
  · cases h

/-- After a selection the master, if any, is the candidate (R146). -/
theorem State.selectMaster_masterAt (s : State) (d : Option Lane) : ∀ k, (s.selectMaster d).masterAt k := by
  have chosen {n : Lane} (hn : s.candidate d = some n) (nt : Notice) :
      ∀ k, ((s.modTiming (Timing.choose n)).offer nt).masterAt k := by
    refine keeps_master.offer nt fun k hm => ?_
    cases hm
    exact State.video_of_candidate hn
  unfold State.selectMaster
  simp only
  split
  · split
    · rename_i p n hp hn hpn
      intro k hm
      rw [hp] at hm
      cases hm
      exact State.video_of_candidate (hpn ▸ hn)
    · rename_i hn _
      exact chosen hn _
  · rename_i hn
    exact chosen hn _
  · refine keeps_master.offer _ fun k hm => ?_
    cases hm
  · rename_i hnone _
    intro k hm
    have hm : s.timing.master = some k := hm
    rw [hnone] at hm
    cases hm

/-- An output frame start leaves a master that is LOCKED in NORMAL, whatever stood before (R145, R146). -/
theorem State.startFrame_masterAt (s : State) (d : Option Lane) : ∀ k, (s.startFrame d).masterAt k := by
  intro k hm
  have selected := ((((s.modTiming Timing.numberFrame).applyRaster).modTiming Timing.latchSync).selectMaster_masterAt d) k hm
  unfold State.startFrame State.composeFrame
  show ((_ : Four LaneBlocks).map LaneBlocks.atFrameStart |>.get k).rx.video = true
  rw [Four.get_map]
  exact selected

theorem State.masterAt_lineToTiming {s : State} (hs : ∀ k, s.masterAt k) (n : Lane) (line frame : Nat) :
    ∀ k, (s.lineToTiming n line frame).masterAt k := by
  unfold State.lineToTiming
  split
  · simp only
    split
    · exact State.startFrame_masterAt _ _
    · exact hs
  · exact hs

/-- A lane that is no longer LOCKED in NORMAL is no longer master after the loss (R147). -/
theorem State.masterAt_checkMaster {s : State} {n : Lane} (hs : ∀ k, k ≠ n → s.masterAt k) :
    ∀ k, (s.checkMaster n).masterAt k := by
  unfold State.checkMaster
  split
  · simp only
    split
    · exact State.startFrame_masterAt _ _
    · refine keeps_master.offer _ fun k hm => ?_
      cases hm
  · rename_i hstays
    intro k
    by_cases hk : k = n
    · subst hk
      intro hm
      refine Classical.byContradiction fun hv => ?_
      exact hstays ⟨hm, by simpa using hv⟩
    · exact hs k hk

theorem State.masterAt_modTest (s : State) (n : Lane) (f : LinkTest → LinkTest) (k : Lane) (hs : s.masterAt k) :
    (s.modTest n f).masterAt k := State.masterAt_modLane hs id

theorem keepsExec_master : KeepsExec (fun s => ∀ k, s.masterAt k) where
  toKeeps := keeps_master
  test s n f hs k := State.masterAt_modTest s n f k (hs k)
  rx _ _ _ hf hs k := State.masterAt_modLane (hs k) hf.video
  leave s n f g1 g2 _ _ h1 h2 hs := by
    refine State.masterAt_checkMaster fun k hk => ?_
    have quiet := keeps_masterAt k
    have htest : ∀ s n f, State.masterAt s k → State.masterAt (s.modTest n f) k :=
      fun s n f => State.masterAt_modTest s n f k
    refine h2 _ quiet htest _ (quiet.deliverLaneDown n (h1 _ quiet htest _ ?_))
    intro hm
    rw [State.lane_modRx_other _ _ hk]
    exact hs k hm
  start s d _ _ := s.startFrame_masterAt d
  force _ _ _ := State.startFrame_masterAt _ _
  offset _ n l f hs := State.masterAt_lineToTiming hs n l f
  moment _ _ hs := hs
  chan _ _ _ hs := hs
  arb _ _ _ hs := hs
  free _ _ _ hs := hs
  write _ _ _ hs := hs
  lines s f hf hs k hm := hs k ((hf s.timing).1.symm.trans hm)
  tx _ _ hs := hs
  tone _ _ hs := hs
  pending _ _ hs := hs
  purges s f hf hs k hm := by
    have held := State.lane_map s f k
    exact Eq.mpr (congrArg (fun l : LaneBlocks => l.rx.video = true) held) ((hf (s.lane k)).1 ▸ hs k hm)

/-- No master exists after a reset (R139). -/
theorem State.ResetTo.masterAt {s t : State} (h : s.ResetTo t) (k : Lane) : t.masterAt k := by
  intro hm
  obtain ⟨_, _, _, htiming, _⟩ := h.leaves
  rcases htiming with ht | ht <;> rw [ht] at hm <;> cases hm

/-! ### The start watch (R139, R141) -/

/-- The watch is the deadline with a master and the timer without one. -/
def Timing.watched (t : Timing) : Prop :=
  match t.watch with
  | some (.deadline _) => t.master.isSome = true
  | some (.timer _) => t.master = none
  | none => False

theorem Timing.watched_beginFrame (now : Nat) (t : Timing) : (t.beginFrame now).watched := by
  unfold Timing.beginFrame Timing.watched
  cases hm : t.master <;> simp

theorem Timing.watched_lose (t : Timing) : t.lose.loseWatch.watched := rfl

theorem keeps_watched : Keeps (fun s => s.timing.watched) where
  lanes _ _ _ _ hs := hs
  purge _ _ _ _ hs := hs
  relay _ _ _ _ hs := hs
  reports _ _ _ _ hs := hs
  jobs _ _ hs := hs
  readBuffer _ _ hs := hs
  comp _ _ hs := hs
  discard _ _ hs := hs
  hold _ k _ hs := by cases k <;> exact hs

theorem State.startFrame_watched (s : State) (d : Option Lane) : (s.startFrame d).timing.watched :=
  Timing.watched_beginFrame _ _

theorem State.watched_checkMaster {s : State} (hs : s.timing.watched) (n : Lane) :
    (s.checkMaster n).timing.watched := by
  unfold State.checkMaster
  split
  · simp only
    split
    · exact State.startFrame_watched _ _
    · exact keeps_watched.offer _ (Timing.watched_lose _)
  · exact hs

theorem State.watched_lineToTiming {s : State} (hs : s.timing.watched) (n : Lane) (line frame : Nat) :
    (s.lineToTiming n line frame).timing.watched := by
  unfold State.lineToTiming
  split
  · simp only
    split
    · exact State.startFrame_watched _ _
    · exact hs
  · exact hs

theorem keepsExec_watched : KeepsExec (fun s => s.timing.watched) where
  toKeeps := keeps_watched
  test _ _ _ hs := hs
  rx _ _ _ _ hs := hs
  leave s n f g1 g2 _ _ h1 h2 hs :=
    have left : (s.modRx n f).timing.watched := hs
    State.watched_checkMaster (h2 _ keeps_watched (fun _ _ _ hs => hs) _ (keeps_watched.deliverLaneDown n
      (h1 _ keeps_watched (fun _ _ _ hs => hs) _ left))) n
  start s d _ _ := s.startFrame_watched d
  force _ _ _ := State.startFrame_watched _ _
  offset _ n l f hs := State.watched_lineToTiming hs n l f
  moment _ _ hs := hs
  chan _ _ _ hs := hs
  arb _ _ _ hs := hs
  free _ _ _ hs := hs
  write _ _ _ hs := hs
  lines s f hf hs := by
    obtain ⟨hmaster, hwatch, _⟩ := hf s.timing
    simpa only [Timing.watched, State.modTiming_timing, hmaster, hwatch] using hs
  tx _ _ hs := hs
  tone _ _ hs := hs
  pending _ _ hs := hs
  purges _ _ _ hs := hs

theorem State.watchOk_of_running {s : State} (h : s.resetAsserted = false) : s.watchOk ↔ s.timing.watched := by
  unfold State.watchOk Timing.watched
  split <;> simp_all

theorem State.watchOk_of_asserted {s : State} (h : s.resetAsserted = true) :
    s.watchOk ↔ s.timing.watch = none ∧ s.timing.master = none := by
  unfold State.watchOk
  split <;> simp_all

/-- After a reset no master stands; the timer is armed but while RESET_N is asserted (R139). -/
theorem watchOk_of_apart {i : Instr} {s t : State} (he : exec i s = .next t) (ha : Instr.apart i s)
    (hs : s.resetAsserted = false → s.timing.watched) (hend : s.resetAsserted = true → s.watchOk) : t.watchOk := by
  cases i <;> simp only [Instr.apart] at ha
  case powerOn m => injection he with he; exact he ▸ ⟨rfl, rfl⟩
  case pinResetAssert m => injection he with he; exact he ▸ ⟨rfl, rfl⟩
  case pinResetRelease m =>
    rw [exec_pinResetRelease_asserted m ha] at he
    injection he with he
    exact he ▸ ⟨rfl, rfl⟩
  case restart m =>
    obtain ⟨c, ready, empty⟩ := ha
    rw [exec_restart_ready m ready empty] at he
    injection he with he
    exact he ▸ ⟨rfl, ready.1⟩
  case statusLineEnd m =>
    have hreset := exec_resetAsserted (i := .statusLineEnd m) trivial he
    have htiming := exec_statusLineEnd_timing he
    cases hr : s.resetAsserted with
    | false =>
      rw [State.watchOk_of_running (hreset.trans hr)]
      rcases htiming with h | h <;> exact h ▸ hs hr
    | true =>
      obtain ⟨hwatch, hmaster⟩ := (State.watchOk_of_asserted hr).1 (hend hr)
      rw [State.watchOk_of_asserted (hreset.trans hr)]
      rcases htiming with h | h <;> exact h ▸ ⟨hwatch, hmaster⟩

/-- Every command keeps the start watch in agreement with the master. -/
theorem exec_watchOk {i : Instr} {s t : State} (he : exec i s = .next t) (hs : s.watchOk) : t.watchOk := by
  have running (hr : s.resetAsserted = false) : s.timing.watched := (State.watchOk_of_running hr).1 hs
  by_cases ha : Instr.apart i s
  · exact watchOk_of_apart he ha running fun _ => hs
  · cases hr : s.resetAsserted with
    | false =>
      have kept := keepsExec_watched.exec_keeps i he (fun h => absurd h ha) (running hr)
      have hreset : t.resetAsserted = false := by
        cases i <;> simp only [Instr.apart, not_true_eq_false] at ha
        case pinResetRelease m =>
          injection he with he
          rw [← he, if_neg (by simp [hr])]
          exact hr
        all_goals exact (exec_resetAsserted trivial he).trans hr
      exact (State.watchOk_of_running hreset).2 kept
    | true =>
      obtain ⟨hwatch, hmaster⟩ := (State.watchOk_of_asserted hr).1 hs
      have kept : t.timing = s.timing ∧ t.resetAsserted = true := by
        by_cases hheld : Instr.isHeld i
        · rw [exec_of_asserted hheld hr] at he
          injection he with he
          exact he ▸ ⟨rfl, hr⟩
        · cases i <;> simp only [Instr.isHeld, Instr.apart, not_true_eq_false, hr] at hheld ha
          all_goals exact ⟨exec_timing_of_completion trivial he, (exec_resetAsserted trivial he).trans hr⟩
      rw [State.watchOk_of_asserted kept.2, kept.1]
      exact ⟨hwatch, hmaster⟩

theorem exec_masterOk {i : Instr} {s t : State} (he : exec i s = .next t) (hs : s.masterOk) : t.masterOk := by
  rw [State.masterOk_iff] at hs ⊢
  refine keepsExec_master.exec_keeps i he (fun ha => ?_) hs
  rcases resetTo_of_apart he ha with hreset | ⟨hlanes, _, hmaster⟩
  · exact hreset.masterAt
  · intro k hm
    rw [State.lane, hlanes]
    exact hs k (hmaster ▸ hm)

/-- Settles O59: the master is a candidate when it is selected, and is lost with the lane's LOCKED or NORMAL; the watch is
armed with it. -/
theorem masterStaysLocked : Obligations.MasterStaysLocked := by
  intro s t h
  rcases step_cases h with rfl | ⟨i, rest, _, he⟩
  · exact ⟨id, id⟩
  · exact ⟨fun hs => exec_masterOk he hs, fun hs => exec_watchOk he hs⟩

end Sys2Proof.Machine

/-! SUPPORT. The three resets (R42, R43, R64, R86, R118, R139, R163, R166, R170), the step, and the state right after a
reset as a safe run has it. -/

namespace Sys2Proof.Machine

/-! ### The step (log 4) -/

/-- Settles O6: both branches of `step`. -/
theorem stepTakesTheFront : Obligations.StepTakesTheFront := by
  refine ⟨fun c rest s h => ?_, fun s h => ?_⟩ <;> simp only [step, h]

/-! ### What a reset leaves -/

/-- No FAULT and no PURGEn is driven with every lane at its reset values and supervision in STARTUP (R109, R164). -/
theorem State.lines_of_reset {t : State} (hlanes : t.lanes = Four.const .reset)
    (hsup : t.chan.supervision = .startup) : t.faultLine = false ∧ ∀ n, t.purgeLine n = false := by
  refine ⟨?_, fun n => ?_⟩
  · simp [State.faultLine, hlanes, hsup, Four.const, Four.toList, LaneBlocks.reset, Receiver.reset]
  · rw [State.purgeLine, State.lane_of_const hlanes]
    rfl

/-- The arbiter looks at lane 0 first after every reset (R42). -/
theorem State.ResetTo.lastGranted {s t : State} (h : s.ResetTo t) : t.arb.lastGranted = 3 := by
  obtain ⟨m, h | h | ⟨hr, h⟩ | ⟨c, ready, empty, h⟩⟩ := h
  · injection h with h
    exact h ▸ rfl
  · injection h with h
    exact h ▸ rfl
  · rw [exec_pinResetRelease_asserted m hr] at h
    injection h with h
    exact h ▸ rfl
  · rw [exec_restart_ready m ready empty] at h
    injection h with h
    exact h ▸ rfl

/-- The identity tone table gives each luma itself (R86). -/
theorem toneIdentity_getD {y : Nat} (hy : y < 256) : (toneIdentity.getD y 0).toNat = y := by
  simp [toneIdentity, List.getD_eq_getElem?_getD, List.getElem?_range hy]
  omega

/-- The output timing after a reset, but for the watch and what the model alone has in it (R139). -/
theorem State.ResetTo.timing {s t : State} (h : s.ResetTo t) :
    t.timing = { Timing.reset t.now with watch := t.timing.watch } := by
  obtain ⟨_, _, _, htiming, _⟩ := h.leaves
  rcases htiming with ht | ht <;> exact ht ▸ rfl

/-- Settles O3: every value is what `State.ResetTo.leaves` names. -/
theorem resetSetsPictureBlocks : Obligations.ResetSetsPictureBlocks := by
  intro s t h
  have hlane := h.lane
  have htiming := h.timing
  have hgranted := h.lastGranted
  obtain ⟨_, hjobs, _, _, _, hcomp, htone, htx, hbuffer⟩ := h.leaves
  refine ⟨hjobs, hbuffer, hgranted, fun n => ?_, fun b y hy => ?_, hcomp, ?_, ?_⟩
  · rw [hlane n]
    exact ⟨rfl, rfl, rfl, rfl, rfl⟩
  · rw [htone]
    simp only [ToneTables.reset, Four.get_const]
    exact ⟨toneIdentity_getD hy, toneIdentity_getD hy⟩
  · rw [htiming]
    rfl
  · rw [htx]
    rfl

/-- Settles O4: the three functions that reset, and what RESET_N holds (`exec_of_asserted`). -/
theorem resetPinsComplete : Obligations.ResetPinsComplete := by
  refine ⟨fun m s => ?power, fun m s => ⟨?assert, ?release, ?idle⟩, fun i s hr hi => ?held⟩
  case power =>
    have lines := State.lines_of_reset (t := { State.reset with
      now := max s.now m.tick, reverse := m.reverse
      arb := { State.reset.arb with initDue := some (max s.now m.tick + usTicks 200) }
      timing := { State.reset.timing with
        watch := some (.timer (max s.now m.tick + usTicks 33333)), lastStart := max s.now m.tick }
      pending := s.pending }) rfl rfl
    exact ⟨rfl, lines.1, lines.2, rfl, rfl, rfl, rfl, rfl, rfl, rfl⟩
  case assert =>
    have lines := State.lines_of_reset (t := { (s.advance m).resetByPin with resetAsserted := true }) rfl rfl
    exact ⟨_, rfl, rfl, rfl, lines.1, lines.2, rfl, rfl, rfl, rfl, rfl, rfl, rfl, rfl, rfl, rfl⟩
  case release =>
    intro hr
    have lines := State.lines_of_reset (t := (s.advance m).startFromPin) rfl rfl
    exact ⟨_, exec_pinResetRelease_asserted m hr, rfl, lines.1, lines.2, rfl, rfl, rfl, rfl, rfl, rfl, rfl⟩
  case idle =>
    intro hr
    exact congrArg Host.Outcome.next (if_neg (by simp [hr]))
  case held =>
    refine exec_of_asserted ?_ hr
    cases i <;> exact hi

/-- Settles O5: RESTART is one state (`exec_restart_ready`), read field by field. -/
theorem restartCompletes : Obligations.RestartCompletes := by
  intro m s c ready empty
  have lines := State.lines_of_reset (t := ((s.advance m).modChan CommandChannel.dequeue).restartBy c.tag) rfl rfl
  have kept : ∀ tr : Transfer, tr.orphan.due = tr.due ∧ tr.orphan.kind = tr.kind := by
    intro tr
    unfold Transfer.orphan
    split <;> exact ⟨rfl, rfl⟩
  refine ⟨_, exec_restart_ready m ready empty, fun n => ?_, rfl, rfl, rfl, rfl, rfl, rfl, rfl, rfl, rfl, rfl, rfl, rfl,
    rfl, ?_, ?_, rfl, rfl, rfl, ready.1, lines.1, lines.2⟩
  · rw [State.lane_of_const (s := ((s.advance m).modChan CommandChannel.dequeue).restartBy c.tag) rfl,
      State.lane_of_const (s := State.reset) rfl]
  · show (s.arb.port.map Transfer.orphan).map (·.due) = _
    cases s.arb.port with
    | none => rfl
    | some tr => exact congrArg some (kept tr).1
  · show (s.arb.port.map Transfer.orphan).map (·.kind) = _
    cases s.arb.port with
    | none => rfl
    | some tr => exact congrArg some (kept tr).2

/-! ### Right after reset -/

/-- Settles O53: every lane is at its reset values, and no job, message, notice or flag stands. -/
theorem safeAtReset : Obligations.SafeAtReset := by
  have lane : ∀ n, State.reset.lane n = .reset := State.lane_of_const rfl
  have chan : State.reset.chan.ok := CommandChannel.ok_reset _ _ _
  have free : ∀ i : Fin 4, LaneStore.reset.ring.get i = none := Four.get_const none
  exact
    { dram := rfl
      health := fun n => lane n ▸ laneInvariant_health.reset
      flight := fun n => lane n ▸ laneInvariant_flight.reset
      messages := fun n => lane n ▸ laneInvariant_messages.reset
      purge := fun n => lane n ▸ laneInvariant_purge.reset
      master := fun _ hm => nomatch hm
      watch := ⟨rfl, rfl⟩
      buffers := fun n => lane n ▸ Nat.zero_le 2
      store := by
        refine ⟨⟨List.nodup_nil, nofun, nofun⟩, fun n => ⟨?_, ?_⟩⟩
        · rw [lane n]
          exact fun i _ _ _ => free i
        · simp only [State.slotsOk, lane n, LaneBlocks.reset, free]
          simp [LaneStore.reset]
      queue := chan.1
      notices := chan.2.1
      flags := chan.2.2 }

end Sys2Proof.Machine

/-! SUPPORT. The cab command lane: how the receiver frames a message byte by byte (R181), how it is judged (R155), and what
an arrival leaves; the notice queue (R158). -/

namespace Sys2Proof.Machine

/-! ### The flags of the Command Channel (R161, R179) -/

theorem EventFlag.mask_cmdOverrun : EventFlag.cmdOverrun.mask = 0x001000 ∧ ~~~EventFlag.cmdOverrun.mask = 0xFFEFFF := by
  decide
theorem EventFlag.mask_cmdCheckError :
    EventFlag.cmdCheckError.mask = 0x002000 ∧ ~~~EventFlag.cmdCheckError.mask = 0xFFDFFF := by decide
theorem EventFlag.mask_reportDropped :
    EventFlag.reportDropped.mask = 0x004000 ∧ ~~~EventFlag.reportDropped.mask = 0xFFBFFF := by decide

/-! ### Reports (R158) -/

/-- A report that finds four entries free enters at the tail. -/
theorem State.offer_of_room {s : State} (h : s.chan.notices.length ≤ 12) (nt : Notice) :
    s.offer nt = { s with chan := { s.chan with notices := s.chan.notices ++ [nt] } } := by
  have room : s.chan.notices.length + 4 ≤ noticeCapacity := by
    simp only [noticeCapacity]
    omega
  simp only [State.offer, room, if_true]
  rfl

/-- The Command Channel after one more report is dropped. -/
def CommandChannel.dropReports (k : Nat) (c : CommandChannel) : CommandChannel :=
  { c with
    counters := { c.counters with reportsDropped := min 4294967295 (c.counters.reportsDropped + k) }
    flags := c.flags ||| 0x004000, reported := c.reported &&& 0xFFBFFF }

theorem State.offer_of_full {s : State} (h : 13 ≤ s.chan.notices.length) (nt : Notice) :
    s.offer nt = { s with chan := s.chan.dropReports 1 } := by
  have full : ¬s.chan.notices.length + 4 ≤ noticeCapacity := by
    simp only [noticeCapacity]
    omega
  have hmask := EventFlag.mask_reportDropped
  simp only [State.offer, full, if_false, State.raise, State.modChan, CommandChannel.raise, hmask.1]
  rfl

/-- Dropping one report and then `k` is dropping `k + 1`. -/
theorem CommandChannel.dropReports_dropReports (k : Nat) (c : CommandChannel) :
    (c.dropReports 1).dropReports k = c.dropReports (k + 1) := by
  have hflags : c.flags ||| (0x004000 : BitVec 24) ||| 0x004000 = c.flags ||| 0x004000 := by
    rw [BitVec.or_assoc]
    rfl
  have hreported : c.reported &&& (0xFFBFFF : BitVec 24) &&& 0xFFBFFF = c.reported &&& 0xFFBFFF := by
    rw [BitVec.and_assoc]
    rfl
  have hcount : min 4294967295 (min 4294967295 (c.counters.reportsDropped + 1) + k)
      = min 4294967295 (c.counters.reportsDropped + (k + 1)) := by omega
  simp only [CommandChannel.dropReports, hflags, hreported, hcount]

/-- What several reports of one event leave of the Command Channel. -/
def CommandChannel.takeReports (l : List Notice) (c : CommandChannel) : CommandChannel :=
  if l.length - (13 - c.notices.length) = 0 then { c with notices := c.notices ++ l }
  else { c.dropReports (l.length - (13 - c.notices.length)) with
    notices := c.notices ++ l.take (13 - c.notices.length) }

theorem State.offerAll_eq (l : List Notice) (s : State) : s.offerAll l = { s with chan := s.chan.takeReports l } := by
  induction l generalizing s with
  | nil => simp [State.offerAll, CommandChannel.takeReports]
  | cons nt l ih =>
    show (s.offer nt).offerAll l = _
    rw [ih]
    by_cases h : s.chan.notices.length ≤ 12
    · rw [State.offer_of_room h]
      have hroom : 13 - s.chan.notices.length = (13 - (s.chan.notices.length + 1)) + 1 := by omega
      simp only [CommandChannel.takeReports, List.length_append, List.length_cons, List.length_nil, hroom,
        Nat.add_sub_add_right, List.take_succ_cons, List.append_assoc, List.singleton_append, Nat.zero_add]
      split <;> rfl
    · have h : 13 ≤ s.chan.notices.length := by omega
      have hfull : 13 - s.chan.notices.length = 0 := by omega
      have kept : (s.chan.dropReports 1).notices = s.chan.notices := rfl
      rw [State.offer_of_full h]
      simp only [CommandChannel.takeReports, kept, hfull, Nat.sub_zero, List.length_cons, List.take_zero,
        List.append_nil, Nat.succ_ne_zero, if_false]
      cases l with
      | nil => simp
      | cons a l =>
        simp only [List.length_cons, Nat.succ_ne_zero, if_false, CommandChannel.dropReports_dropReports]

/-- Settles O8: one report, and by induction a list of them. -/
theorem reportsNeedFourEntries : Obligations.ReportsNeedFourEntries :=
  ⟨fun _ nt => ⟨fun h => State.offer_of_room h nt, fun h => State.offer_of_full h nt⟩,
    fun s l => State.offerAll_eq l s⟩

/-! ### Framing (R181) -/

/-- A judged message leaves the receiver as it was. -/
theorem CommandChannel.receiver_judge (now : Nat) (bytes : List Byte) (c : CommandChannel) :
    (c.judge now bytes).receiver = c.receiver := by
  unfold CommandChannel.judge CommandChannel.accept
  split
  · simp only
    split <;> rfl
  · rfl

/-- Bytes before a start byte are skipped. -/
theorem CommandChannel.takeRun_noise {noise : List Byte} (hn : 0x7E ∉ noise) (now : Nat) (more : List Byte)
    {c : CommandChannel} (hc : c.receiver = .idle) : takeRun now (noise ++ more) c = takeRun now more c := by
  induction noise with
  | nil => rfl
  | cons b noise ih =>
    obtain ⟨hb, hn⟩ := not_or.1 (fun h => hn (List.mem_cons.2 h))
    have skipped : c.takeByte now b = c := by
      simp only [takeByte, hc]
      exact if_neg (Ne.symm hb)
    rw [List.cons_append, takeRun]
    simp only [skipped, hc, BackLane.busy, Bool.false_and, Bool.false_eq_true, if_false]
    exact ih hn

/-- A message whose length is known is collected to its last byte and judged. -/
theorem CommandChannel.takeRun_collect (now : Nat) (more : List Byte) {rest : List Byte} :
    ∀ {taken : List Byte} {due : Nat} {c : CommandChannel}, rest ≠ [] → 4 ≤ taken.length →
      taken.length + rest.length = 6 + byteAt taken 3 → c.receiver = .inProgress taken due →
      takeRun now (rest ++ more) c = ({ c with receiver := .idle }.judge now (taken ++ rest), more) := by
  induction rest with
  | nil => exact fun h => absurd rfl h
  | cons b rest ih =>
    intro taken due c _ h4 hlen hc
    have hthird : byteAt (taken ++ [b]) 3 = byteAt taken 3 := by
      simp only [byteAt, List.getD_eq_getElem?_getD]
      rw [List.getElem?_append_left (by omega)]
    have hlong : ¬((taken ++ [b]).length = 4 ∧ payloadMax < b.toNat) := by
      simp only [List.length_append, List.length_singleton]
      omega
    have h4' : 4 ≤ (taken ++ [b]).length := by
      simp only [List.length_append, List.length_singleton]
      omega
    have next : c.takeByte now b = if 4 ≤ (taken ++ [b]).length ∧ (taken ++ [b]).length = 6 + byteAt taken 3 then
        { c with receiver := .idle }.judge now (taken ++ [b])
        else { c with receiver := .inProgress (taken ++ [b]) (now + gapTicks) } := by
      simp only [takeByte, hc, hlong, if_false, hthird]
    cases rest with
    | nil =>
      have whole : (taken ++ [b]).length = 6 + byteAt taken 3 := by simpa using hlen
      rw [if_pos ⟨h4', whole⟩] at next
      rw [List.cons_append, takeRun]
      simp only [next, hc, CommandChannel.receiver_judge, BackLane.busy, Bool.not_false, Bool.and_self, if_true,
        List.nil_append]
    | cons d rest =>
      have part : ¬(4 ≤ (taken ++ [b]).length ∧ (taken ++ [b]).length = 6 + byteAt taken 3) := by
        simp only [List.length_append, List.length_cons, List.length_nil] at hlen ⊢
        omega
      rw [if_neg part] at next
      rw [List.cons_append, takeRun]
      simp only [next, hc, BackLane.busy, Bool.not_true, Bool.and_false, Bool.false_eq_true, if_false]
      rw [ih (taken := taken ++ [b]) (due := now + gapTicks) (by simp) h4'
        (by rw [hthird]; simp only [List.length_append, List.length_cons, List.length_nil] at hlen ⊢; omega) rfl]
      simp

/-- A start byte, a number, a tag and a length of at most 72 begin a message. -/
theorem CommandChannel.takeRun_begin (now : Nat) (number tag length : Byte) (more : List Byte) {c : CommandChannel}
    (hc : c.receiver = .idle) (hlen : length.toNat ≤ 72) :
    takeRun now (0x7E :: number :: tag :: length :: more) c
      = takeRun now more { c with receiver := .inProgress [0x7E, number, tag, length] (now + gapTicks) } := by
  have hshort : ¬72 < length.toNat := by omega
  have hpart : ¬4 = 6 + length.toNat := by omega
  simp [takeRun, takeByte, hc, startByte, BackLane.busy, payloadMax, byteAt, hshort, hpart]

/-- The bytes of a message are judged as a whole, whatever two bytes follow its body. -/
theorem CommandChannel.takeRun_message (now : Nat) (msg : CmdMessage) (a b : Byte) (more : List Byte) {c : CommandChannel}
    (hc : c.receiver = .idle) (hlen : msg.payload.length ≤ 72) :
    takeRun now ((0x7E :: ([msg.number, msg.tag, BitVec.ofNat 8 msg.payload.length] ++ msg.payload) ++ [a, b]) ++ more) c
      = (c.judge now (0x7E :: ([msg.number, msg.tag, BitVec.ofNat 8 msg.payload.length] ++ msg.payload) ++ [a, b]),
        more) := by
  have hbyte : (BitVec.ofNat 8 msg.payload.length).toNat = msg.payload.length := by
    simp only [BitVec.toNat_ofNat]
    omega
  have collected := takeRun_collect now more (rest := msg.payload ++ [a, b])
    (taken := [0x7E, msg.number, msg.tag, BitVec.ofNat 8 msg.payload.length]) (due := now + gapTicks)
    (c := { c with
      receiver := .inProgress [0x7E, msg.number, msg.tag, BitVec.ofNat 8 msg.payload.length] (now + gapTicks) }) (by simp) (by simp)
    (by simp [byteAt, hbyte]; omega) rfl
  have idle : { c with receiver := BackLane.idle } = c := by rw [← hc]
  have begun := takeRun_begin now msg.number msg.tag (BitVec.ofNat 8 msg.payload.length)
    (msg.payload ++ [a, b] ++ more) hc (by rwa [hbyte])
  simp only [List.cons_append, List.nil_append, List.append_assoc] at begun collected ⊢
  rw [begun, collected, idle]

/-! ### Judging (R155) -/

theorem crcBytes_pair (p : List Byte) : ∃ a b, crcBytes p = [a, b] := ⟨_, _, rfl⟩

/-- A body followed by two bytes is good exactly when they are its check. -/
theorem messageGood_iff (body : List Byte) (a b : Byte) :
    messageGood (0x7E :: body ++ [a, b]) = true ↔ [a, b] = crcBytes body := by
  have hbody : ((0x7E :: body ++ [a, b]).drop 1).take ((0x7E :: body ++ [a, b]).length - 3) = body := by
    simp
  have hcheck : (0x7E :: body ++ [a, b]).drop ((0x7E :: body ++ [a, b]).length - 2) = [a, b] := by
    simp
  rw [messageGood, hbody, hcheck, beq_iff_eq, eq_comm]

/-- The number, tag and payload are read back from the wire. -/
theorem messageOf_body (msg : CmdMessage) (a b : Byte) :
    messageOf (0x7E :: ([msg.number, msg.tag, BitVec.ofNat 8 msg.payload.length] ++ msg.payload) ++ [a, b]) = msg := by
  simp [messageOf]

/-- A whole message with a good check is accepted. -/
theorem CommandChannel.takeRun_wire (now : Nat) (msg : CmdMessage) (more : List Byte) {c : CommandChannel}
    (hc : c.receiver = .idle) (hlen : msg.payload.length ≤ 72) :
    takeRun now (msg.wire ++ more) c = (c.accept now msg, more) := by
  obtain ⟨a, b, hcrc⟩ := crcBytes_pair ([msg.number, msg.tag, BitVec.ofNat 8 msg.payload.length] ++ msg.payload)
  have hwire : msg.wire = 0x7E :: ([msg.number, msg.tag, BitVec.ofNat 8 msg.payload.length] ++ msg.payload) ++ [a, b] :=
    congrArg (fun l => 0x7E :: ([msg.number, msg.tag, BitVec.ofNat 8 msg.payload.length] ++ msg.payload) ++ l) hcrc
  rw [hwire, takeRun_message now msg a b more hc hlen, judge, if_pos ((messageGood_iff _ a b).2 hcrc.symm),
    messageOf_body]

/-- A message with any other check is a check error. -/
theorem CommandChannel.takeRun_bad (now : Nat) (msg : CmdMessage) {a b : Byte}
    (hbad : [a, b] ≠ crcBytes ([msg.number, msg.tag, BitVec.ofNat 8 msg.payload.length] ++ msg.payload))
    {c : CommandChannel} (hc : c.receiver = .idle) (hlen : msg.payload.length ≤ 72) :
    takeRun now (0x7E :: ([msg.number, msg.tag, BitVec.ofNat 8 msg.payload.length] ++ msg.payload) ++ [a, b]) c
      = (c.checkError, []) := by
  have run := takeRun_message now msg a b [] hc hlen
  rw [List.append_nil] at run
  rw [run, judge, if_neg (fun h => hbad ((messageGood_iff _ a b).1 h))]

/-- So is a length above 72. -/
theorem CommandChannel.takeRun_long (now : Nat) (a b : Byte) {length : Byte} (hlong : 72 < length.toNat)
    {c : CommandChannel} (hc : c.receiver = .idle) : takeRun now [0x7E, a, b, length] c = (c.checkError, []) := by
  simp [takeRun, takeByte, hc, startByte, BackLane.busy, payloadMax, byteAt, hlong, checkError, raise]

/-! ### What an arrival leaves (R155, R156) -/

theorem CommandChannel.checkError_eq (c : CommandChannel) : c.checkError = { c with
    counters := { c.counters with checkErrors := min 4294967295 (c.counters.checkErrors + 1) }
    flags := c.flags ||| 0x002000, reported := c.reported &&& 0xFFDFFF } := by
  simp only [checkError, raise, EventFlag.mask_cmdCheckError.1]
  rfl

theorem CommandChannel.accept_of_room (now : Nat) (msg : CmdMessage) {c : CommandChannel} (h : c.queue.length < 16) :
    c.accept now msg = { c with
      queue := c.queue ++ [msg], hold := c.hold || 12 ≤ c.queue.length + 1
      heartbeatDue := c.heartbeatDue.map fun _ => now + msTicks c.heartbeatPeriod
      counters := { c.counters with accepted := min 4294967295 (c.counters.accepted + 1) } } :=
  if_neg (Nat.not_le.2 h)

theorem CommandChannel.accept_of_full (now : Nat) (msg : CmdMessage) {c : CommandChannel} (h : 16 ≤ c.queue.length) :
    c.accept now msg = { c with
      heartbeatDue := c.heartbeatDue.map fun _ => now + msTicks c.heartbeatPeriod
      counters := { c.counters with overruns := min 4294967295 (c.counters.overruns + 1) }
      flags := c.flags ||| 0x001000, reported := c.reported &&& 0xFFEFFF } := by
  refine (if_pos h).trans ?_
  simp only [raise, EventFlag.mask_cmdOverrun.1]
  rfl

/-- COMMAND_MESSAGE_ARRIVAL of a run that ends with its first message. -/
theorem exec_arrival_of_whole {s : State} (hr : s.resetAsserted = false) (m : Moment) {bytes : List Byte}
    {c : CommandChannel} (run : CommandChannel.takeRun (max s.now m.tick) bytes s.chan = (c, [])) :
    exec (.commandMessageArrival m bytes) s = .next { s.advance m with
      chan := c, pending := executionDue ⟨max s.now m.tick, m.reverse⟩ c.queue c.notices.length ++ s.pending } := by
  have run' : CommandChannel.takeRun (s.advance m).now bytes (s.advance m).chan = (c, []) := run
  simp only [exec, execCommandMessageArrival, State.onEvent, State.advance_resetAsserted, hr, Bool.not_false,
    Bool.and_self, if_true, State.takeArrival_eq, run']
  rfl

/-- One whose first message is followed by more bytes. -/
theorem exec_arrival_of_more {s : State} (hr : s.resetAsserted = false) (m : Moment) {bytes more : List Byte} {b : Byte}
    {c : CommandChannel} (run : CommandChannel.takeRun (max s.now m.tick) bytes s.chan = (c, b :: more)) :
    exec (.commandMessageArrival m bytes) s = .next { s.advance m with
      chan := c
      pending := executionDue ⟨max s.now m.tick, m.reverse⟩ c.queue c.notices.length
        ++ .commandMessageArrival ⟨max s.now m.tick, m.reverse⟩ (b :: more) :: s.pending } := by
  have run' : CommandChannel.takeRun (s.advance m).now bytes (s.advance m).chan = (c, b :: more) := run
  simp only [exec, execCommandMessageArrival, State.onEvent, State.advance_resetAsserted, hr, Bool.not_false,
    Bool.and_self, if_true, State.takeArrival_eq, run']
  rfl

/-- Settles O51: the run of a whole message (`takeRun_wire`), of one with a wrong check or length, with bytes before it
and with bytes after it. -/
theorem commandMessagesArrive : Obligations.CommandMessagesArrive := by
  intro m s c hr hlen now beat bad body at_ due refused
  have wire (hidle : s.chan.receiver = .idle) : CommandChannel.takeRun now c.wire s.chan = (s.chan.accept now c, []) := by
    have run := CommandChannel.takeRun_wire now c [] hidle hlen
    rwa [List.append_nil] at run
  have judgedBad (hidle : s.chan.receiver = .idle) {bytes : List Byte}
      (run : CommandChannel.takeRun now bytes s.chan = (s.chan.checkError, [])) :
      exec (.commandMessageArrival m bytes) s = .next refused := by
    have hbad : s.chan.checkError = bad := by rw [CommandChannel.checkError_eq, hidle]
    rw [exec_arrival_of_whole hr m run, hbad]
  refine ⟨fun hidle => ⟨fun hroom => ?_, fun hfull => ?_, fun a b hcheck => ?_, fun a b length hlong => ?_,
    fun noise hnoise => ?_, fun t b more ht => ?_⟩, fun bytes gap hbusy hdue => ?_⟩
  · rw [exec_arrival_of_whole hr m (wire hidle), CommandChannel.accept_of_room now c hroom]
  · rw [exec_arrival_of_whole hr m (wire hidle), CommandChannel.accept_of_full now c hfull]
  · exact judgedBad hidle (CommandChannel.takeRun_bad now c hcheck hidle hlen)
  · exact judgedBad hidle (CommandChannel.takeRun_long now a b hlong hidle)
  · rw [exec_arrival_of_whole hr m (wire hidle), exec_arrival_of_whole hr m
      ((CommandChannel.takeRun_noise hnoise now c.wire hidle).trans (wire hidle))]
  · have run := CommandChannel.takeRun_wire now c (b :: more) hidle hlen
    rw [exec_arrival_of_whole hr m (wire hidle)] at ht
    injection ht with ht
    have hnotices : (s.chan.accept now c).notices = s.chan.notices := by
      unfold CommandChannel.accept
      simp only
      split <;> rfl
    rw [exec_arrival_of_more hr m run, ← ht]
    simp only [due, hnotices, at_]
    rfl
  · have passed : (s.advance m).chan.receiver.gapOver (s.advance m).now = true := by
      simp only [State.advance_chan, hbusy, BackLane.gapOver, State.advance_now]
      exact decide_eq_true hdue
    simp only [exec, execBacklaneGapTimeout, State.onEvent, State.advance_resetAsserted, hr, passed, Bool.not_false,
      Bool.and_self, if_true, State.modChan, CommandChannel.checkError_eq]
    rfl

end Sys2Proof.Machine

/-! SUPPORT. The queue of events: an execution brings the next one with its reply (R156), and no operation of a block
touches it (log 29). -/

namespace Sys2Proof.Machine

/-! ### An event that is due -/

theorem State.onEvent_of_due {s : State} {m : Moment} {due : State → Bool} (hr : s.resetAsserted = false)
    (hdue : due (s.advance m) = true) (act : State → State) : s.onEvent m due act = act (s.advance m) := by
  simp [State.onEvent, hr, hdue]

/-! ### What leaves the queue of events alone -/

theorem keepsTiming_pending (l : List Instr) : KeepsTiming (fun s => s.pending = l) where
  lanes _ _ _ _ hs := hs
  purge _ _ _ _ hs := hs
  reports _ _ _ _ hs := hs
  jobs _ _ hs := hs
  readBuffer _ _ hs := hs
  comp _ _ hs := hs
  discard _ _ hs := hs
  hold _ k _ hs := by cases k <;> exact hs
  timing _ _ hs := hs
  tone _ _ hs := hs
  tx _ _ hs := hs
  rings _ _ hs := hs

theorem keepsAll_pending (l : List Instr) : KeepsAll (fun s => s.pending = l) :=
  (keepsTiming_pending l).toAll { (keepsTiming_pending l).toKeepsQuiet with relay := fun _ _ _ _ hs => hs }
    (fun _ _ _ hs => hs) (fun _ _ _ hs => hs)

section Pending

variable (s : State)

@[simp] theorem State.pending_offer (nt : Notice) : (s.offer nt).pending = s.pending :=
  (keepsTiming_pending _).offer nt rfl
@[simp] theorem State.pending_serve : s.serve.pending = s.pending := (keepsTiming_pending _).serve rfl
@[simp] theorem State.pending_freePort : s.freePort.pending = s.pending := rfl
@[simp] theorem State.pending_modCounters (n : Lane) (f : LaneCounters → LaneCounters) :
    (s.modCounters n f).pending = s.pending := rfl
@[simp] theorem State.pending_takeRead (data : List Byte) : (s.takeRead data).pending = s.pending :=
  (keepsTiming_pending _).takeRead data rfl
@[simp] theorem State.pending_relayEvent (n : Lane) (f : Relay → Relay × List Notice) :
    (s.relayEvent n f).pending = s.pending := (keepsTiming_pending _).offerAll _ rfl
@[simp] theorem State.pending_purgeEvent (n : Lane) (f : Purge → Purge × List Notice) :
    (s.purgeEvent n f).pending = s.pending := (keepsTiming_pending _).offerAll _ rfl
@[simp] theorem State.pending_lanePacket (n : Lane) (p : Option Packet) : (s.lanePacket n p).pending = s.pending :=
  (keepsAll_pending _).lanePacket n p rfl
@[simp] theorem State.pending_downEntry (n : Lane) (c : DownCause) : (s.downEntry n c).pending = s.pending :=
  (keepsAll_pending _).downEntry n c rfl
@[simp] theorem State.pending_deliverLaneDown (n : Lane) : (s.deliverLaneDown n).pending = s.pending :=
  (keepsAll_pending _).deliverLaneDown n rfl
@[simp] theorem State.pending_checkMaster (n : Lane) : (s.checkMaster n).pending = s.pending :=
  (keepsTiming_pending _).checkMaster n rfl
@[simp] theorem State.pending_rearmRestart (n : Lane) (o : Origin) : (s.rearmRestart n o).pending = s.pending :=
  (keepsAll_pending _).rearmRestart n o rfl
@[simp] theorem State.pending_setLaneMode (n : Lane) (mode : LaneMode) (p : Pattern) (o : Origin) :
    (s.setLaneMode n mode p o).pending = s.pending := (keepsAll_pending _).setLaneMode n mode p o rfl
@[simp] theorem State.pending_startFrame (d : Option Lane) : (s.startFrame d).pending = s.pending :=
  (keepsTiming_pending _).startFrame d rfl
@[simp] theorem State.pending_forceStart : s.forceStart.pending = s.pending := (keepsTiming_pending _).forceStart rfl

@[simp] theorem State.pending_channelRestart (n : Lane) (c : LaneCause) (o : Origin) :
    (s.channelRestart n c o).pending = s.pending := by
  unfold State.channelRestart
  simp only [pending_checkMaster, pending_deliverLaneDown]
  split <;> simp

@[simp] theorem State.pending_applyEnable (n : Lane) (on : Bool) (o : Origin) :
    (s.applyEnable n on o).pending = s.pending := by
  unfold State.applyEnable
  split
  · exact State.pending_offer _ _
  · rfl
  · rfl
  · exact (keepsAll_pending _).disable n o rfl

@[simp] theorem State.pending_finishFetch (line : Nat) (item : FetchItem) (data : List Byte) :
    (s.finishFetch line item data).pending = s.pending := by
  unfold State.finishFetch
  split
  · split <;> rfl
  · rfl

@[simp] theorem State.pending_finishWrite (n : Lane) (addr : Nat) (data : List Byte) :
    (s.finishWrite n addr data).pending = s.pending := (keepsTiming_pending _).commitIfDrained n rfl

@[simp] theorem State.pending_freeBefore (k : Nat) : (s.freeBefore k).pending = s.pending := by
  unfold State.freeBefore
  split <;> rfl

@[simp] theorem State.pending_beginLine : s.beginLine.pending = s.pending := by
  unfold State.beginLine
  simp only [modTiming_pending]
  split <;> exact State.pending_freeBefore _ _

@[simp] theorem State.pending_cameraPacket (n : Lane) (bytes : List Byte) :
    (s.cameraPacket n bytes).pending = s.pending := by
  simp [State.cameraPacket, State.countPacket]

@[simp] theorem State.pending_generatorPacket (n : Lane) : (s.generatorPacket n).pending = s.pending := by
  unfold State.generatorPacket
  split
  · rfl
  · simp only
    split <;> simp [State.countPacket]

@[simp] theorem State.pending_endRest (n : Lane) : (s.endRest n).pending = s.pending := by
  unfold State.endRest
  simp only [pending_purgeEvent]
  split <;> rfl

@[simp] theorem State.pending_loseTerminal : s.loseTerminal.pending = s.pending := by
  unfold State.loseTerminal
  simp

theorem State.pending_onEvent (m : Moment) (due : State → Bool) {act : State → State}
    (h : ∀ u : State, (act u).pending = u.pending) : (s.onEvent m due act).pending = s.pending := by
  unfold State.onEvent
  split
  · exact h _
  · rfl

end Pending

/-- An event that brings an execution, or may. -/
def Instr.brings (i : Instr) : Prop :=
  match i with
  | .statusLineEvent _ | .commandMessageArrival _ _ | .unknownCommand _ => True
  | _ => i.commandNumber.isSome = true

/-- No other event touches the queue of events. -/
theorem exec_pending {i : Instr} (hi : ¬Instr.brings i) {s t : State} (he : exec i s = .next t) :
    t.pending = s.pending := by
  cases i <;> simp only [Instr.brings, Instr.commandNumber, Option.isSome, Bool.false_eq_true, not_true_eq_false,
    not_false_eq_true] at hi
  case powerOn | pinResetAssert => injection he with he; exact he ▸ rfl
  case pinResetRelease =>
    injection he with he
    rw [← he]
    split <;> rfl
  case laneWriteComplete m =>
    simp only [exec, execLaneWriteComplete] at he
    split at he
    · split at he
      · injection he with he
        rw [← he]; simp
      · split at he
        · injection he with he
          rw [← he]; simp
        · cases he
    · injection he with he
      exact he ▸ rfl
  case compositorFetchComplete m =>
    simp only [exec, execCompositorFetchComplete] at he
    split at he
    · split at he
      · injection he with he
        rw [← he]; simp
      · split at he
        · injection he with he
          rw [← he]; simp
        · cases he
    · injection he with he
      exact he ▸ rfl
  case conditioningReadComplete m =>
    simp only [exec, execConditioningReadComplete] at he
    split at he
    · split at he
      · injection he with he
        rw [← he]; simp
      · split at he
        · injection he with he
          rw [← he]; simp
        · cases he
    · injection he with he
      exact he ▸ rfl
  case refreshComplete m =>
    simp only [exec, execRefreshComplete] at he
    split at he
    · injection he with he
      rw [← he]; simp
    · injection he with he
      exact he ▸ rfl
  all_goals
    injection he with he
    rw [← he]
    exact State.pending_onEvent _ _ _ fun u => by simp

/-! ### What an execution brings (R156) -/

/-- The queue of events once the oldest message, which has left the command queue, is answered. -/
def State.answering (s : State) : List Instr :=
  executionDue ⟨s.now, s.reverse⟩ s.chan.queue (s.chan.notices.length + 1) ++ s.pending

section Answering

variable (s : State) (c : CmdMessage)

@[simp] theorem State.pending_answer (code : ReplyCode) (data : List Byte) :
    (s.answer c code data).pending = s.answering := by
  simp [State.answer, State.answering, State.pushNotice]

@[simp] theorem State.pending_refuse (code : ReplyCode) : (s.refuse c code).pending = s.answering :=
  s.pending_answer c code []

@[simp] theorem State.answering_modLane (n : Lane) (f : LaneBlocks → LaneBlocks) :
    (s.modLane n f).answering = s.answering := rfl
@[simp] theorem State.answering_modRx (n : Lane) (f : Receiver → Receiver) : (s.modRx n f).answering = s.answering := rfl
@[simp] theorem State.answering_modRelay (n : Lane) (f : Relay → Relay) : (s.modRelay n f).answering = s.answering := rfl
@[simp] theorem State.answering_modMotion (n : Lane) (f : Motion → Motion) : (s.modMotion n f).answering = s.answering := rfl
@[simp] theorem State.answering_modDust (n : Lane) (f : Dust → Dust) : (s.modDust n f).answering = s.answering := rfl
@[simp] theorem State.answering_modPurge (n : Lane) (f : Purge → Purge) : (s.modPurge n f).answering = s.answering := rfl
@[simp] theorem State.answering_modTest (n : Lane) (f : LinkTest → LinkTest) : (s.modTest n f).answering = s.answering := rfl
@[simp] theorem State.answering_modCounters (n : Lane) (f : LaneCounters → LaneCounters) :
    (s.modCounters n f).answering = s.answering := rfl
@[simp] theorem State.answering_modArb (f : Arbiter → Arbiter) : (s.modArb f).answering = s.answering := rfl
@[simp] theorem State.answering_modComp (f : Compositor → Compositor) : (s.modComp f).answering = s.answering := rfl
@[simp] theorem State.answering_modTiming (f : Timing → Timing) : (s.modTiming f).answering = s.answering := rfl
@[simp] theorem State.answering_withTone (t : ToneTables) : ({ s with tone := t } : State).answering = s.answering := rfl
@[simp] theorem State.answering_clearCounters : s.clearCounters.answering = s.answering := rfl
@[simp] theorem State.answering_setPeriod (now period : Nat) :
    (s.modChan (CommandChannel.setPeriod now period)).answering = s.answering := rfl
@[simp] theorem State.answering_clearNamed (named : BitVec 24) :
    (s.modChan (CommandChannel.clearNamed named)).answering = s.answering := rfl

@[simp] theorem State.answering_resume (now : Nat) :
    (s.modChan (CommandChannel.resume now)).answering = s.answering := by
  unfold State.answering
  simp only [State.modChan_chan, CommandChannel.resume]
  split <;> rfl

@[simp] theorem State.pending_ofLength (k : Nat) (body : State → State) :
    (s.ofLength k c body).pending = if c.payload.length = k then (body s).pending else s.answering := by
  simp [State.ofLength, apply_ite State.pending]

@[simp] theorem State.pending_ofLane (body : Lane → State → State) :
    (s.ofLane c body).pending = (laneArg c.payload 0).elim s.answering fun n => (body n s).pending := by
  unfold State.ofLane
  cases laneArg c.payload 0 <;> simp

@[simp] theorem State.pending_ofField {α : Type} (field : Option α) (body : α → State → State) :
    (s.ofField field c body).pending = field.elim s.answering fun a => (body a s).pending := by
  unfold State.ofField
  cases field <;> simp

@[simp] theorem State.pending_unless (ok : Bool) (code : ReplyCode) (body : State → State) :
    (s.unless ok code c body).pending = if ok then (body s).pending else s.answering := by
  simp [State.unless, apply_ite State.pending]

@[simp] theorem State.pending_configShort (n : Lane) : (s.configShort c n).pending = s.answering := by
  simp [State.configShort]

@[simp] theorem State.pending_configFull (n : Lane) : (s.configFull c n).pending = s.answering := by
  simp [State.configFull]

end Answering

/-- An execution of a message that may be executed (R156). -/
theorem State.execute_of_head {s : State} (hr : s.resetAsserted = false) {c : CmdMessage}
    (hhead : s.chan.queue.head? = some c) (hroom : s.chan.notices.length < 16) {named : CmdMessage → Bool}
    (hnamed : named c = true) (m : Moment) (body : CmdMessage → State → State) :
    s.execute m named body = body c ((s.advance m).modChan CommandChannel.dequeue) := by
  obtain ⟨l, hq⟩ : ∃ l, s.chan.queue = c :: l := by
    cases hq : s.chan.queue with
    | nil => simp [hq] at hhead
    | cons d l =>
      rw [hq] at hhead
      cases hhead
      exact ⟨l, rfl⟩
  have executes : (s.advance m).executes named c = true := by
    simp [State.executes, hr, hnamed, hroom, noticeCapacity]
  simp only [State.execute, State.advance_chan, hq, executes, if_true]

/-- Every command but RESTART answers once, whatever it finds. -/
theorem exec_pending_of_ready {i : Instr} {k : Nat} {s : State} {c : CmdMessage}
    (hk : i.commandNumber = some k ∨ (i = .unknownCommand i.moment ∧ (k = 0 ∨ 36 ≤ k))) (h3 : k ≠ 3)
    (ready : s.ReadyFor k c) : ∃ t, exec i s = .next t
      ∧ t.pending = ((s.advance i.moment).modChan CommandChannel.dequeue).answering := by
  have answered {m : Moment} {named : CmdMessage → Bool} {body : CmdMessage → State → State} (hnamed : named c = true)
      (hbody : ∀ (d : CmdMessage) (u : State), (body d u).pending = u.answering) :
      (s.execute m named body).pending = ((s.advance m).modChan CommandChannel.dequeue).answering := by
    obtain ⟨hr, hhead, _, hroom⟩ := ready
    rw [State.execute_of_head hr hhead hroom hnamed]
    exact hbody _ _
  have hnumber := ready.2.2.1
  rcases hk with hk | ⟨hi, hk⟩
  · cases i <;> simp only [Instr.commandNumber, reduceCtorEq, Option.some.injEq] at hk <;> subst hk
    case restart => exact absurd rfl h3
    all_goals
      refine ⟨_, rfl, answered (by simp [CmdMessage.is, hnumber]) fun d u => ?_⟩
      simp [apply_ite State.pending, apply_ite State.answering]
  · rw [hi]
    refine ⟨_, rfl, answered ?_ fun d u => by simp⟩
    simp only [CmdMessage.unnamed, hnumber, Bool.or_eq_true, beq_iff_eq, decide_eq_true_eq]
    omega

theorem executionDue_eq (m : Moment) (l : List CmdMessage) (k : Nat) :
    executionDue m l k = if k < 16 then (l.take 1).map (CmdMessage.execution m) else [] := rfl

/-! ### The row of a message (R157) -/

theorem CmdMessage.moment_execution (m : Moment) (c : CmdMessage) : (c.execution m).moment = m := by
  unfold CmdMessage.execution
  split <;> rfl

theorem CmdMessage.commandNumber_execution (m : Moment) (c : CmdMessage) (h1 : 1 ≤ c.number.toNat)
    (h35 : c.number.toNat ≤ 35) : (c.execution m).commandNumber = some c.number.toNat := by
  unfold CmdMessage.execution
  generalize c.number.toNat = k at *
  split
  case h_36 =>
    simp only [imp_false] at *
    omega
  all_goals rfl

theorem CmdMessage.execution_of_unnamed (m : Moment) (c : CmdMessage)
    (h : c.number.toNat = 0 ∨ 36 ≤ c.number.toNat) : c.execution m = .unknownCommand m := by
  unfold CmdMessage.execution
  split <;> first | omega | rfl

/-- The event of the status line brings what is then due (R150, R156). -/
theorem State.pending_beginStatusLine (s : State) : s.beginStatusLine.pending
    = executionDue ⟨s.now, s.reverse⟩ s.chan.queue (s.chan.notices.length - 4) ++ s.pending := by
  unfold State.beginStatusLine
  simp only [State.bringExecution_pending, State.modTiming_pending, State.pending_freeBefore, State.modChan_pending]
  congr 1
  unfold State.freeBefore
  split <;> simp [CommandChannel.markReported]

/-- Settles O7: the arrival at an empty queue, the reply of the execution before, the status line event, and no other. -/
theorem executionsComeNext : Obligations.ExecutionsComeNext := by
  refine ⟨fun m c => ⟨c.moment_execution m, c.commandNumber_execution m, c.execution_of_unnamed m⟩,
    fun m s hr => ⟨fun c hidle hempty hlen => ?arrival, fun i k c hk hm h3 ready => ?executed,
      fun hphase hlines hdue => ?line⟩,
    fun i s t hnumber hunknown hline harrival he => exec_pending ?_ he⟩
  case arrival =>
    have run := CommandChannel.takeRun_wire (max s.now m.tick) c [] hidle hlen
    rw [List.append_nil] at run
    refine ⟨_, exec_arrival_of_whole hr m run, ?_⟩
    rw [CommandChannel.accept_of_room _ c (by simp [hempty])]
    simp only [hempty, List.nil_append, executionDue_eq]
    split <;> rfl
  case executed =>
    subst hm
    obtain ⟨t, he, ht⟩ := exec_pending_of_ready hk h3 ready
    refine ⟨t, he, ht.trans ?_⟩
    simp only [State.answering, executionDue_eq]
    by_cases h15 : s.chan.notices.length < 15
    · have : s.chan.notices.length + 1 < 16 := by omega
      simp [h15, this, CommandChannel.dequeue]
    · have : ¬s.chan.notices.length + 1 < 16 := by omega
      simp [h15, this, CommandChannel.dequeue]
  case line =>
    refine ⟨_, congrArg Host.Outcome.next (State.onEvent_of_due hr ?_ _), ?_⟩
    · simp [Timing.statusLineDue, Timing.lineBegins, hphase, hlines, hdue]
    · rw [State.pending_beginStatusLine]
      simp only [State.advance_now, State.advance_reverse, State.advance_chan, State.advance_pending, executionDue_eq]
      by_cases h20 : s.chan.notices.length < 20
      · have : s.chan.notices.length - 4 < 16 := by omega
        simp [h20, this]
      · have : ¬s.chan.notices.length - 4 < 16 := by omega
        simp [h20, this]
  cases i <;> simp_all [Instr.brings, Instr.commandNumber, Instr.moment]

end Sys2Proof.Machine

/-! SUPPORT. The store arbiter: who waits, in which order, and what a grant leaves (R58, R60, R61). -/

namespace Sys2Proof.Machine

/-! ### The requests -/

/-- A line has a segment left exactly when some of its bytes are not written. -/
theorem BufferedLine.written_lt_segments (b : BufferedLine) :
    b.written < b.segments ↔ 512 * b.written < b.payload.length := by
  simp only [BufferedLine.segments, ceilDiv]
  omega

/-- The first lane with a write waiting, as the head of the list of writes that wait. -/
theorem State.firstWrite_eq_head (s : State) :
    s.firstWrite = ((roundRobin s.arb.lastGranted).filterMap s.writeRequest).head? :=
  (List.head?_filterMap).symm

/-- The first anchor to be searched, found among anchors paired with their verdicts. -/
theorem RunningJob.current_eq_find (r : RunningJob) :
    r.current.map (·.2) = ((r.anchors.zip r.verdicts).find? fun x => x.2 == AnchorVerdict.toSearch).map (·.1) := by
  obtain ⟨anchors, _, _, _, _, _, _, verdicts, _⟩ := r
  simp only [RunningJob.current]
  induction verdicts generalizing anchors with
  | nil => simp
  | cons v verdicts ih =>
    by_cases hv : (v == AnchorVerdict.toSearch) = true
    · cases anchors with
      | nil => simp [List.findIdx?_cons, hv]
      | cons a anchors => simp [List.findIdx?_cons, hv]
    · cases anchors with
      | nil =>
        simp only [List.findIdx?_cons, hv]
        cases List.findIdx? (fun x => x == AnchorVerdict.toSearch) verdicts <;> simp
      | cons a anchors =>
        have := ih anchors
        simp only [List.findIdx?_cons, hv, List.zip_cons_cons, List.find?_cons]
        rw [← this]
        cases List.findIdx? (fun x => x == AnchorVerdict.toSearch) verdicts <;> simp [Function.comp_def]

/-- What waits, in R60's order. -/
def State.waiting (s : State) : List TransferKind :=
  (if 8 ≤ s.arb.owed then [.refresh] else []) ++ s.fetchRequest.toList
    ++ (roundRobin s.arb.lastGranted).filterMap s.writeRequest
    ++ (if 1 ≤ s.arb.owed then [.refresh] else []) ++ s.readRequest.toList

theorem State.nextGrant_eq_head (s : State) : s.nextGrant = s.waiting.head? := by
  unfold State.nextGrant State.waiting
  rw [State.firstWrite_eq_head]
  by_cases h8 : 8 ≤ s.arb.owed
  · simp [h8]
  · cases s.fetchRequest with
    | some k => simp [h8]
    | none =>
      cases List.filterMap s.writeRequest (roundRobin s.arb.lastGranted) with
      | cons k l => simp [h8]
      | nil =>
        by_cases h1 : 1 ≤ s.arb.owed
        · simp [h8, h1]
        · cases s.readRequest <;> simp [h8, h1]

/-! ### The completed line -/

theorem State.completeNext_eq (s : State) : s.completeNext = { s with readBuffer := s.completeNext.readBuffer } := by
  unfold State.completeNext
  simp only
  split <;> rfl

theorem ReadBuffer.place_put_same (k : Nat) (p : LinePlace) (b : ReadBuffer) : (b.put k p).place k = p := by
  unfold ReadBuffer.place ReadBuffer.put
  split <;> rfl

/-- While a fetch is asked for, no line has been completed (R58). -/
theorem State.completeNext_of_fetchRequest {s : State} (h : s.completeNext.fetchRequest ≠ none) : s.completeNext = s := by
  refine Classical.byContradiction fun hne => ?_
  apply h
  unfold State.completeNext at hne ⊢
  simp only at hne ⊢
  split
  · rename_i hcomplete
    have notWanted (pixels) : State.wanted
        { s with readBuffer := s.readBuffer.put s.timing.nextLine (.complete s.timing.nextLine pixels) }
        s.timing.nextLine = false := by
      simp [State.wanted, State.completeLine, ReadBuffer.place_put_same, LinePlace.completeFor]
    simp only [State.fetchRequest, notWanted, Bool.false_eq_true, if_false]
  · rename_i hno
    exact absurd (if_neg hno) hne

/-! ### The grant -/

theorem State.grant_of_idle {s : State} (hready : s.arb.storeReady = true) (hidle : s.arb.port = none) :
    s.grant = match s.nextGrant with
      | some k => s.hold k
      | none => s := if_pos (by simp [hready, hidle])

theorem State.grant_of_busy {s : State} (h : s.arb.storeReady = false ∨ s.arb.port ≠ none) : s.grant = s := by
  have hno : (s.arb.storeReady && s.arb.port.isNone) = false := by
    rcases h with h | h
    · simp [h]
    · cases hp : s.arb.port with
      | none => exact absurd hp h
      | some t => simp
  simp [State.grant, hno]

theorem State.hold_arb (k : TransferKind) (s : State) : (s.hold k).arb
    = { s.arb with port := some ⟨k, s.now + k.ticks, true⟩, lastGranted := k.granted s.arb.lastGranted } := by
  cases k <;> rfl

theorem State.hold_eq (k : TransferKind) (s : State) : s.hold k
    = { s with arb := (s.hold k).arb, readBuffer := (s.hold k).readBuffer } := by
  cases k <;> rfl

/-- The arbiter serves from the state with the line completed. -/
theorem State.serve_eq (s : State) : s.serve = { s with
    arb := { s.arb with port := s.serve.arb.port, lastGranted := s.serve.arb.lastGranted }
    readBuffer := s.serve.readBuffer } := by
  have hu := s.completeNext_eq
  unfold State.serve
  generalize s.completeNext = u at *
  unfold State.grant
  split
  · split
    · rename_i k _
      rw [State.hold_eq, State.hold_arb, hu]
    · rw [hu]
  · rw [hu]

theorem State.arb_completeNext (s : State) : s.completeNext.arb = s.arb := by rw [s.completeNext_eq]

theorem TransferKind.ticks_eq (k : TransferKind) : k.ticks = (match k with
    | .refresh => 16
    | .fetch _ item => 4 + (item.bytes + 15) / 16
    | .write _ _ _ _ data => 4 + (data.length + 15) / 16
    | .read _ _ _ _ bytes => 4 + (bytes + 15) / 16) := by
  cases k <;> rfl

/-- The port after the arbiter has served an idle port. -/
theorem State.serve_of_idle {s : State} (hready : s.arb.storeReady = true) (hidle : s.arb.port = none) :
    s.serve.arb = match s.completeNext.waiting.head? with
      | some k => { s.arb with port := some ⟨k, s.now + k.ticks, true⟩, lastGranted := k.granted s.arb.lastGranted }
      | none => s.arb := by
  have harb := s.arb_completeNext
  have hnow : s.completeNext.now = s.now := by rw [s.completeNext_eq]
  unfold State.serve
  rw [State.grant_of_idle (harb ▸ hready) (harb ▸ hidle), State.nextGrant_eq_head]
  split
  · rw [State.hold_arb, harb, hnow]
  · exact harb

theorem State.writeRequest_ne_fetch (s : State) (n : Lane) (line : Nat) (item : FetchItem) :
    s.writeRequest n ≠ some (.fetch line item) := by
  unfold State.writeRequest
  split
  · simp
  · split <;> simp

theorem State.readRequest_ne_fetch (s : State) (line : Nat) (item : FetchItem) :
    s.readRequest ≠ some (.fetch line item) := by
  unfold State.readRequest
  split
  · simp
  split
  · simp
  · rename_i run _
    split
    · dsimp only
      by_cases hk : run.got.length < 16 <;> simp [hk]
    · simp

theorem State.fetchRequest_of_nextGrant {s : State} {line : Nat} {item : FetchItem}
    (h : s.nextGrant = some (.fetch line item)) : s.fetchRequest = some (.fetch line item) := by
  have hmem := List.mem_of_mem_head? (State.nextGrant_eq_head s ▸ h)
  simpa [State.waiting, State.writeRequest_ne_fetch, State.readRequest_ne_fetch] using hmem

/-- The buffers after a grant: a granted fetch takes its line's place, and no line was completed (R58). -/
theorem State.serve_readBuffer (s : State) : s.serve.readBuffer = match s.serve.arb.port, s.arb.port with
    | some ⟨.fetch line _, _, _⟩, none => s.completeNext.readBuffer.put line (.filling line (s.got line))
    | _, _ => s.completeNext.readBuffer := by
  have harb := s.arb_completeNext
  cases hport : s.arb.port with
  | some t =>
    rw [State.serve, State.grant_of_busy (.inr (by rw [harb, hport]; exact Option.some_ne_none t)), harb, hport]
    split <;> simp_all
  | none =>
    by_cases hready : s.arb.storeReady = true
    case neg =>
      rw [State.serve, State.grant_of_busy (.inl (by rw [harb]; simpa using hready)), harb, hport]
    case pos =>
      rw [State.serve, State.grant_of_idle (harb ▸ hready) (harb ▸ hport)]
      cases hk : s.completeNext.nextGrant with
      | none => simp [harb, hport]
      | some k =>
        cases k with
        | fetch line item =>
          have hfetch : s.completeNext.fetchRequest ≠ none := by simp [State.fetchRequest_of_nextGrant hk]
          rw [State.completeNext_of_fetchRequest hfetch]
          rfl
        | _ => rfl

/-! ### The requests, as R48 and R74 give them -/

theorem State.writeRequest_eq (s : State) (n : Lane) :
    s.writeRequest n = match (s.lane n).store.buffer with
      | b :: _ =>
        if 512 * b.written < b.payload.length then
          ((s.lane n).store.headSlot b).map fun i =>
            TransferKind.write n i b.line b.written ((b.payload.drop (512 * b.written)).take 512)
        else none
      | [] => none := by
  unfold State.writeRequest
  split <;> rename_i hbuffer
  · simp only [hbuffer]
  · simp only [hbuffer, BufferedLine.written_lt_segments, segmentOf]

theorem State.readRequest_eq (s : State) :
    s.readRequest = match s.jobs with
      | ⟨n, slot, _, some run⟩ :: _ =>
        match (run.anchors.zip run.verdicts).find? fun x : Anchor × AnchorVerdict => x.2 == AnchorVerdict.toSearch,
          run.reference with
        | some (a, _), some reference =>
          let width := ((s.lane n).store.ring.get slot).elim 0 (·.record.geometry.w)
          let k := run.got.length
          let segment := a.col / 4
          let bytes := min 512 (2 * width - 512 * segment)
          some (if k < 16 then TransferKind.read n slot (32 * a.row + 8 + k) segment bytes
            else .read n reference (32 * a.row + 8 - run.settings.sy + (k - 16)) segment bytes)
        | _, _ => none
      | _ => none := by
  unfold State.readRequest
  rcases s.jobs with _ | ⟨⟨n, slot, stats, run⟩, rest⟩
  · rfl
  · cases run with
    | none => rfl
    | some run =>
      have hcurrent := run.current_eq_find
      obtain hfind | ⟨⟨a, v⟩, hfind⟩ := Option.eq_none_or_eq_some
        ((run.anchors.zip run.verdicts).find? fun x => x.2 == AnchorVerdict.toSearch)
      · have hnone : run.current = none := by simpa [hfind] using hcurrent
        simp only [hfind, hnone]
      · obtain ⟨i, hsome⟩ : ∃ i, run.current = some (i, a) := by simpa [hfind] using hcurrent
        simp only [hfind, hsome]
        cases run.reference with
        | none => rfl
        | some reference =>
          simp only [LaneStore.record, segmentBytes, Option.elim_map]
          split <;> rfl

/-! ### The store's own events -/

theorem State.completed_of_due {s : State} {m : Moment} {t : Transfer} (hport : s.arb.port = some t)
    (hdue : t.due ≤ max s.now m.tick) : (s.advance m).completed = some t := by
  rw [State.completed, State.advance_arb, hport, State.advance_now]
  exact Option.filter_eq_some_iff.2 ⟨rfl, decide_eq_true hdue⟩

/-- Settles O9. -/
theorem storeGrantsInOrder : Obligations.StoreGrantsInOrder := by
  unfold Obligations.StoreGrantsInOrder
  refine ⟨fun s => ?_, fun m s due hdue => ⟨fun hr hinit => ?_, fun hr hrefresh => ?_, fun live hport => ?_⟩⟩
  case refine_1 =>
    intro u slotFor write read waiting
    have hu : u = { s with readBuffer := u.readBuffer } := s.completeNext_eq
    have hwrite : u.writeRequest = write := by
      funext n
      have hslot (store : LaneStore) (b : BufferedLine) : store.headSlot b = slotFor store b.tag := by
        simp only [LaneStore.headSlot, slotFor]
        rcases b.tag <;> cases store.pendingCommit <;> cases store.opening <;> rfl
      rw [State.writeRequest_eq, hu]
      simp only [hslot]
      rfl
    have hread : u.readRequest = read := by
      rw [State.readRequest_eq, hu]
      rfl
    have hwaiting : u.waiting = waiting := by
      simp only [State.waiting, hwrite, hread, waiting, roundRobin, State.arb_completeNext, u]
    rw [← hwaiting]
    refine ⟨fun hready hidle => ?_, fun hready hidle => ?_, fun hbusy => ?_, ?_, s.serve_eq⟩
    · rw [State.serve_of_idle hready hidle]
      cases u.waiting.head? with
      | none => exact hidle
      | some k => exact congrArg (fun d => some (Transfer.mk k (s.now + d) true)) k.ticks_eq
    · rw [State.serve_of_idle hready hidle]
      cases u.waiting.head? with
      | none => rfl
      | some k => cases k <;> rfl
    · rw [State.serve, State.grant_of_busy (by rwa [s.arb_completeNext]), s.arb_completeNext]
    · rw [State.serve_readBuffer]
      simp only [ReadBuffer.put, State.got, ReadBuffer.place, LinePlace.gotFor]
      rfl
  case refine_2 =>
    refine congrArg Host.Outcome.next (State.onEvent_of_due hr ?_ _)
    show expired s.arb.initDue _ = true
    rw [hinit]
    exact decide_eq_true hdue
  case refine_3 =>
    refine congrArg Host.Outcome.next (State.onEvent_of_due hr ?_ _)
    show expired s.arb.refreshDue _ = true
    rw [hrefresh]
    exact decide_eq_true hdue
  case refine_4 =>
    simp only [exec, execRefreshComplete, State.completed_of_due hport hdue]
    rfl

end Sys2Proof.Machine

/-! SUPPORT. The slot ring, what the engine's job starts and completions leave alone, and the lane down and lane release
as the blocks take them (R36, R44, R55, R56, R63, R69). -/

namespace Sys2Proof.Machine

/-! ### The slot of a role -/

theorem LaneStore.slotOf_eq_some {st : LaneStore} {role : Role} {i : Fin 4} (h : st.slotOf role = some i) :
    ∃ held, st.ring.get i = some held ∧ held.role = role := by
  have := List.find?_some h
  cases hget : st.ring.get i with
  | none => simp [hget] at this
  | some held => exact ⟨held, rfl, by simpa [hget] using this⟩

/-- Freeing a slot leaves the other roles where they are. -/
theorem LaneStore.slotOf_free {st : LaneStore} {role : Role} {i : Fin 4} {held : HeldSlot}
    (hget : st.ring.get i = some held) (hne : held.role ≠ role) : (st.free i).slotOf role = st.slotOf role := by
  unfold LaneStore.slotOf LaneStore.free
  congr 1
  funext k
  by_cases hk : k = i
  · subst hk
    simp [hget, hne]
  · rw [Four.get_set_other _ _ hk]

/-- The slot of a role becomes FREE, and no other. -/
theorem LaneStore.get_freeRole (role : Role) (st : LaneStore) (i : Fin 4) :
    (st.freeRole role).ring.get i = if st.slotOf role = some i then none else st.ring.get i := by
  unfold LaneStore.freeRole
  cases hslot : st.slotOf role with
  | none => simp
  | some j =>
    by_cases hij : i = j
    · subst hij
      simp [LaneStore.free]
    · simp [LaneStore.free, Four.get_set_other _ _ hij, Ne.symm hij]

theorem LaneStore.slotOf_freeRole {role other : Role} (st : LaneStore) (hne : role ≠ other) :
    (st.freeRole role).slotOf other = st.slotOf other := by
  unfold LaneStore.freeRole
  split
  · rename_i i hslot
    obtain ⟨held, hget, hrole⟩ := LaneStore.slotOf_eq_some hslot
    exact LaneStore.slotOf_free hget (hrole ▸ hne)
  · rfl

/-- Two roles become FREE. -/
theorem LaneStore.get_freeRole_freeRole {role other : Role} (hne : role ≠ other) (st : LaneStore) (i : Fin 4) :
    ((st.freeRole role).freeRole other).ring.get i
      = if st.slotOf role = some i ∨ st.slotOf other = some i then none else st.ring.get i := by
  rw [LaneStore.get_freeRole, LaneStore.slotOf_freeRole _ hne, LaneStore.get_freeRole]
  by_cases h1 : st.slotOf role = some i <;> by_cases h2 : st.slotOf other = some i <;> simp [h1, h2]

theorem LaneStore.freeRole_eq (role : Role) (st : LaneStore) :
    st.freeRole role = { st with ring := (st.freeRole role).ring } := by
  unfold LaneStore.freeRole
  split <;> rfl

/-! ### One lane's blocks, changed twice -/

theorem Four.modify_modify {α : Type} (v : Four α) (n : Fin 4) (f g : α → α) :
    (v.modify n f).modify n g = v.modify n fun a => g (f a) := by
  apply Four.ext_get
  intro i
  by_cases hi : i = n
  · subst hi
    simp
  · simp [Four.get_modify_other _ _ hi]

theorem Four.modify_congr {α : Type} {v : Four α} {n : Fin 4} {f g : α → α} (h : f (v.get n) = g (v.get n)) :
    v.modify n f = v.modify n g := congrArg (v.set n) h

theorem State.modLane_modLane (n : Lane) (f g : LaneBlocks → LaneBlocks) (s : State) :
    (s.modLane n f).modLane n g = s.modLane n fun l => g (f l) :=
  congrArg (fun lanes => ({ s with lanes := lanes } : State)) (Four.modify_modify s.lanes n f g)

/-! ### The engine's starts and completions -/

/-- What the engine leaves alone when jobs start and complete (R63, R68): a lane that has no job keeps its blocks, and a
lane that has one keeps all but store, motion, dust, purge and counters. -/
structure State.EngineOnly (s t : State) : Prop where
  rest : t = { s with lanes := t.lanes, jobs := t.jobs, chan := t.chan }
  reports : t.chan.apartReports = s.chan.apartReports
  jobs : ∀ j ∈ t.jobs, ∃ i ∈ s.jobs, i.lane = j.lane
  idle : ∀ k, (∀ j ∈ s.jobs, j.lane ≠ k) → t.lane k = s.lane k
  judged : ∀ k, (t.lane k).rx.judged = (s.lane k).rx.judged
  relay : ∀ k, (t.lane k).relay = (s.lane k).relay
  test : ∀ k, (t.lane k).test = (s.lane k).test
  staleAge : ∀ k, (t.lane k).staleAge = (s.lane k).staleAge

namespace State.EngineOnly

theorem refl (s : State) : s.EngineOnly s :=
  ⟨rfl, rfl, fun j hj => ⟨j, hj, rfl⟩, fun _ _ => rfl, fun _ => rfl, fun _ => rfl, fun _ => rfl, fun _ => rfl⟩

theorem trans {s t u : State} (h : s.EngineOnly t) (k : t.EngineOnly u) : s.EngineOnly u where
  rest := by rw [k.rest, h.rest]
  reports := k.reports.trans h.reports
  jobs j hj := by
    obtain ⟨i, hi, hij⟩ := k.jobs j hj
    obtain ⟨i', hi', hii⟩ := h.jobs i hi
    exact ⟨i', hi', hii.trans hij⟩
  idle n hn := by
    rw [k.idle n fun j hj => ?_, h.idle n hn]
    obtain ⟨i, hi, hij⟩ := h.jobs j hj
    exact hij ▸ hn i hi
  judged n := (k.judged n).trans (h.judged n)
  relay n := (k.relay n).trans (h.relay n)
  test n := (k.test n).trans (h.test n)
  staleAge n := (k.staleAge n).trans (h.staleAge n)

/-- A change of the lane of a job. -/
theorem modLane {s : State} {j : Job} (hj : j ∈ s.jobs) {f : LaneBlocks → LaneBlocks} (jobs : List Job)
    (hjobs : ∀ i ∈ jobs, ∃ k ∈ s.jobs, k.lane = i.lane)
    (hf : ∀ l, (f l).rx.judged = l.rx.judged ∧ (f l).relay = l.relay ∧ (f l).test = l.test ∧ (f l).staleAge = l.staleAge) :
    s.EngineOnly { s.modLane j.lane f with jobs := jobs } := by
  have lane {α : Type} (p : LaneBlocks → α) (hp : ∀ l, p (f l) = p l) (k : Lane) :
      p ((s.modLane j.lane f).lane k) = p (s.lane k) := by
    by_cases hk : k = j.lane
    · subst hk
      simp [hp]
    · rw [State.lane_modLane_other f s hk]
  exact
    { rest := rfl
      reports := rfl
      jobs := hjobs
      idle := fun k hk => State.lane_modLane_other f s (hk j hj).symm
      judged := lane (·.rx.judged) fun l => (hf l).1
      relay := lane (·.relay) fun l => (hf l).2.1
      test := lane (·.test) fun l => (hf l).2.2.1
      staleAge := lane (·.staleAge) fun l => (hf l).2.2.2 }

theorem offerAll (s : State) (l : List Notice) : s.EngineOnly (s.offerAll l) := by
  rw [State.offerAll_eq]
  refine { refl s with rest := rfl, reports := ?_ }
  show (s.chan.takeReports l).apartReports = s.chan.apartReports
  unfold CommandChannel.takeReports
  split <;> rfl

theorem beginJob {s : State} {j : Job} (hj : j ∈ s.jobs) : s.EngineOnly (s.beginJob j) := by
  refine modLane hj _ (fun i hi => ?_) fun l => ⟨rfl, rfl, rfl, rfl⟩
  rcases List.mem_cons.1 hi with rfl | hi
  · exact ⟨j, hj, rfl⟩
  · exact ⟨i, List.mem_of_mem_drop hi, rfl⟩

theorem completeJob (s : State) : s.EngineOnly s.completeJob := by
  unfold State.completeJob
  split
  · exact refl s
  · rename_i j rest hjobs
    split
    · exact refl s
    · rename_i run _
      refine trans ?_ (offerAll _ _)
      have once (g : LaneBlocks → LaneBlocks) :
          State.modLane j.lane g { s.modLane j.lane (LaneBlocks.completeRun j.number j.slot run) with jobs := rest }
            = { s.modLane j.lane fun l => g (l.completeRun j.number j.slot run) with jobs := rest } := by
        exact congrArg (fun u : State => { u with jobs := rest })
          (State.modLane_modLane j.lane (LaneBlocks.completeRun j.number j.slot run) g s)
      unfold State.modPurge
      rw [once]
      refine modLane (hjobs ▸ List.mem_cons_self) _ (fun i hi => ⟨i, hjobs ▸ List.mem_cons_of_mem _ hi, rfl⟩)
        fun l => ⟨?_, rfl, rfl, rfl⟩
      unfold LaneBlocks.completeRun
      simp only
      split <;> rfl

theorem runJobs (fuel : Nat) (s : State) : s.EngineOnly (s.runJobs fuel) := by
  induction fuel generalizing s with
  | zero => exact refl s
  | succ fuel ih =>
    unfold State.runJobs
    split
    · exact refl s
    · rename_i j rest hjobs
      have begun : s.EngineOnly (s.beginJob j) := beginJob (hjobs ▸ List.mem_cons_self)
      split
      · exact refl s
      · simp only
        split
        · exact begun
        · exact begun.trans ((completeJob _).trans (ih _))

theorem startJobs (s : State) : s.EngineOnly s.startJobs := runJobs _ s

end State.EngineOnly

/-- While a job runs, or none waits, no job starts (R63). -/
theorem State.startJobs_of_running {s : State} (h : ∀ j ∈ s.jobs.head?, j.run.isSome = true) : s.startJobs = s := by
  unfold State.startJobs
  cases hjobs : s.jobs with
  | nil => rfl
  | cons j rest =>
    have hrun := h j (by simp [hjobs])
    simp only [List.length_cons, State.runJobs, hjobs, hrun, if_true]

/-! ### The lane down -/

/-- Whether a lane down discards the data of a transfer: a write of the lane, and a read while its job runs. -/
def State.downDiscards (n : Lane) (s : State) (k : TransferKind) : Bool :=
  k.writesLane n || k.isRead && (s.laneJob n).any (·.run.isSome)

/-- The engine's context after a lane down (R69). -/
def Motion.abandon (abandoned : Bool) (k : Motion) : Motion :=
  { k with
    jitterX := 0, jitterY := 0, referenceValid := false
    counters := if abandoned then { k.counters with jobsAbandoned := count k.counters.jobsAbandoned 1 }
      else k.counters }

/-- The lane's blocks after a lane down. -/
def LaneBlocks.down (n : Lane) (abandoned : Bool) (l : LaneBlocks) : LaneBlocks :=
  { l with
    store := l.store.laneDown, relay := (l.relay.laneDown n).1, motion := l.motion.abandon abandoned
    dust := l.dust.dropSets }

/-- What a lane down makes of the blocks, before its reports and the start of the next job. -/
def State.down (n : Lane) (s : State) : State :=
  { s.discardTransfer (s.downDiscards n) with
    lanes := s.lanes.modify n (LaneBlocks.down n (s.laneJob n).isSome)
    jobs := s.jobs.filter fun j => j.lane ≠ n }

theorem State.discardTransfer_discardTransfer (p q : TransferKind → Bool) (s : State) :
    (s.discardTransfer p).discardTransfer q = s.discardTransfer fun k => p k || q k := by
  unfold State.discardTransfer State.modArb
  simp only [Option.map_map]
  congr
  funext t
  by_cases hp : p t.kind = true <;> by_cases hq : q t.kind = true <;> simp [hp, hq]

theorem State.discardTransfer_none {p : TransferKind → Bool} (h : ∀ k, p k = false) (s : State) :
    s.discardTransfer p = s := by
  simp [State.discardTransfer, State.modArb, h]

theorem State.laneJob_eq_none {s : State} {n : Lane} (h : s.laneJob n = none) :
    s.jobs.filter (fun j => j.lane ≠ n) = s.jobs := by
  apply List.filter_eq_self.2
  intro j hj
  have := List.find?_eq_none.1 h j hj
  simpa using this

theorem State.abandonJob_eq (n : Lane) (s : State) : s.abandonJob n =
    { s.discardTransfer (fun k => k.isRead && (s.laneJob n).any (·.run.isSome)) with
      lanes := s.lanes.modify n fun l => { l with motion := l.motion.abandon (s.laneJob n).isSome }
      jobs := s.jobs.filter fun j => j.lane ≠ n } := by
  unfold State.abandonJob
  cases hjob : s.laneJob n with
  | none =>
    have hid : s.discardTransfer (fun k => k.isRead && (none : Option Job).any (·.run.isSome)) = s :=
      State.discardTransfer_none (fun k => by simp) s
    rw [hid, State.laneJob_eq_none hjob]
    rfl
  | some j =>
    cases hrun : j.run.isSome
    · have hid : s.discardTransfer (fun k => k.isRead && (some j).any (·.run.isSome)) = s :=
        State.discardTransfer_none (fun k => by simp [hrun]) s
      rw [hid]
      simp only [hrun]
      rfl
    · have hread : (fun k : TransferKind => k.isRead && (some j).any (·.run.isSome)) = TransferKind.isRead := by
        funext k
        simp [hrun]
      rw [hread]
      simp only [hrun]
      rfl

theorem State.deliverLaneDown_eq (n : Lane) (s : State) :
    s.deliverLaneDown n = ((s.down n).offerAll ((s.lane n).relay.laneDown n).2).startJobs := by
  unfold State.deliverLaneDown
  congr 1
  have hrelay : ((s.storeLaneDown n).lane n).relay = (s.lane n).relay := by simp [State.storeLaneDown]
  have lanes (abandoned : Bool) : (((((s.lanes.modify n fun l => { l with store := l.store.laneDown }).modify n
      fun l => { l with dust := l.dust.dropSets }).modify n fun l => { l with relay := (l.relay.laneDown n).1 }).modify n
      fun l => { l with motion := l.motion.abandon abandoned })) = s.lanes.modify n (LaneBlocks.down n abandoned) := by
    simp only [Four.modify_modify]
    rfl
  have arb := congrArg State.arb (State.discardTransfer_discardTransfer (TransferKind.writesLane n)
    (fun k => k.isRead && (s.laneJob n).any (·.run.isSome)) s)
  unfold State.relayEvent
  rw [hrelay, State.offerAll_eq, State.offerAll_eq, State.abandonJob_eq]
  unfold State.down
  rw [← lanes]
  exact congrArg (fun a => ({ s with
    arb := a, lanes := _, jobs := _, chan := s.chan.takeReports ((s.lane n).relay.laneDown n).2 } : State)) arb

/-- The lane has no job left, and its blocks are those that the lane down made. -/
theorem State.lane_deliverLaneDown (n : Lane) (s : State) :
    (s.deliverLaneDown n).lane n = (s.lane n).down n (s.laneJob n).isSome := by
  rw [State.deliverLaneDown_eq]
  refine ((State.EngineOnly.startJobs _).idle n ?_).trans ?_
  · rw [State.offerAll_eq]
    intro j hj
    simpa using (List.mem_filter.1 hj).2
  · rw [State.offerAll_eq]
    exact Four.get_modify_same _ _ _

theorem State.engineOnly_deliverLaneDown (n : Lane) (s : State) : (s.down n).EngineOnly (s.deliverLaneDown n) := by
  rw [State.deliverLaneDown_eq]
  exact (State.EngineOnly.offerAll _ _).trans (State.EngineOnly.startJobs _)

theorem State.lane_down_other {n k : Lane} (s : State) (h : k ≠ n) : (s.down n).lane k = s.lane k :=
  Four.get_modify_other _ _ h

theorem LaneStore.get_laneDown (st : LaneStore) (i : Fin 4) : st.laneDown.ring.get i
    = if st.slotOf .filling = some i ∨ st.slotOf .conditioning = some i then none else st.ring.get i :=
  LaneStore.get_freeRole_freeRole (by decide) st i

/-- The reports of a lane down: the message in flight first, with its phase and counts, then the others (R37). -/
theorem Relay.reports_laneDown (n : Lane) (r : Relay) : (r.laneDown n).2 = match r.inFlight, r.queue with
    | some phase, k :: rest => relayFailedReport n k .laneDown phase.code r.taken r.reply.length
      :: rest.map fun k => relayFailedReport n k .laneDown 0 0 0
    | _, queue => queue.map fun k => relayFailedReport n k .laneDown 0 0 0 := by
  simp only [Relay.laneDown, Relay.failAll, Relay.failInFlight]
  cases r.inFlight <;> cases hqueue : r.queue <;> simp [hqueue]

theorem Relay.laneDown_context (n : Lane) (r : Relay) : (r.laneDown n).1 = { r with
    queue := [], inFlight := none, progressDue := none, reply := [], abortOwed := 2
    sendToggle := true, acceptedToggle := false, candidate := none } := by
  simp only [Relay.laneDown, Relay.failAll, Relay.failInFlight]
  cases r.inFlight <;> cases r.queue <;> rfl

theorem State.laneJob_isSome (n : Lane) (s : State) : (s.laneJob n).isSome = s.jobs.any fun j => j.lane == n := by
  rw [Bool.eq_iff_iff]
  simp [State.laneJob]

theorem Transfer.discard_eq (discarded : Bool) (tr : Transfer) :
    (if discarded then { tr with live := false } else tr) = { tr with live := tr.live && !discarded } := by
  cases discarded <;> simp

/-- Settles O10. -/
theorem laneDownReachesTheBlocks : Obligations.LaneDownReachesTheBlocks := by
  unfold Obligations.LaneDownReachesTheBlocks
  intro n s t before after kept runs discarded fate reports down
  have hafter : after = before.down n (s.laneJob n).isSome := s.lane_deliverLaneDown n
  have hget (i : Fin 4) : after.store.ring.get i = kept i := hafter ▸ before.store.get_laneDown i
  have hreports : (before.relay.laneDown n).2 = reports := by
    rw [Relay.reports_laneDown]
    simp only [reports]
    cases before.relay.inFlight with
    | none => rfl
    | some phase => cases before.relay.queue <;> cases phase <;> rfl
  have hdown : s.down n = down := by
    have hport : (s.down n).arb = down.arb := by
      refine congrArg (fun f => { s.arb with port := s.arb.port.map f }) (funext fun tr => ?_)
      have same : s.downDiscards n tr.kind = discarded tr := by
        obtain ⟨kind, due, live⟩ := tr
        cases kind <;> simp [State.downDiscards, discarded, TransferKind.writesLane, TransferKind.isRead,
          State.laneJob, runs]
      rw [same]
      exact tr.discard_eq _
    have hstore : before.store.laneDown = ⟨⟨kept 0, kept 1, kept 2, kept 3⟩, [], none, .closed⟩ := by
      rw [← hget, ← hget, ← hget, ← hget, hafter]
      rfl
    have hlanes : (s.down n).lanes = down.lanes := by
      refine congrArg (s.lanes.set n) ?_
      show before.down n (s.laneJob n).isSome = { before with
        store := ⟨⟨kept 0, kept 1, kept 2, kept 3⟩, [], none, .closed⟩
        relay := after.relay, motion := after.motion, dust := after.dust }
      rw [hafter, ← hstore]
      rfl
    have hjobs : (s.down n).jobs = down.jobs := by
      refine List.filter_congr fun j _ => ?_
      by_cases hj : j.lane = n <;> simp [hj]
    calc s.down n = { down with arb := (s.down n).arb, lanes := (s.down n).lanes, jobs := (s.down n).jobs } := rfl
      _ = down := by rw [hport, hlanes, hjobs]
  have ht : t = (down.offerAll reports).startJobs := by
    rw [← hdown, ← hreports]
    exact s.deliverLaneDown_eq n
  have frame := s.engineOnly_deliverLaneDown n
  have kept_of {i : Fin 4} {h : HeldSlot} (hi : before.store.ring.get i = some h) (hr : h.role = .ready ∨ h.role = .showing) :
      kept i = some h := by
    refine (if_neg ?_).trans hi
    rintro (hslot | hslot) <;> obtain ⟨held, hheld, hrole⟩ := LaneStore.slotOf_eq_some hslot <;>
      obtain rfl := Option.some.inj (hi.symm.trans hheld) <;> rw [hrole] at hr <;> simp at hr
  have other (k : Lane) (hk : k ≠ n) : (t.lane k).rx.judged = (s.lane k).rx.judged ∧ (t.lane k).relay = (s.lane k).relay := by
    rw [← State.lane_down_other s hk]
    exact ⟨frame.judged k, frame.relay k⟩
  have quiet (k : Lane) : (t.lane k).test = (s.lane k).test ∧ (t.lane k).staleAge = (s.lane k).staleAge := by
    rw [frame.test k, frame.staleAge k]
    by_cases hk : k = n
    · subst hk
      have hlane : (s.down k).lane k = before.down k (s.laneJob k).isSome := Four.get_modify_same _ _ _
      rw [hlane]
      exact ⟨rfl, rfl⟩
    · rw [State.lane_down_other s hk]
      exact ⟨rfl, rfl⟩
  have rest := frame.rest
  have jobsStay : (down.offerAll reports).jobs = down.jobs := by rw [State.offerAll_eq]
  refine ⟨ht, fun hruns => ht.trans (State.startJobs_of_running ?_), ?_, ?_, ?_, fun i hi => ?_, fun i hi => ?_,
    fun i h hi hr => ?_, ?_, fun j hj => ?_, ?_, ?_, ?_, ?_, other, quiet, ?_, ?_, ?_, ?_, ?_, frame.reports, ?_, ?_⟩
  case refine_1 => rwa [jobsStay]
  case refine_5 => exact (hget i).trans (if_pos (.inl hi))
  case refine_6 => exact (hget i).trans (if_pos (.inr hi))
  case refine_7 => exact (hget i).trans (kept_of hi hr)
  case refine_8 => rw [hafter, ← Relay.laneDown_context n]; rfl
  case refine_9 =>
    obtain ⟨i, hi, hij⟩ := frame.jobs j hj
    rw [← hij]
    simpa [State.down] using (List.mem_filter.1 hi).2
  case refine_10 =>
    rw [hafter, ← State.laneJob_isSome]
    simp only [LaneBlocks.down, Motion.abandon]
    cases (s.laneJob n).isSome <;> rfl
  case refine_14 => exact (congrArg State.timing rest :)
  case refine_15 => exact (congrArg State.tx rest :)
  case refine_16 => exact (congrArg State.comp rest :)
  case refine_17 => exact (congrArg State.tone rest :)
  case refine_18 => exact (congrArg State.dram rest :)
  case refine_19 => exact (congrArg State.pending rest :)
  case refine_20 => exact (congrArg State.now rest :)
  all_goals
    rw [hafter]
    rfl

end Sys2Proof.Machine

/-! SUPPORT. The lane release, the geometry change and the lock, and the loss of the timing master (R14, R56, R70, R147). -/

namespace Sys2Proof.Machine

/-! ### The lane release -/

theorem LaneStore.release_eq (st : LaneStore) : st.release = { st with ring := st.release.ring } := by
  unfold LaneStore.release
  rw [LaneStore.freeRole_eq .showing, LaneStore.freeRole_eq .ready]

theorem LaneStore.get_release (st : LaneStore) (i : Fin 4) : st.release.ring.get i
    = if st.slotOf .ready = some i ∨ st.slotOf .showing = some i then none else st.ring.get i :=
  LaneStore.get_freeRole_freeRole (by decide) st i

theorem State.lane_storeRelease (n : Lane) (s : State) :
    (s.storeRelease n).lane n = { s.lane n with store := (s.lane n).store.release } := Four.get_modify_same _ _ _

theorem State.lane_storeRelease_other {n k : Lane} (s : State) (h : k ≠ n) : (s.storeRelease n).lane k = s.lane k :=
  Four.get_modify_other _ _ h

/-- Settles O11. -/
theorem releaseAndGeometry : Obligations.ReleaseAndGeometry := by
  unfold Obligations.ReleaseAndGeometry
  refine ⟨fun n s => ?_, fun n g s => ?_, fun n g s hg => ?_⟩
  case refine_1 =>
    intro store t
    have ht : (t.lane n).store = store.release := congrArg LaneBlocks.store (s.lane_storeRelease n)
    refine ⟨fun i => by rw [ht]; exact store.get_release i, ?_⟩
    have hlanes : t.lanes = s.lanes.modify n fun l => { l with store := { l.store with ring := (t.lane n).store.ring } } := by
      refine congrArg (s.lanes.set n) ?_
      show { s.lane n with store := store.release } = { s.lane n with store := { store with ring := (t.lane n).store.ring } }
      rw [ht, ← LaneStore.release_eq]
    have harb : t.arb = { s.arb with port := s.arb.port.map fun tr => match tr.kind with
        | .fetch _ item => if item.lane = n then { tr with live := false } else tr
        | _ => tr } := by
      refine congrArg (fun f => { s.arb with port := s.arb.port.map f }) (funext fun tr => ?_)
      obtain ⟨kind, due, live⟩ := tr
      cases kind <;> simp [TransferKind.fetchesLane]
    exact congr_both (fun lanes arb => ({ s with lanes := lanes, arb := arb, comp := t.comp } : State)) hlanes harb
  case refine_2 =>
    exact State.modLane_modLane n _ _ s
  case refine_3 =>
    intro rx u v
    have hgeometry : rx.acquisition.getD rx.geometry = g := by rw [show rx.acquisition = some g from hg]; rfl
    unfold State.lock
    simp only
    rw [show (s.lane n).rx.acquisition.getD (s.lane n).rx.geometry = g from hgeometry]
    rfl

/-! ### The loss of the master (R147) -/

theorem Timing.timerTicks_lose (t : Timing) :
    t.lose.timerTicks = if t.mode = .free then usTicks t.freeRun else t.lossPeriod := by
  unfold Timing.timerTicks Timing.lose
  cases t.mode <;> rfl

theorem State.checkMaster_of_kept {n : Lane} {s : State}
    (h : s.timing.master ≠ some n ∨ (s.lane n).rx.video = true) : s.checkMaster n = s :=
  if_neg fun ⟨hmaster, hvideo⟩ => h.elim (· hmaster) fun hkept => by simp [hkept] at hvideo

/-- Settles O12. -/
theorem losingTheMaster : Obligations.LosingTheMaster := by
  unfold Obligations.LosingTheMaster
  intro n s
  refine ⟨fun h => State.checkMaster_of_kept (h.imp_right fun hv => Receiver.video_iff.2 hv), fun hmaster hleft => ?_⟩
  intro period wait due lost left
  have hvideo : (s.lane n).rx.video = false := by
    rw [← Bool.not_eq_true, Receiver.video_iff]
    exact fun ⟨hlocked, hnormal⟩ => hleft.elim (· hlocked) (· hnormal)
  have hlost : s.timing.lose.loseWatch = lost := by
    unfold Timing.loseWatch
    rw [Timing.timerTicks_lose]
    rfl
  have hreport (number : Nat) :
      timingReport (some n) .laneLeft { lost with frameNumber := number } = left number := by
    simp only [left, lost, period]
    cases s.timing.mode <;> rfl
  have hnumber : lost.numberFrame = { lost with
      firstPending := lost.numberFrame.firstPending
      frameNumber := if s.timing.firstPending then s.timing.frameNumber else (s.timing.frameNumber + 1) % 65536 } := by
    unfold Timing.numberFrame
    cases hfirst : s.timing.firstPending <;> simp [lost]
  have hbegun : s.modTiming (fun t => t.lose.loseWatch) = { s with timing := lost } :=
    congrArg (fun t => ({ s with timing := t } : State)) hlost
  have hexpired : lost.timerExpired s.now = true ↔ due ≤ s.now ∧ s.timing.phase = .blanking := by
    simp [Timing.timerExpired, lost]
  unfold State.checkMaster
  rw [if_pos ⟨hmaster, hvideo⟩]
  simp only [hbegun, hexpired]
  have hstays : timingReport (some n) .laneLeft lost = left s.timing.frameNumber := hreport _
  have hmoves : timingReport (some n) .laneLeft lost.numberFrame
      = left (if s.timing.firstPending then s.timing.frameNumber else (s.timing.frameNumber + 1) % 65536) := by
    rw [hnumber]
    exact hreport _
  rw [hstays, hmoves]

end Sys2Proof.Machine

/-! SUPPORT. The output frame start, said as one change of the state: what it makes of the output timing, the Compositor,
the tone tables, the rings and the Command Channel (R145, R146, R149, section 7.3). -/

namespace Sys2Proof.Machine

@[simp] theorem CommandChannel.takeReports_nil (c : CommandChannel) : c.takeReports [] = c := by
  simp [CommandChannel.takeReports]

theorem State.offer_eq (nt : Notice) (s : State) : s.offer nt = { s with chan := s.chan.takeReports [nt] } :=
  State.offerAll_eq [nt] s

/-! ### The raster change (R149) -/

/-- The raster in force after the start. -/
def Timing.newRaster (t : Timing) : Raster := t.pendingRaster.getD t.raster

def Timing.takeRaster (t : Timing) : Timing := { t with raster := t.newRaster, pendingRaster := none }

/-- Both images of every page after a change of raster. -/
def Compositor.refit (old new : Raster) (c : Compositor) : Compositor :=
  if new = old then c
  else { c with
    pagesActive := c.pagesActive.map (disableMisfits new), pagesPending := c.pagesPending.map (disableMisfits new) }

/-- The report of a change of raster, when it disables a window. -/
def Compositor.refitReports (old new : Raster) (c : Compositor) : List Notice :=
  if new ≠ old ∧ c.anyMisfit new = true then [windowDisabledReport new c] else []

theorem State.applyRaster_eq (s : State) : s.applyRaster = { s with
    timing := s.timing.takeRaster, comp := s.comp.refit s.timing.raster s.timing.newRaster
    chan := s.chan.takeReports (s.comp.refitReports s.timing.raster s.timing.newRaster) } := by
  unfold State.applyRaster Timing.takeRaster Timing.newRaster Compositor.refit Compositor.refitReports
  cases hpending : s.timing.pendingRaster with
  | none =>
    simp only [Option.getD_none, if_true, ne_eq, not_true_eq_false, false_and, if_false,
      CommandChannel.takeReports_nil]
    rw [← hpending]
  | some k =>
    simp only [Option.getD_some]
    by_cases hk : k = s.timing.raster
    · simp only [hk, if_true, ne_eq, not_true_eq_false, false_and, if_false, CommandChannel.takeReports_nil,
        State.modTiming]
    · cases hmisfit : s.comp.anyMisfit k
      · simp [hk, State.modTiming, State.modComp]
      · simp [hk, State.modTiming, State.modComp, State.offer_eq]

/-! ### The frame's number and the sync offset -/

theorem Timing.numberFrame_eq (t : Timing) : t.numberFrame = { t with
    firstPending := false
    frameNumber := if t.firstPending then t.frameNumber else (t.frameNumber + 1) % 65536 } := by
  unfold Timing.numberFrame
  cases t.firstPending <;> simp

@[simp] theorem Timing.newRaster_numberFrame (t : Timing) : t.numberFrame.newRaster = t.newRaster := by
  rw [t.numberFrame_eq]
  rfl

@[simp] theorem Timing.raster_numberFrame (t : Timing) : t.numberFrame.raster = t.raster := by
  rw [t.numberFrame_eq]

@[simp] theorem Compositor.commitRequested_refit (old new : Raster) (c : Compositor) :
    (c.refit old new).commitRequested = c.commitRequested := by
  unfold Compositor.refit
  split <;> rfl

/-- Reports leave the rest of the Command Channel alone. -/
theorem CommandChannel.apartReports_takeReports (l : List Notice) (c : CommandChannel) :
    (c.takeReports l).apartReports = c.apartReports := by
  unfold CommandChannel.takeReports
  split <;> rfl

@[simp] theorem CommandChannel.supervision_takeReports (l : List Notice) (c : CommandChannel) :
    (c.takeReports l).supervision = c.supervision :=
  (congrArg CommandChannel.supervision (c.apartReports_takeReports l) :)

/-! ### The selection of the master (R146) -/

/-- The generator after a selection. -/
def Timing.select (chosen : Option Lane) (t : Timing) : Timing :=
  match t.master, chosen with
  | some p, some n => if p = n then t else t.choose n
  | none, some n => t.choose n
  | some _, none => t.lose
  | none, none => { t with holdover := t.holdover && t.mode != .free }

/-- The report of a selection that changes the master (R148). -/
def Timing.selectReports (dropped chosen : Option Lane) (t : Timing) : List Notice :=
  if chosen = t.master then [] else [timingReport t.master (t.changeCause dropped) (t.select chosen)]

theorem State.selectMaster_eq (dropped : Option Lane) (s : State) : s.selectMaster dropped = { s with
    timing := s.timing.select (s.candidate dropped)
    chan := s.chan.takeReports (s.timing.selectReports dropped (s.candidate dropped)) } := by
  unfold State.selectMaster Timing.selectReports Timing.select
  cases hmaster : s.timing.master with
  | none =>
    cases s.candidate dropped with
    | none => simp [State.modTiming, hmaster]
    | some n => simp [State.modTiming, State.offer_eq]
  | some p =>
    cases s.candidate dropped with
    | none => simp [State.modTiming, State.offer_eq]
    | some n =>
      by_cases hp : p = n
      · simp [hp]
      · simp [hp, Ne.symm hp, State.modTiming, State.offer_eq]

/-- What a selection can do. -/
theorem Timing.select_cases (chosen : Option Lane) (t : Timing) :
    (chosen = t.master ∧ t.master ≠ none ∧ t.select chosen = t)
      ∨ (∃ n, chosen = some n ∧ t.master ≠ some n ∧ t.select chosen = t.choose n)
      ∨ (chosen = none ∧ t.master ≠ none ∧ t.select chosen = t.lose)
      ∨ (chosen = none ∧ t.master = none ∧ t.select chosen = { t with holdover := t.holdover && t.mode != .free }) := by
  unfold Timing.select
  cases hmaster : t.master with
  | none => cases chosen <;> simp
  | some p =>
    cases chosen with
    | none => simp
    | some n =>
      by_cases hp : p = n
      · simp [hp]
      · simp [hp, Ne.symm hp]

@[simp] theorem Timing.select_master (chosen : Option Lane) (t : Timing) : (t.select chosen).master = chosen := by
  rcases t.select_cases chosen with ⟨hc, _, h⟩ | ⟨n, hc, _, h⟩ | ⟨hc, _, h⟩ | ⟨hc, hm, h⟩ <;> rw [h, hc]
  · rfl
  · rfl
  · exact hm

/-- A selection changes the master, and what goes with it. -/
theorem Timing.select_eq (chosen : Option Lane) (t : Timing) : t.select chosen = { t with
    master := chosen, average := (t.select chosen).average, offsetMark := (t.select chosen).offsetMark
    flywheel := (t.select chosen).flywheel, holdover := (t.select chosen).holdover
    holdoverPeriod := (t.select chosen).holdoverPeriod } := by
  rcases t.select_cases chosen with ⟨hc, _, h⟩ | ⟨n, hc, _, h⟩ | ⟨hc, _, h⟩ | ⟨hc, hm, h⟩ <;> rw [h, hc]
  · rfl
  · rfl
  · rw [← hm]

/-! ### The start -/

/-- The output timing after a frame start at which `chosen` is selected. -/
def Timing.atFrameStart (now : Nat) (chosen : Option Lane) (t : Timing) : Timing :=
  (t.numberFrame.takeRaster.latchSync.select chosen).beginFrame now

/-- The Compositor after a frame start, but for the frame plan. -/
def State.laidOut (s : State) : Compositor :=
  let c := ((s.comp.refit s.timing.raster s.timing.newRaster).swap).sampleReverse s.reverse
  { c with shownPage := c.choose s.chan.supervision }

/-- The reports of a frame start, the raster's before the master's. -/
def State.startReports (dropped : Option Lane) (s : State) : CommandChannel :=
  (s.chan.takeReports (s.comp.refitReports s.timing.raster s.timing.newRaster)).takeReports
    (s.timing.numberFrame.takeRaster.latchSync.selectReports dropped (s.candidate dropped))

/-- The state of a frame start, but for the frame plan, which is made of it. -/
def State.started (dropped : Option Lane) (s : State) : State :=
  { s.discardTransfer TransferKind.isFetch with
    timing := s.timing.atFrameStart s.now (s.candidate dropped), comp := s.laidOut
    tone := s.tone.swap s.comp.commitRequested, chan := s.startReports dropped
    lanes := s.lanes.map LaneBlocks.atFrameStart, tx := { s.tx with video := .blanking }, readBuffer := .reset }

/-- What a frame start does after the selection of the master, but for the frame plan. -/
def State.beginFrame (s : State) : State :=
  let c := s.comp.swap.sampleReverse s.reverse
  { s.discardTransfer TransferKind.isFetch with
    timing := s.timing.beginFrame s.now, comp := { c with shownPage := c.choose s.chan.supervision }
    tone := s.tone.swap s.comp.commitRequested, lanes := s.lanes.map LaneBlocks.atFrameStart
    tx := { s.tx with video := .blanking }, readBuffer := .reset }

/-- The frame plan is made of the state. -/
def State.withPlan (s : State) : State := s.modComp fun c => { c with plan := s.makePlan }

theorem State.composeFrame_eq (u : State) : State.composeFrame { u.discardTransfer TransferKind.isFetch with
    timing := u.timing.beginFrame u.now, lanes := u.lanes.map LaneBlocks.atFrameStart
    tx := { u.tx with video := .blanking }, readBuffer := .reset } = u.beginFrame.withPlan := by
  unfold State.composeFrame State.withPlan State.beginFrame
  rfl

theorem State.startFrame_stages (dropped : Option Lane) (s : State) : s.startFrame dropped = (State.beginFrame
    ((State.modTiming Timing.latchSync (s.modTiming Timing.numberFrame).applyRaster).selectMaster dropped)).withPlan := by
  unfold State.startFrame
  exact State.composeFrame_eq _

theorem State.startFrame_eq (dropped : Option Lane) (s : State) :
    s.startFrame dropped = (s.started dropped).withPlan := by
  have raster : (s.modTiming Timing.numberFrame).applyRaster = { s with
      timing := s.timing.numberFrame.takeRaster, comp := s.comp.refit s.timing.raster s.timing.newRaster
      chan := s.chan.takeReports (s.comp.refitReports s.timing.raster s.timing.newRaster) } := by
    rw [State.applyRaster_eq]
    show ({ s with timing := _, comp := _, chan := _ } : State) = _
    simp only [State.modTiming, Timing.newRaster_numberFrame, Timing.raster_numberFrame]
  have candidate (c : Compositor) (k : CommandChannel) : State.candidate
      { s with timing := s.timing.numberFrame.takeRaster.latchSync, comp := c, chan := k } dropped = s.candidate dropped := by
    rw [s.timing.numberFrame_eq]
    rfl
  have selection : (State.modTiming Timing.latchSync (s.modTiming Timing.numberFrame).applyRaster).selectMaster dropped
      = { s with
        timing := s.timing.numberFrame.takeRaster.latchSync.select (s.candidate dropped)
        comp := s.comp.refit s.timing.raster s.timing.newRaster, chan := s.startReports dropped } := by
    rw [raster, State.selectMaster_eq]
    simp only [State.modTiming, candidate]
    rfl
  have begun : State.beginFrame ((State.modTiming Timing.latchSync
      (s.modTiming Timing.numberFrame).applyRaster).selectMaster dropped) = s.started dropped := by
    rw [selection]
    have supervision : (s.startReports dropped).supervision = s.chan.supervision := by simp [State.startReports]
    unfold State.beginFrame State.started State.laidOut
    rw [supervision, Compositor.commitRequested_refit]
    rfl
  rw [State.startFrame_stages, begun]

/-! ### What the start leaves of each block -/

section Started

variable (dropped : Option Lane) (s : State)

theorem State.startFrame_timing : (s.startFrame dropped).timing = s.timing.atFrameStart s.now (s.candidate dropped) := by
  rw [State.startFrame_eq]
  rfl

theorem State.startFrame_lane (n : Lane) : (s.startFrame dropped).lane n = (s.lane n).atFrameStart := by
  rw [State.startFrame_eq]
  exact Four.get_map _ _ _

theorem State.startFrame_chan : (s.startFrame dropped).chan = s.startReports dropped := by
  rw [State.startFrame_eq]
  rfl

theorem State.startFrame_comp :
    (s.startFrame dropped).comp = { s.laidOut with plan := (s.started dropped).makePlan } := by
  rw [State.startFrame_eq]
  rfl

end Started

/-- The output timing after a frame start, apart from what the selection sets (R145). -/
theorem Timing.atFrameStart_eq (now : Nat) (chosen : Option Lane) (t : Timing) : t.atFrameStart now chosen = { t with
    frameNumber := if t.firstPending then t.frameNumber else (t.frameNumber + 1) % 65536, firstPending := false
    raster := t.newRaster, pendingRaster := none, phase := .picture, lastStart := now, nextLine := 0
    syncInForce := t.syncOffset, master := chosen
    average := (t.atFrameStart now chosen).average, offsetMark := (t.atFrameStart now chosen).offsetMark
    flywheel := (t.atFrameStart now chosen).flywheel, holdover := (t.atFrameStart now chosen).holdover
    holdoverPeriod := (t.atFrameStart now chosen).holdoverPeriod, watch := (t.atFrameStart now chosen).watch } := by
  unfold Timing.atFrameStart Timing.beginFrame
  rw [Timing.select_eq, Timing.numberFrame_eq]
  rfl

/-- Settles O13. -/
theorem frameStartWork : Obligations.FrameStartWork := by
  unfold Obligations.FrameStartWork
  intro dropped s t
  have htiming : t.timing = s.timing.atFrameStart s.now (s.candidate dropped) := s.startFrame_timing dropped
  have hparts := htiming.trans (Timing.atFrameStart_eq _ _ _)
  have hrest : t = (s.started dropped).withPlan := s.startFrame_eq dropped
  have hwatch : t.timing.watch = some (match t.timing.master with
      | some _ => .deadline (s.now + t.timing.flywheelTicks)
      | none => .timer (s.now + t.timing.timerTicks)) := by
    rw [htiming]
    rfl
  refine ⟨(congrArg Timing.frameNumber hparts :), (congrArg Timing.firstPending hparts :),
    (congrArg Timing.raster hparts :), (congrArg Timing.pendingRaster hparts :), (congrArg Timing.phase hparts :),
    (congrArg Timing.lastStart hparts :), (congrArg Timing.nextLine hparts :), (congrArg Timing.syncInForce hparts :),
    ?watch, (congrArg State.readBuffer hrest :), (congrArg State.tx hrest :), ?port, fun n => s.startFrame_lane dropped n,
    (congrArg State.jobs hrest :), (congrArg State.dram hrest :), ?reports, (congrArg State.pending hrest :),
    (congrArg State.now hrest :)⟩
  case watch =>
    rw [hwatch]
    congr 2
    simp only [Timing.timerTicks]
    cases t.timing.mode <;> cases t.timing.holdover <;> rfl
  case port =>
    rw [hrest]
    refine congrArg (fun f => { s.arb with port := s.arb.port.map f }) (funext fun tr => ?_)
    obtain ⟨kind, due, live⟩ := tr
    cases kind <;> rfl
  case reports =>
    rw [s.startFrame_chan dropped]
    simp only [State.startReports, CommandChannel.apartReports_takeReports]

/-- The output timing that the selection finds. -/
theorem Timing.beforeSelection_eq (t : Timing) : t.numberFrame.takeRaster.latchSync = { t with
    frameNumber := if t.firstPending then t.frameNumber else (t.frameNumber + 1) % 65536, firstPending := false
    raster := t.newRaster, pendingRaster := none, syncInForce := t.syncOffset
    offsetMark := if t.syncOffset = t.syncInForce then t.offsetMark else none } := by
  rw [Timing.numberFrame_eq]
  rfl

/-- The report of a change of master, byte for byte (R148, R183). -/
theorem timingReport_eq (previous : Option Lane) (cause : TimingCause) (t : Timing) : timingReport previous cause t
    = ⟨.timing, none, .ok, [(previous.map fourByte).getD 255, (t.master.map fourByte).getD 255] ++ byte1 cause.code
      ++ byte1 (match t.mode with | .auto => 0 | .fixed _ => 1 | .free => 2)
      ++ byteBool t.holdover
      ++ (match t.holdover, t.holdoverPeriod with
        | true, some k => byte2 (k / 40)
        | _, _ => [0xFF, 0xFF])
      ++ byte2 t.frameNumber⟩ := by
  have lane (m : Option Lane) : optByte1 (optLane m) = [(m.map fourByte).getD 255] := by cases m <;> rfl
  have holdover : optByte2 (if t.holdover then t.holdoverPeriod.map (· / 40) else none)
      = (match t.holdover, t.holdoverPeriod with
        | true, some k => byte2 (k / 40)
        | _, _ => [0xFF, 0xFF]) := by
    cases t.holdover <;> cases t.holdoverPeriod <;> rfl
  have mode : t.mode.code = (match t.mode with | .auto => 0 | .fixed _ => 1 | .free => 2) := by cases t.mode <;> rfl
  rw [timingReport, lane, lane, holdover, mode]
  rfl

/-- Settles O14. -/
theorem masterIsSelected : Obligations.MasterIsSelected := by
  unfold Obligations.MasterIsSelected
  intro dropped s t qualifies
  have htiming : t.timing = s.timing.atFrameStart s.now (s.candidate dropped) := s.startFrame_timing dropped
  have hmaster : t.timing.master = s.candidate dropped := (congrArg Timing.master (htiming.trans (Timing.atFrameStart_eq _ _ _)) :)
  let t0 := s.timing.numberFrame.takeRaster.latchSync
  have h0 : t0 = _ := s.timing.beforeSelection_eq
  have hsame : t0.master = s.timing.master := (congrArg Timing.master h0 :)
  have hmode : t0.mode = s.timing.mode := (congrArg Timing.mode h0 :)
  have selected := t0.select_cases (s.candidate dropped)
  rw [hsame] at selected
  rw [hmaster]
  refine ⟨rfl, fun hne => ?_, fun heq => ?_, ?_, fun hraster => ?_⟩
  case refine_1 =>
    have hparts : t.timing = (t0.select (s.candidate dropped)).beginFrame s.now := htiming
    rw [hparts]
    rcases selected with ⟨hc, _, h⟩ | ⟨n, hc, hn, h⟩ | ⟨hc, hn, h⟩ | ⟨hc, hm, h⟩
    · exact absurd hc hne
    · rw [h]
      exact ⟨rfl, rfl, rfl⟩
    · rw [h]
      exact ⟨rfl, rfl, rfl⟩
    · exact absurd (hc.trans hm.symm) hne
  case refine_2 =>
    have kept : (t0.select (s.candidate dropped)).average = s.timing.average
        ∧ (t0.select (s.candidate dropped)).flywheel = s.timing.flywheel
        ∧ (t0.select (s.candidate dropped)).offsetMark
          = if s.timing.syncOffset = s.timing.syncInForce then s.timing.offsetMark else none := by
      rcases selected with ⟨_, _, h⟩ | ⟨n, hc, hn, _⟩ | ⟨hc, hn, _⟩ | ⟨_, _, h⟩
      · rw [h, h0]
        exact ⟨rfl, rfl, rfl⟩
      · exact absurd (heq.symm.trans hc) hn
      · exact absurd (heq.symm.trans hc) hn
      · rw [h, h0]
        exact ⟨rfl, rfl, rfl⟩
    obtain ⟨average, flywheel, offset⟩ := kept
    rw [htiming]
    exact ⟨average, flywheel, fun hsync => offset.trans (if_pos hsync), fun hsync => offset.trans (if_neg hsync)⟩
  case refine_3 =>
    rw [htiming]
    show ((t0.select (s.candidate dropped)).holdover, (t0.select (s.candidate dropped)).holdoverPeriod) = _
    rcases selected with ⟨hc, hn, h⟩ | ⟨n, hc, hn, h⟩ | ⟨hc, hn, h⟩ | ⟨hc, hm, h⟩
    · rw [h, h0, hc]
      obtain ⟨p, hp⟩ := Option.ne_none_iff_exists'.1 hn
      simp [hp]
    · rw [h, h0, hc]
      cases hm : s.timing.master with
      | none => rfl
      | some p =>
        have hp : p ≠ n := fun e => hn (hm.trans (congrArg some e))
        simp [hp, Timing.choose]
    · rw [h, h0, hc]
      obtain ⟨p, hp⟩ := Option.ne_none_iff_exists'.1 hn
      simp only [hp]
      rfl
    · rw [h, h0, hc, hm]
  case refine_4 =>
    intro cause
    have hreports : s.comp.refitReports s.timing.raster s.timing.newRaster = [] := by
      simp [Compositor.refitReports, Timing.newRaster, hraster]
    have hcause : (t0.changeCause dropped).code = cause := by
      unfold Timing.changeCause
      rw [hsame, hmode]
      simp only [cause]
      cases s.timing.master with
      | none => rfl
      | some p =>
        by_cases hd : dropped = some p
        · simp only [hd, if_true]
          rfl
        · cases s.timing.mode with
          | fixed n => by_cases hn : n = p <;> simp [hd, hn, TimingCause.code]
          | _ => simp [hd, TimingCause.code]
    rw [s.startFrame_chan dropped, State.startReports, hreports, CommandChannel.takeReports_nil, State.offer_eq]
    show s.chan.takeReports (t0.selectReports dropped (s.candidate dropped)) = _
    have report : timingReport s.timing.master (t0.changeCause dropped) (t0.select (s.candidate dropped))
        = timingReport s.timing.master (t0.changeCause dropped) t.timing := by
      rw [htiming]
      rfl
    have mode : t.timing.mode = s.timing.mode := (congrArg Timing.mode (htiming.trans (Timing.atFrameStart_eq _ _ _)) :)
    rw [timingReport_eq _ _ t.timing, hmaster, hcause, mode] at report
    unfold Timing.selectReports
    rw [hsame, report]
    split
    · exact CommandChannel.takeReports_nil _
    · rfl

end Sys2Proof.Machine

/-! SUPPORT. The layout and the frame plan of an output frame start (R120 to R126, R131, R149). -/

namespace Sys2Proof.Machine

/-! ### The windows that leave a raster -/

theorem Raster.size_eq (r : Raster) : (r.width, r.height)
    = (match r with | .r1280x800 => (1280, 800) | .r1024x600 => (1024, 600) | .r800x480 => (800, 480)) := by
  cases r <;> rfl

theorem WindowRecord.misfit_iff {r : WindowRecord} {k : Raster} :
    r.misfit k = true ↔ r.enabled = true ∧ (k.width < r.x + r.w ∨ k.height < r.y + r.h) := by
  simp only [WindowRecord.misfit, WindowRecord.fitsRaster, Bool.and_eq_true, Bool.not_eq_true', Bool.and_eq_false_iff,
    decide_eq_false_iff_not, Nat.not_le]

/-- Disabling a window that leaves the raster, whether or not it was enabled. -/
theorem WindowRecord.disable_misfit (r : WindowRecord) (k : Raster) :
    (if r.misfit k then { r with enabled := false } else r)
      = if k.width < r.x + r.w ∨ k.height < r.y + r.h then { r with enabled := false } else r := by
  by_cases hleaves : k.width < r.x + r.w ∨ k.height < r.y + r.h
  · rw [if_pos hleaves]
    cases henabled : r.enabled
    · rw [if_neg (by simp [WindowRecord.misfit_iff, henabled])]
      rw [← henabled]
    · rw [if_pos (WindowRecord.misfit_iff.2 ⟨henabled, hleaves⟩)]
  · rw [if_neg hleaves, if_neg fun h => hleaves (WindowRecord.misfit_iff.1 h).2]

theorem Four.any_toList {α : Type} (v : Four α) (f : α → Bool) : v.toList.any f = true ↔ ∃ i, f (v.get i) = true := by
  simp only [Four.toList, List.any_cons, List.any_nil, Bool.or_false, Bool.or_eq_true]
  constructor
  · rintro (h | h | h | h)
    · exact ⟨0, h⟩
    · exact ⟨1, h⟩
    · exact ⟨2, h⟩
    · exact ⟨3, h⟩
  · rintro ⟨i, h⟩
    match i with
    | 0 => exact .inl h
    | 1 => exact .inr (.inl h)
    | 2 => exact .inr (.inr (.inl h))
    | 3 => exact .inr (.inr (.inr h))

theorem Compositor.anyMisfit_iff {k : Raster} {c : Compositor} : c.anyMisfit k = true
    ↔ ∃ p : Fin 4, misfits k (c.pagesActive.get p) ≠ [] ∨ misfits k (c.pagesPending.get p) ≠ [] := by
  simp only [Compositor.anyMisfit, List.any_append, Bool.or_eq_true, Four.any_toList, Bool.not_eq_true',
    List.isEmpty_eq_false_iff, exists_or]

/-- A page after a change of raster (R149). -/
def Page.refit (old new : Raster) (p : Page) : Page := if new = old then p else disableMisfits new p

theorem Compositor.refit_eq (old new : Raster) (c : Compositor) : c.refit old new = { c with
    pagesActive := c.pagesActive.map (Page.refit old new), pagesPending := c.pagesPending.map (Page.refit old new) } := by
  unfold Compositor.refit Page.refit
  by_cases h : new = old
  · simp only [h, if_true]
    rfl
  · simp only [h, if_false]

theorem Compositor.swap_eq (c : Compositor) : c.swap = { c with
    pagesActive := if c.commitRequested then c.pagesPending else c.pagesActive
    marksActive := if c.commitRequested then c.marksPending else c.marksActive, commitRequested := false } := by
  unfold Compositor.swap
  cases hcommit : c.commitRequested
  · simp only [Bool.false_eq_true, if_false]
    rw [← hcommit]
  · rfl

theorem State.laidOut_eq (s : State) : s.laidOut = { s.comp with
    pagesPending := s.comp.pagesPending.map (Page.refit s.timing.raster s.timing.newRaster)
    pagesActive := (if s.comp.commitRequested then s.comp.pagesPending else s.comp.pagesActive).map
      (Page.refit s.timing.raster s.timing.newRaster)
    marksActive := if s.comp.commitRequested then s.comp.marksPending else s.comp.marksActive
    commitRequested := false, lastReverse := s.reverse
    debouncedReverse := if s.reverse = s.comp.lastReverse then s.reverse else s.comp.debouncedReverse
    shownPage := (match s.chan.supervision with
      | .active =>
        if (if s.reverse = s.comp.lastReverse then s.reverse else s.comp.debouncedReverse) = true then .page 3
        else .page s.comp.selectedPage
      | _ => .fallback) } := by
  unfold State.laidOut
  rw [Compositor.refit_eq, Compositor.swap_eq]
  simp only [Compositor.sampleReverse, Compositor.choose, beq_iff_eq]
  cases s.comp.commitRequested <;> cases s.chan.supervision <;> rfl

/-- The plan shows the chosen layout's windows. -/
theorem State.startFrame_plan (dropped : Option Lane) (s : State) :
    ((s.startFrame dropped).comp.plan.map fun p => (p.window, p.record)) = (s.startFrame dropped).layoutWindows := by
  have made : (s.startFrame dropped).comp.plan = (s.started dropped).makePlan := by rw [s.startFrame_comp]
  have windows : (s.startFrame dropped).layoutWindows = (s.started dropped).layoutWindows := by
    rw [s.startFrame_eq]
    rfl
  have planned (w : Nat) (r : WindowRecord) (u : State) :
      ((u.planWindow w r).window, (u.planWindow w r).record) = (w, r) := by
    unfold State.planWindow
    simp only
    split <;> rfl
  rw [made, windows, State.makePlan, List.map_map]
  exact (List.map_congr_left fun w _ => planned w.1 w.2 _).trans (List.map_id' _)

/-- Settles O15. -/
theorem layoutAtFrameStart : Obligations.LayoutAtFrameStart := by
  unfold Obligations.LayoutAtFrameStart
  intro dropped s t reverse raster size leaves kept gone listed pages first
  have htiming : t.timing = s.timing.atFrameStart s.now (s.candidate dropped) := s.startFrame_timing dropped
  have hparts := htiming.trans (Timing.atFrameStart_eq _ _ _)
  have hcomp : t.comp = { s.laidOut with plan := (s.started dropped).makePlan } := s.startFrame_comp dropped
  have hchan : t.chan = s.startReports dropped := s.startFrame_chan dropped
  have hsize : size = (raster.width, raster.height) := (Raster.size_eq raster).symm
  have hleaves (r : WindowRecord) : leaves r ↔ raster.width < r.x + r.w ∨ raster.height < r.y + r.h := by
    show size.1 < _ ∨ size.2 < _ ↔ _
    rw [hsize]
  have hkept : kept = Page.refit s.timing.raster raster := by
    funext p
    simp only [kept, Page.refit, disableMisfits, WindowRecord.disable_misfit, hleaves]
  have hgone (p : Page) : gone p = misfits raster p := by
    refine List.filter_congr fun w _ => ?_
    rw [Bool.eq_iff_iff, WindowRecord.misfit_iff]
    simp [hleaves]
  have hlisted (l : List Nat) : listed l = countedWindows l := rfl
  have hfirst : first.chan = s.chan.takeReports (s.comp.refitReports s.timing.raster raster) := by
    have hall : ∀ p : Fin 4, p ∈ pages := by decide
    simp only [first, Compositor.refitReports, Compositor.anyMisfit_iff, hgone, hlisted, hall, true_and]
    split
    · rw [State.offer_eq]
      rfl
    · exact (CommandChannel.takeReports_nil _).symm
  have hshown : ∀ w, t.comp.plan.map (·.window) = w ↔ t.layoutWindows.map (·.1) = w := by
    intro w
    rw [← State.startFrame_plan, List.map_map]
    rfl
  have hmaster : t.timing.master = s.candidate dropped := (congrArg Timing.master hparts :)
  have hselect : s.timing.numberFrame.takeRaster.latchSync.selectReports dropped (s.candidate dropped)
      = if s.candidate dropped = s.timing.master then [] else [timingReport s.timing.master
        (s.timing.numberFrame.takeRaster.latchSync.changeCause dropped)
        (s.timing.numberFrame.takeRaster.latchSync.select (s.candidate dropped))] := by
    unfold Timing.selectReports
    rw [show s.timing.numberFrame.takeRaster.latchSync.master = s.timing.master from
      (congrArg Timing.master s.timing.beforeSelection_eq :)]
  refine ⟨(congrArg Timing.raster hparts :), ?_, ?_, ?_, ?_, fun hfallback => ?_, fun n hn => ?_⟩
  case refine_1 =>
    rw [hcomp, hkept, State.laidOut_eq]
    rfl
  case refine_5 =>
    rw [hshown, State.layoutWindows, hfallback]
    rfl
  case refine_6 =>
    rw [hshown, State.layoutWindows, hn]
    simp only [windowNumbers, List.filter_map, List.map_map, Function.comp_def, List.map_id']
  case refine_2 =>
    have htone : t.tone = s.tone.swap s.comp.commitRequested := by
      show (s.startFrame dropped).tone = _
      rw [s.startFrame_eq]
      rfl
    rw [htone, ToneTables.swap]
    cases s.comp.commitRequested <;> rfl
  case refine_3 =>
    intro heq
    rw [hchan, hfirst, State.startReports, hselect, if_pos (hmaster.symm.trans heq)]
    exact CommandChannel.takeReports_nil _
  case refine_4 =>
    intro hne
    have offered (nt : Notice) : (first.offer nt).chan = first.chan.takeReports [nt] := by rw [State.offer_eq]
    simp only [offered, hfirst, hchan, State.startReports, hselect]
    rw [if_neg fun e => hne (hmaster.trans e)]
    exact ⟨_, rfl⟩

/-! ### The windows of the plan (R124, R126, R131) -/

/-- The slot that shows, as the first slot whose role is SHOWING. -/
theorem LaneStore.slotOf_eq_find (st : LaneStore) (role : Role) :
    st.slotOf role = fourNumbers.find? fun i => (st.ring.get i).any fun h => h.role == role := by
  unfold LaneStore.slotOf
  congr 1
  funext i
  cases st.ring.get i <;> rfl

theorem State.planWindow_of_hidden {s : State} {r : WindowRecord} (h : (s.lane r.lane).store.slotOf .showing = none)
    (w : Nat) : (s.planWindow w r).content = .lost := by
  simp [State.planWindow, h]

/-- The record of a window whose lane shows a frame. -/
theorem State.planWindow_of_showing {s : State} {r : WindowRecord} {i : Fin 4} {h : HeldSlot}
    (hslot : (s.lane r.lane).store.slotOf .showing = some i) (hget : (s.lane r.lane).store.ring.get i = some h) (w : Nat) :
    s.planWindow w r =
      let f := h.record
      let corrX := f.conditioned.elim 0 (·.corrX)
      let corrY := f.conditioned.elim 0 (·.corrY)
      { window := w, record := r
        content := contentOf (some f) (s.lane r.lane).staleAge s.comp.holdLimit r.sourceSize (s.lane r.lane).rx.state
        ox := evenDown (cropAxis r.cx (if r.stabilize then corrX else 0) (f.geometry.w - r.sourceSize.1))
        oy := cropAxis r.cy (if r.stabilize then corrY else 0) (f.geometry.h - r.sourceSize.2)
        sw := r.sourceSize.1, sh := r.sourceSize.2
        shiftX := (markShift r corrX corrY).1, shiftY := (markShift r corrX corrY).2
        view := some ⟨i, f.geometry, f.damaged, f.conditioned.elim [] (·.gains), f.conditioned.elim 0 (·.band),
          (s.lane r.lane).dust.table.map (·.lastMean)⟩ } := by
  simp [State.planWindow, hslot, LaneStore.record, hget]

theorem contentOf_some (f : FrameRecord) (age limit : Nat) (size : Nat × Nat) (st : LaneState) :
    contentOf (some f) age limit size st
      = if limit < age ∨ f.geometry.w < size.1 ∨ f.geometry.h < size.2 then .lost
        else if st = .locked then .normal
        else .stale := by
  unfold contentOf fits
  by_cases h1 : limit < age
  · simp [h1]
  · by_cases h2 : f.geometry.w < size.1
    · simp [h1, h2, Nat.not_le.2 h2]
    · by_cases h3 : f.geometry.h < size.2
      · simp [h1, h3, Nat.not_le.2 h3]
      · by_cases h4 : st = .locked <;> simp [h1, h2, h3, h4, Nat.not_lt.1 h2, Nat.not_lt.1 h3]

theorem cropAxis_eq (origin : Nat) (corr : Int) (limit : Nat) :
    cropAxis origin corr limit = (max 0 (min (limit : Int) (origin + corr))).toNat := by
  unfold cropAxis clampInt
  split
  · omega
  · split <;> omega

theorem markShift_eq (r : WindowRecord) (cx cy : Int) : markShift r cx cy
    = if r.stabilize = true ∧ r.anchoring = .camera then
        (match r.scale with
          | .one => (-cx, -cy)
          | .down => ((-cx).tdiv 2, (-cy).tdiv 2)
          | .up => (-2 * cx, -2 * cy))
      else (0, 0) := by
  simp only [markShift, truncDiv_eq_tdiv, Bool.and_eq_true, beq_iff_eq]
  cases r.scale <;> rfl

/-- Settles O16. -/
theorem framePlanIsMade : Obligations.FramePlanIsMade := by
  unfold Obligations.FramePlanIsMade
  intro dropped s t raster g axis fallback
  have hsize : raster = (t.timing.raster.width, t.timing.raster.height) := (Raster.size_eq _).symm
  have hgeometry : (t.lane 0).rx.geometry = g := by rw [s.startFrame_lane]; rfl
  have hfallback : fallbackWindow (t.lane 0).rx.geometry t.timing.raster = fallback := by
    rw [hgeometry]
    simp only [fallback, hsize]
    rfl
  refine ⟨?_, fun p hp => ?_⟩
  case refine_1 =>
    rw [s.startFrame_plan dropped, State.layoutWindows, hfallback]
    rfl
  case refine_2 =>
    intro l size showing
    have hmade : ∃ w r, (s.started dropped).planWindow w r = p := by
      have hplan : t.comp.plan = (s.started dropped).makePlan :=
        (congrArg Compositor.plan (s.startFrame_comp dropped) :)
      obtain ⟨w, _, hw⟩ := List.mem_map.1 (hplan ▸ hp)
      exact ⟨w.1, w.2, hw⟩
    obtain ⟨w, r, rfl⟩ := hmade
    have hlane (n : Lane) : (s.started dropped).lane n = t.lane n := by
      show _ = (s.startFrame dropped).lane n
      rw [s.startFrame_eq]
      rfl
    have hlimit : (s.started dropped).comp.holdLimit = s.comp.holdLimit := by
      show s.laidOut.holdLimit = _
      rw [s.laidOut_eq]
    have hrecord : ((s.started dropped).planWindow w r).record = r := by
      unfold State.planWindow
      simp only
      split <;> rfl
    have hl : l = (s.started dropped).lane r.lane := by
      rw [hlane]
      exact congrArg (fun q : WindowRecord => t.lane q.lane) hrecord
    have hsource : size = r.sourceSize := congrArg WindowRecord.sourceSize hrecord
    have hshowing : showing = l.store.slotOf .showing := (LaneStore.slotOf_eq_find _ _).symm
    refine ⟨fun hnone => State.planWindow_of_hidden (hl ▸ hshowing ▸ hnone) w, fun i h hsome hget => ?_⟩
    rw [State.planWindow_of_showing (hl ▸ hshowing ▸ hsome) (hl ▸ hget), ← hl, hlimit]
    refine ⟨?_, fun c hc hnot => ?_⟩
    · rw [hsource]
      exact contentOf_some _ _ _ _ _
    · intro moved shift
      simp only [hc, Option.elim_some, hsource, cropAxis_eq]
      exact ⟨trivial, markShift_eq r c.corrX c.corrY, rfl, rfl, trivial⟩

end Sys2Proof.Machine

/-! SUPPORT. The execution of a command whose payload passes its checks, and the supervision commands and reads
(R156, R157, R165 to R169). -/

namespace Sys2Proof.Machine

/-! ### The message leaves the queue (R156) -/

/-- The state after the oldest message has left the queue, on which its command is carried out. -/
def State.taken (m : Moment) (s : State) : State := (s.advance m).modChan CommandChannel.dequeue

theorem State.execute_taken {s : State} {k : Nat} {c : CmdMessage} (h : s.ReadyFor k c) (m : Moment)
    (body : CmdMessage → State → State) : s.execute m (CmdMessage.is k) body = body c (s.taken m) :=
  State.execute_ready h m body

@[simp] theorem State.lane_taken (m : Moment) (s : State) (n : Lane) : (s.taken m).lane n = s.lane n := rfl

theorem State.answer_taken (s : State) (m : Moment) (c : CmdMessage) (code : ReplyCode) (data : List Byte) :
    (s.taken m).answer c code data = s.replied m (c.reply code data) := State.answer_dequeued s m c code data

/-! ### The checks of a payload that passes them (R157) -/

section Checks

variable {c : CmdMessage} {s : State}

theorem State.ofLength_of {k : Nat} (h : c.payload.length = k) (body : State → State) : s.ofLength k c body = body s :=
  if_pos h

theorem State.ofLane_of {n : Lane} {p : List Byte} (h : c.payload = fourByte n :: p) (body : Lane → State → State) :
    s.ofLane c body = body n s := by
  unfold State.ofLane
  rw [h, laneArg_fourByte]

theorem State.ofField_some {α : Type} (a : α) (body : α → State → State) : s.ofField (some a) c body = body a s := rfl

theorem State.ofField_none {α : Type} (body : α → State → State) : s.ofField none c body = s.refuse c .badArg := rfl

theorem State.ofOnOff_of {i : Nat} {b : Bool} (h : c.payload.getD i 0 = boolByte b) (body : Bool → State → State) :
    s.ofField (onOffArg c.payload i) c body = body b s := by
  rw [onOffArg_boolByte h, State.ofField_some]

theorem State.unless_of {ok : Bool} (h : ok = true) (code : ReplyCode) (body : State → State) :
    s.unless ok code c body = body s := if_pos h

/-- The reply, and the execution that then comes next. -/
theorem State.answer_eq (code : ReplyCode) (data : List Byte) : s.answer c code data = { s with
    chan := { s.chan with notices := s.chan.notices ++ [c.reply code data] }
    pending := executionDue ⟨s.now, s.reverse⟩ s.chan.queue (s.chan.notices.length + 1) ++ s.pending } := by
  simp [State.answer, State.bringExecution, State.pushNotice, State.modChan]

end Checks

/-! ### Supervision (R164 to R169) -/

theorem State.lockedOut_any (s : State) : (s.lanes.toList.any fun l => l.rx.state == .lockedOut) = true
    ↔ ∃ n, (s.lane n).rx.state = .lockedOut := by
  rw [Four.any_toList]
  simp only [beq_iff_eq]
  rfl

theorem State.faultLine_iff {s : State} :
    s.faultLine = true ↔ s.chan.supervision = .limp ∨ ∃ n, (s.lane n).rx.state = .lockedOut := by
  rw [State.faultLine, Bool.or_eq_true, State.lockedOut_any, beq_iff_eq]

theorem CommandChannel.resume_eq (now : Nat) (c : CommandChannel) : c.resume now = { c with
    supervision := .active
    heartbeatDue := if c.supervision = .active ∨ c.heartbeatPeriod = 0 then c.heartbeatDue
      else some (now + msTicks c.heartbeatPeriod) } := by
  unfold CommandChannel.resume CommandChannel.startHeartbeat
  cases hsup : c.supervision
  · simp
  · simp [← hsup]
  · simp

theorem exec_resume_ready {m : Moment} {s : State} {c : CmdMessage} (hr : s.ReadyFor 2 c) (hp : c.payload = []) :
    exec (.resume m) s = .next
      (let r := s.replied m (c.reply .ok (byte1 s.chan.supervision.code))
      { r with chan := { r.chan with
        supervision := .active
        heartbeatDue := if s.chan.supervision = .active ∨ s.chan.heartbeatPeriod = 0 then s.chan.heartbeatDue
          else some (max s.now m.tick + msTicks s.chan.heartbeatPeriod) } }) := by
  show Host.Outcome.next _ = _
  rw [State.execute_taken hr, State.ofLength_of (by rw [hp]; rfl)]
  simp only [State.modChan, CommandChannel.resume_eq, State.answer_eq]
  rfl

theorem exec_heartbeat_ready {m : Moment} {s : State} {c : CmdMessage} (hr : s.ReadyFor 1 c) (hp : c.payload = []) :
    exec (.heartbeat m) s = .next
      (s.replied m (c.reply .ok (byte1 s.chan.supervision.code ++ byte2 s.chan.heartbeatPeriod))) := by
  show Host.Outcome.next _ = _
  rw [State.execute_taken hr, State.ofLength_of (by rw [hp]; rfl), State.answer_taken]
  rfl

/-- The period that SET_SUPERVISION takes, and its reply's code (R167). -/
theorem periodArg_eq (x : Nat) :
    (periodArg x).value = (if x = 0 then 0 else clampNat 100 5000 x)
      ∧ clampCode [(periodArg x).changed] = if (periodArg x).value = x then .ok else .clamped := by
  unfold periodArg
  by_cases hx : x = 0
  · simp [hx, clampCode]
  · by_cases hc : clampNat 100 5000 x = x <;> simp [hx, hc, clampCode, clampArg]

theorem CommandChannel.setPeriod_eq (now period : Nat) (c : CommandChannel) : c.setPeriod now period = { c with
    heartbeatPeriod := period
    heartbeatDue := if period = 0 then none
      else match c.heartbeatDue, c.supervision with
        | some due, _ => some due
        | none, .active => some (now + msTicks period)
        | none, _ => none } := by
  unfold CommandChannel.setPeriod
  cases c.heartbeatDue with
  | some d => rfl
  | none => cases c.supervision <;> rfl

theorem EventFlag.mask_heartbeatLost :
    EventFlag.heartbeatLost.mask = 0x010000 ∧ ~~~EventFlag.heartbeatLost.mask = 0xFEFFFF := by decide

theorem State.loseTerminal_eq (s : State) : s.loseTerminal =
    let losses := min 4294967295 (s.chan.counters.heartbeatLosses + 1)
    ({ s with chan := { s.chan with
      supervision := .limp, heartbeatDue := none
      counters := { s.chan.counters with heartbeatLosses := losses }
      flags := s.chan.flags ||| 0x010000, reported := s.chan.reported &&& 0xFEFFFF } } : State).offer
        ⟨.supervision, none, .ok, byte1 s.chan.supervision.code ++ byte1 2 ++ byte2 s.chan.heartbeatPeriod
          ++ byte4 losses⟩ := by
  obtain ⟨hmask, _⟩ := EventFlag.mask_heartbeatLost
  simp only [State.loseTerminal, State.raise, State.modChan, CommandChannel.raise, hmask]
  rfl

theorem State.counterReply_taken (m : Moment) (s : State) : (s.taken m).counterReply =
    let depth := s.chan.queue.length - 1
    s.chan.counters.bytes ++ byte1 s.chan.resetCause.code ++ byte2 s.chan.restartCount
      ++ optByte1 (s.chan.restartTag.map (·.toNat)) ++ byte1 s.chan.supervision.code ++ byte2 s.chan.heartbeatPeriod
      ++ byte1 depth ++ byteBool (s.chan.hold && depth != 4) ++ s.lanes.toList.flatMap fun l =>
        byte4 l.purge.autoPurges ++ byte4 l.purge.manualPurges ++ byte4 l.purge.halts := by
  have depth : (s.taken m).chan.queue.length = s.chan.queue.length - 1 := List.length_drop
  have hold : (s.taken m).chan.hold = (s.chan.hold && s.chan.queue.length - 1 != 4) := by
    rw [← depth]
    rfl
  rw [State.counterReply, depth, hold]
  rfl

/-- Settles O17. -/
theorem supervisionCompletes : Obligations.SupervisionCompletes := by
  unfold Obligations.SupervisionCompletes
  refine ⟨fun s => State.faultLine_iff, fun m s c hp => ⟨fun hr => exec_heartbeat_ready hr hp, fun hr => ?resume⟩,
    fun m s c hi lo hr hp => ?period, fun m s due hr hsup hdue hle => ?expiry, fun m s c a b d hr hp => ?flags,
    fun m s c clear hr hp => ?counters⟩
  case resume =>
    refine ⟨exec_resume_ready hr hp, ?_⟩
    rw [State.faultLine_iff]
    simp only [reduceCtorEq, false_or]
    rfl
  case period =>
    intro period r
    have hword : wordAt c.payload 0 = wordOf hi lo := by rw [wordAt_wordOf, hp]; rfl
    show Host.Outcome.next _ = _
    rw [State.execute_taken hr, State.ofLength_of (by rw [hp]; rfl)]
    obtain ⟨hvalue, hcode⟩ := periodArg_eq (wordOf hi lo)
    simp only [hword, State.modChan, CommandChannel.setPeriod_eq, State.answer_eq, hcode, hvalue]
    rfl
  case expiry =>
    intro losses t
    refine ⟨congrArg Host.Outcome.next ((State.onEvent_of_due hr ?_ _).trans ?_), ?_⟩
    · show (s.chan.supervision == .active && expired s.chan.heartbeatDue _) = true
      rw [hsup, hdue]
      exact decide_eq_true hle
    · rw [State.loseTerminal_eq, State.advance_chan, hsup]
      rfl
    · exact State.faultLine_iff.2 (.inl (by simp [t, State.offer_eq]))
  case flags =>
    intro named flags r t
    have hnamed : namedFlags c.payload = named := by
      simp only [namedFlags, tripleAt, wordAt_wordOf, hp, named, Nat.mul_comm 65536]
      rfl
    have hexec : exec (.clearFlags m) s = .next t := by
      show Host.Outcome.next _ = _
      rw [State.execute_taken hr, State.ofLength_of (by rw [hp]; rfl)]
      simp only [hnamed, State.modChan, CommandChannel.clearNamed, State.answer_eq]
      rfl
    exact ⟨hexec, rfl⟩
  case counters =>
    intro depth r
    show Host.Outcome.next _ = _
    rw [State.execute_taken hr, State.ofLength_of (by rw [hp]; rfl), State.ofOnOff_of (b := clear) (by rw [hp]; rfl),
      State.counterReply_taken, State.answer_eq]
    cases clear <;> rfl

end Sys2Proof.Machine

/-! SUPPORT. The read commands (R26, R85, R107, R178). -/

namespace Sys2Proof.Machine

theorem State.ofField_of {α : Type} {field : Option α} {a : α} {c : CmdMessage} {s : State} (h : field = some a)
    (body : α → State → State) : s.ofField field c body = body a s := by
  rw [h, State.ofField_some]

theorem State.refuse_taken (s : State) (m : Moment) (c : CmdMessage) (code : ReplyCode) :
    (s.taken m).refuse c code = s.replied m (c.reply code []) := State.answer_taken s m c code []

theorem byte1_toNat (b : Byte) : byte1 b.toNat = [b] := by
  simp [byte1]

/-! ### READ_LANE and TEST_READ -/

theorem Receiver.replyBytes_eq (r : Receiver) : r.replyBytes =
    byte1 r.state.code ++ byte1 r.mode.code ++ byte1 r.geometryMode.code
      ++ byte2 r.configured.w ++ byte2 r.configured.h ++ byte2 r.geometry.w ++ byte2 r.geometry.h
      ++ (match r.acquisition with
        | some g => byte2 g.w ++ byte2 g.h
        | none => [0xFF, 0xFF, 0xFF, 0xFF])
      ++ byte1 r.health ++ byte1 r.attempts ++ optByte4 r.average ++ byte1 r.periods
      ++ byte2 r.silenceTimeout ++ byte2 r.recoveryDelay ++ byte1 r.dmax ++ r.counters.bytes := by
  unfold Receiver.replyBytes
  cases r.acquisition <;> simp [Geometry.bytes, optGeometry, List.append_assoc]

theorem exec_readLane_ready {m : Moment} {s : State} {c : CmdMessage} {n : Lane} {clear : Bool} (hr : s.ReadyFor 11 c)
    (hp : c.payload = [fourByte n, boolByte clear]) : exec (.readLane m) s = .next
      (let r := s.replied m (c.reply .ok (s.lane n).rx.replyBytes)
      if clear then r.modCounters n fun _ => .zero else r) := by
  show Host.Outcome.next _ = _
  rw [State.execute_taken hr, State.ofLength_of (by rw [hp]; rfl), State.ofLane_of hp,
    State.ofOnOff_of (b := clear) (by rw [hp]; rfl), State.answer_eq, ← State.answer_taken, State.answer_eq]
  cases clear <;> rfl

theorem exec_testRead_ready {m : Moment} {s : State} {c : CmdMessage} {n : Lane} (hr : s.ReadyFor 35 c)
    (hp : c.payload = [fourByte n]) : exec (.testRead m) s = .next
      ((s.replied m (c.reply .ok (s.lane n).testBytes)).modTest n fun t => { t with errorCount := 0 }) := by
  show Host.Outcome.next _ = _
  rw [State.execute_taken hr, State.ofLength_of (by rw [hp]; rfl), State.ofLane_of hp, State.answer_eq]
  rfl

/-! ### READ_MOTION and READ_DUST_MAP -/

theorem exec_readMotion_ready {m : Moment} {s : State} {c : CmdMessage} {n : Lane} {p : Byte} {part : MotionSection}
    {clear : Bool} (hr : s.ReadyFor 18 c) (hp : c.payload = [fourByte n, p, boolByte clear])
    (hpart : MotionSection.ofCode p.toNat = some part) (hok : (!clear || part == .context) = true) :
    exec (.readMotion m) s = .next
      (let r := s.replied m (c.reply .ok (s.motionBytes n part))
      if clear then r.modMotion n fun k => { k with counters := .zero } else r) := by
  show Host.Outcome.next _ = _
  rw [State.execute_taken hr, State.ofLength_of (by rw [hp]; rfl), State.ofLane_of hp,
    State.ofField_of (a := part) (by rw [hp]; exact hpart), State.ofOnOff_of (b := clear) (by rw [hp]; rfl),
    State.unless_of hok, State.answer_eq, ← State.answer_taken, State.answer_eq]
  cases clear <;> cases part <;> rfl

theorem exec_readMotion_refused {m : Moment} {s : State} {c : CmdMessage} {n : Lane} {p : Byte} (hr : s.ReadyFor 18 c)
    (hp : c.payload = [fourByte n, p, 1]) (hne : p ≠ 0) :
    exec (.readMotion m) s = .next (s.replied m (c.reply .badArg [])) := by
  show Host.Outcome.next _ = _
  rw [State.execute_taken hr, State.ofLength_of (by rw [hp]; rfl), State.ofLane_of hp]
  have hfield : byteAt c.payload 1 = p.toNat := by rw [hp]; rfl
  rw [hfield]
  cases hpart : MotionSection.ofCode p.toNat with
  | none => rw [State.ofField_none, State.refuse_taken]
  | some part =>
    have hcontext : (part == .context) = false := by
      cases part with
      | context =>
        refine absurd (BitVec.eq_of_toNat_eq ?_) hne
        unfold MotionSection.ofCode at hpart
        split at hpart <;> simp_all
      | _ => rfl
    rw [State.ofField_some, State.ofOnOff_of (b := true) (by rw [hp]; rfl), State.unless, if_neg (by simp [hcontext]),
      State.refuse_taken]

theorem exec_readDustMap_ready {m : Moment} {s : State} {c : CmdMessage} {n : Lane} {row : Byte} (hr : s.ReadyFor 21 c)
    (hp : c.payload = [fourByte n, row]) : exec (.readDustMap m) s = .next (s.replied m (
      if row.toNat < (s.lane n).rx.geometry.h / 32 then c.reply .ok ((s.lane n).mapBytes row.toNat)
      else c.reply .badArg [])) := by
  show Host.Outcome.next _ = _
  have hrow : byteAt c.payload 1 = row.toNat := by rw [hp]; rfl
  rw [State.execute_taken hr, State.ofLength_of (by rw [hp]; rfl), State.ofLane_of hp, hrow, State.lane_taken,
    State.unless]
  by_cases hlt : row.toNat < (s.lane n).rx.geometry.h / 32
  · rw [if_pos (decide_eq_true hlt), if_pos hlt, State.answer_taken]
    rfl
  · rw [if_neg (by simpa using hlt), if_neg hlt, State.refuse_taken]

theorem AnchorResult.bytes_eq (a : AnchorResult) : a.bytes = byte1 a.col ++ byte1 a.row
    ++ byte1 (match a.outcome with
      | .accepted => 0 | .disabled => 1 | .outside => 2 | .notClear => 3 | .damaged => 4 | .lowContrast => 5
      | .highSad => 6 | .notEvaluated => 7)
    ++ (match a.measure with
      | some x => signed1 x.dx ++ signed1 x.dy ++ byte2 x.sad ++ byte2 x.contrast
      | none => [0, 0, 0, 0, 0, 0]) := by
  obtain ⟨col, row, outcome, measure⟩ := a
  cases outcome <;> cases measure <;> rfl

theorem State.contextBytes_eq (s : State) (n : Lane) : s.contextBytes n =
    let k := (s.lane n).motion
    k.settings.bytes ++ byte1 k.anchors.length ++ signed2 k.jitterX ++ signed2 k.jitterY ++ byteBool k.referenceValid
      ++ jobBytes (s.laneJob n) ++ summaryBytes k.summary ++ byte4 k.counters.jobsCompleted
      ++ byte4 k.counters.validResults ++ byte4 k.counters.voidResults ++ byte4 k.counters.frozenJobs
      ++ byte4 k.counters.jobsAbandoned := by
  simp [State.contextBytes, MotionCounters.bytes, List.append_assoc]

/-- Settles O18. -/
theorem readsComplete : Obligations.ReadsComplete := by
  unfold Obligations.ReadsComplete
  refine ⟨fun m s c n clear => ?_, fun m s c n => ?_⟩
  · intro l
    refine ⟨fun hr hp => ?_, fun hr hp => exec_testRead_ready hr hp⟩
    rw [exec_readLane_ready hr hp, Receiver.replyBytes_eq]
    cases clear <;> rfl
  · intro k g settings job summary context six
    have hjob : jobBytes (s.laneJob n) = job := by
      simp only [job, State.laneJob]
      cases s.jobs.find? fun j => j.lane == n with
      | none => rfl
      | some j => cases hrun : j.run.isSome <;> simp [jobBytes, hrun, byte1]
    have hsummary : summaryBytes k.summary = summary := by
      simp only [summary]
      cases k.summary with
      | none => rfl
      | some u => cases hresult : u.result <;> simp [summaryBytes, hresult, MeasureResult.code, byte1]
    have hcontext : s.motionBytes n .context = context := by
      show s.contextBytes n = _
      rw [State.contextBytes_eq]
      simp only [context, ← hjob, ← hsummary]
      rfl
    have hsix (first : Nat) : (s.lane n).motion.anchorBytes first = six first := by
      simp only [Motion.anchorBytes, sixBytes, six, List.append_assoc, funext AnchorResult.bytes_eq]
      rfl
    refine ⟨fun clear hr hp => ?_, fun hr hp => ?_, fun hr hp => ?_, fun part hr hp hne => exec_readMotion_refused hr hp hne,
      fun row hr hp => ?_⟩
    · rw [exec_readMotion_ready hr hp rfl (by simp), hcontext]
      cases clear <;> rfl
    · rw [exec_readMotion_ready (clear := false) hr hp rfl rfl, ← hsix 0]
      rfl
    · rw [exec_readMotion_ready (clear := false) hr hp rfl rfl, ← hsix 6]
      rfl
    · rw [exec_readDustMap_ready hr hp]
      intro g tiles
      simp only [LaneBlocks.mapBytes, byte1_toNat]
      rfl

end Sys2Proof.Machine

/-! SUPPORT. The commands that set numbers, with their clamps (R23, R39, R62, R84, R105, R115, R152, R153). -/

namespace Sys2Proof.Machine

/-! ### Clamps (R157) -/

@[simp] theorem clampArg_value (lo hi x : Nat) : (clampArg lo hi x).value = clampNat lo hi x := rfl

@[simp] theorem clampArg_changed (lo hi x : Nat) : (clampArg lo hi x).changed = false ↔ clampNat lo hi x = x := by
  simp [clampArg]

/-- The reply says CLAMPED exactly when a clamp changed a number. -/
theorem clampCode_of {changed : List Bool} {same : Prop} [Decidable same] (h : (∀ b ∈ changed, b = false) ↔ same) :
    clampCode changed = if same then .ok else .clamped := by
  have hany : changed.any id = true ↔ ¬same := by
    rw [← h]
    simp
  by_cases hs : same
  · rw [clampCode, if_neg (fun e => hany.1 e hs), if_pos hs]
  · rw [clampCode, if_pos (hany.2 hs), if_neg hs]

theorem clampNat_of_byte (b : Byte) : clampNat 0 255 b.toNat = b.toNat := by
  have := b.isLt
  unfold clampNat
  rw [if_neg (by omega), if_neg (by omega)]

/-! ### A change of one lane's blocks, or of the arbiter or the output timing, and the reply -/

theorem State.answer_modLane (n : Lane) (f : LaneBlocks → LaneBlocks) (m : Moment) (s : State) (c : CmdMessage)
    (code : ReplyCode) (data : List Byte) : ((s.taken m).modLane n f).answer c code data
      = { s.replied m (c.reply code data) with lanes := s.lanes.modify n f } := by
  rw [State.answer_eq]
  rfl

theorem State.answer_modTiming (f : Timing → Timing) (m : Moment) (s : State) (c : CmdMessage) (code : ReplyCode)
    (data : List Byte) : ((s.taken m).modTiming f).answer c code data
      = { s.replied m (c.reply code data) with timing := f s.timing } := by
  rw [State.answer_eq]
  rfl

theorem State.answer_modComp (f : Compositor → Compositor) (m : Moment) (s : State) (c : CmdMessage) (code : ReplyCode)
    (data : List Byte) : ((s.taken m).modComp f).answer c code data
      = { s.replied m (c.reply code data) with comp := f s.comp } := by
  rw [State.answer_eq]
  rfl

theorem State.answer_modArb (f : Arbiter → Arbiter) (m : Moment) (s : State) (c : CmdMessage) (code : ReplyCode)
    (data : List Byte) : ((s.taken m).modArb f).answer c code data
      = { s.replied m (c.reply code data) with arb := f s.arb } := by
  rw [State.answer_eq]
  rfl

/-! ### The settings -/

section Settings

variable {m : Moment} {s : State} {c : CmdMessage} {n : Lane}

theorem exec_setLaneLimits_ready {a b d e f : Byte} (hr : s.ReadyFor 8 c) (hp : c.payload = [fourByte n, a, b, d, e, f]) :
    let silence := clampNat 10 1000 (wordOf a b)
    let recovery := clampNat 100 10000 (wordOf d e)
    let dmax := clampNat 0 32 f.toNat
    exec (.setLaneLimits m) s = .next { s.replied m (c.reply (if silence = wordOf a b ∧ recovery = wordOf d e
        ∧ dmax = f.toNat then .ok else .clamped) []) with
      lanes := s.lanes.modify n fun l => { l with rx := { l.rx with
        silenceTimeout := silence, recoveryDelay := recovery, dmax := dmax } } } := by
  intro silence recovery dmax
  have h1 : wordAt c.payload 1 = wordOf a b := by rw [wordAt_wordOf, hp]; rfl
  have h3 : wordAt c.payload 3 = wordOf d e := by rw [wordAt_wordOf, hp]; rfl
  have h5 : byteAt c.payload 5 = f.toNat := by rw [hp]; rfl
  show Host.Outcome.next _ = _
  rw [State.execute_taken hr, State.ofLength_of (by rw [hp]; rfl), State.ofLane_of hp]
  simp only [h1, h3, h5, clampArg_value]
  rw [State.modRx, State.answer_modLane, clampCode_of (same := silence = wordOf a b ∧ recovery = wordOf d e
    ∧ dmax = f.toNat) (by simp [silence, recovery, dmax])]

theorem exec_setRelay_ready {look : Bool} {a b : Byte} (hr : s.ReadyFor 13 c)
    (hp : c.payload = [fourByte n, boolByte look, a, b]) :
    let timeout := clampNat 10 500 (wordOf a b)
    exec (.setRelay m) s = .next { s.replied m (c.reply (if timeout = wordOf a b then .ok else .clamped) []) with
      lanes := s.lanes.modify n fun l => { l with relay := { l.relay with doubleLook := look, timeout := timeout } } } := by
  intro timeout
  have h2 : wordAt c.payload 2 = wordOf a b := by rw [wordAt_wordOf, hp]; rfl
  show Host.Outcome.next _ = _
  rw [State.execute_taken hr, State.ofLength_of (by rw [hp]; rfl), State.ofLane_of hp,
    State.ofOnOff_of (b := look) (by rw [hp]; rfl)]
  simp only [h2, clampArg_value]
  rw [State.modRelay, State.answer_modLane, clampCode_of (same := timeout = wordOf a b) (by simp [timeout])]

theorem exec_setRefresh_ready {a b : Byte} (hr : s.ReadyFor 15 c) (hp : c.payload = [a, b]) :
    let interval := clampNat 40 1248 (wordOf a b)
    exec (.setRefresh m) s = .next
      { s.replied m (c.reply (if interval = wordOf a b then .ok else .clamped) (byte2 interval)) with
        arb := { s.arb with interval := interval } } := by
  intro interval
  have h0 : wordAt c.payload 0 = wordOf a b := by rw [wordAt_wordOf, hp]; rfl
  show Host.Outcome.next _ = _
  rw [State.execute_taken hr, State.ofLength_of (by rw [hp]; rfl)]
  simp only [h0, clampArg_value]
  rw [State.answer_modArb, clampCode_of (same := interval = wordOf a b) (by simp [interval])]

theorem exec_setStabilizer_ready {on : Bool} {sx sy nmin s1 s0 f1 f0 a j mx my : Byte} (hr : s.ReadyFor 17 c)
    (hp : c.payload = [fourByte n, boolByte on, sx, sy, nmin, s1, s0, f1, f0, a, j, mx, my]) :
    let given : Stabilizer :=
      ⟨on, sx.toNat, sy.toNat, nmin.toNat, wordOf s1 s0, wordOf f1 f0, a.toNat, j.toNat, mx.toNat, my.toNat⟩
    let taken : Stabilizer :=
      ⟨on, clampNat 0 16 sx.toNat, clampNat 0 8 sy.toNat, clampNat 1 12 nmin.toNat, clampNat 0 65280 (wordOf s1 s0),
        clampNat 0 61200 (wordOf f1 f0), clampNat 1 64 a.toNat, clampNat 1 64 j.toNat, clampNat 0 64 mx.toNat,
        clampNat 0 32 my.toNat⟩
    exec (.setStabilizer m) s = .next { s.replied m (c.reply (if taken = given then .ok else .clamped) []) with
      lanes := s.lanes.modify n fun l => { l with motion := { l.motion with settings := taken } } } := by
  intro given taken
  have hargs : (stabilizerArgs on c.payload).1 = taken := by
    simp only [stabilizerArgs, wordAt_wordOf, hp, clampArg_value]
    rfl
  have hcode : clampCode (stabilizerArgs on c.payload).2 = if taken = given then .ok else .clamped := by
    refine clampCode_of ?_
    simp only [stabilizerArgs, wordAt_wordOf, hp, List.forall_mem_cons, clampArg_changed, taken, given,
      Stabilizer.mk.injEq, true_and, List.not_mem_nil, false_implies, implies_true, and_true]
    rfl
  show Host.Outcome.next _ = _
  rw [State.execute_taken hr, State.ofLength_of (by rw [hp]; rfl), State.ofLane_of hp,
    State.ofOnOff_of (b := on) (by rw [hp]; rfl)]
  simp only [hcode, hargs]
  rw [State.modMotion, State.answer_modLane]

theorem exec_setDust_ready {trise kdrop gmax h1 l1 h2 l2 h3 l3 : Byte} (hr : s.ReadyFor 19 c)
    (hp : c.payload = [fourByte n, trise, kdrop, gmax, h1, l1, h2, l2, h3, l3]) :
    let given : DustSettings := ⟨trise.toNat, kdrop.toNat, gmax.toNat, wordOf h1 l1, wordOf h2 l2, wordOf h3 l3⟩
    let taken : DustSettings :=
      ⟨trise.toNat, clampNat 1 14 kdrop.toNat, clampNat 16 64 gmax.toNat, clampNat 1 256 (wordOf h1 l1),
        clampNat 1 256 (wordOf h2 l2), clampNat 1 256 (wordOf h3 l3)⟩
    exec (.setDust m) s = .next
      (if taken.b1 < taken.b2 ∧ taken.b2 < taken.b3 then
        { s.replied m (c.reply (if taken = given then .ok else .clamped) []) with
          lanes := s.lanes.modify n fun l => { l with dust := { l.dust with settings := taken } } }
      else s.replied m (c.reply .badArg [])) := by
  intro given taken
  have htrise : clampNat 0 255 (byteAt c.payload 1) = trise.toNat := by rw [hp]; exact clampNat_of_byte trise
  have hargs : (dustArgs c.payload).1 = taken := by
    simp only [dustArgs, clampArg_value, htrise, wordAt_wordOf]
    rw [hp]
    rfl
  have hcode : clampCode (dustArgs c.payload).2 = if taken = given then .ok else .clamped := by
    refine clampCode_of ?_
    simp only [dustArgs, List.forall_mem_cons, clampArg_changed, htrise, wordAt_wordOf, taken, given,
      DustSettings.mk.injEq, true_and, List.not_mem_nil, false_implies, implies_true, and_true]
    rw [hp]
    exact ⟨fun h => h.2, fun h => ⟨rfl, h⟩⟩
  show Host.Outcome.next _ = _
  rw [State.execute_taken hr, State.ofLength_of (by rw [hp]; rfl), State.ofLane_of hp]
  simp only [hcode, hargs, State.unless, Bool.and_eq_true, decide_eq_true_eq]
  split
  · rw [State.modDust, State.answer_modLane]
  · rw [State.refuse_taken]

theorem exec_setPurge_ready {p1 p0 c1 c0 a n1 n0 k : Byte} {auto : Bool} (hr : s.ReadyFor 22 c)
    (hp : c.payload = [fourByte n, p1, p0, c1, c0, a, n1, n0, k, boolByte auto]) :
    let given : PurgeSettings := ⟨wordOf p1 p0, wordOf c1 c0, a.toNat, wordOf n1 n0, k.toNat, auto⟩
    let taken : PurgeSettings :=
      ⟨clampNat 50 2000 (wordOf p1 p0), clampNat 1 600 (wordOf c1 c0), clampNat 10 255 a.toNat,
        clampNat 1 500 (wordOf n1 n0), clampNat 1 8 k.toNat, auto⟩
    exec (.setPurge m) s = .next { s.replied m (c.reply (if taken = given then .ok else .clamped) []) with
      lanes := s.lanes.modify n fun l => { l with purge := { l.purge with settings := taken } } } := by
  intro given taken
  have hargs : (purgeArgs auto c.payload).1 = taken := by
    simp only [purgeArgs, clampArg_value, wordAt_wordOf]
    rw [hp]
    rfl
  have hcode : clampCode (purgeArgs auto c.payload).2 = if taken = given then .ok else .clamped := by
    refine clampCode_of ?_
    simp only [purgeArgs, List.forall_mem_cons, clampArg_changed, wordAt_wordOf, taken, given,
      PurgeSettings.mk.injEq, List.not_mem_nil, false_implies, implies_true, and_true]
    rw [hp]
    rfl
  show Host.Outcome.next _ = _
  rw [State.execute_taken hr, State.ofLength_of (by rw [hp]; rfl), State.ofLane_of hp,
    State.ofOnOff_of (b := auto) (by rw [hp]; rfl)]
  simp only [hcode, hargs]
  rw [State.modPurge, State.answer_modLane]

theorem exec_setRaster_ready {k : Raster} (hr : s.ReadyFor 31 c) (hp : c.payload = [BitVec.ofNat 8 k.code]) :
    let waits := if k = s.timing.raster then none else some k
    exec (.setRaster m) s = .next
      { s.replied m (c.reply .ok (byte1 s.timing.raster.code ++ optByte1 (waits.map Raster.code))) with
        timing := { s.timing with pendingRaster := waits } } := by
  intro waits
  have hcode : Raster.ofCode (byteAt c.payload 0) = some k := by
    rw [hp]
    cases k <;> rfl
  show Host.Outcome.next _ = _
  rw [State.execute_taken hr, State.ofLength_of (by rw [hp]; rfl), State.ofField_of hcode]
  simp only
  rw [State.answer_modTiming]
  rfl

theorem exec_setRaster_refused {b : Byte} (hr : s.ReadyFor 31 c) (hp : c.payload = [b]) (h3 : 3 ≤ b.toNat) :
    exec (.setRaster m) s = .next (s.replied m (c.reply .badArg [])) := by
  have hcode : Raster.ofCode (byteAt c.payload 0) = none := by
    have : byteAt c.payload 0 = b.toNat := by rw [hp]; rfl
    rw [this]
    unfold Raster.ofCode
    split <;> first | rfl | omega
  show Host.Outcome.next _ = _
  rw [State.execute_taken hr, State.ofLength_of (by rw [hp]; rfl), hcode, State.ofField_none, State.refuse_taken]

/-- A lane number anywhere in the payload. -/
theorem laneArg_of {p : List Byte} {i : Nat} {n : Lane} (h : p.getD i 0 = fourByte n) : laneArg p i = some n := by
  have hb : byteAt p i = n.val := by
    rw [byteAt, h]
    match n with
    | 0 => rfl
    | 1 => rfl
    | 2 => rfl
    | 3 => rfl
  simp only [laneArg, hb, n.isLt, dite_true]

theorem priorityArg_of {p : List Byte} {a b c d : Lane} (h2 : laneArg p 2 = some a) (h3 : laneArg p 3 = some b)
    (h4 : laneArg p 4 = some c) (h5 : laneArg p 5 = some d) :
    priorityArg p = if [a, b, c, d].Nodup then some ⟨a, b, c, d⟩ else none := by
  simp only [priorityArg, h2, h3, h4, h5]

theorem exec_setTiming_ready {mode : TimingMode} {lane : Byte} {p : Four Lane} {sync hi lo : Byte}
    (hr : s.ReadyFor 32 c)
    (hp : c.payload = [BitVec.ofNat 8 mode.code, lane, fourByte p.e0, fourByte p.e1, fourByte p.e2, fourByte p.e3, sync,
      hi, lo])
    (hlane : ∀ n, mode = .fixed n → lane = fourByte n) :
    let offset := clampNat 0 63 sync.toNat
    let freeRun := clampNat 20000 50000 (wordOf hi lo)
    exec (.setTiming m) s = .next
      (if p.toList.Nodup then
        { s.replied m (c.reply (if offset = sync.toNat ∧ freeRun = wordOf hi lo then .ok else .clamped) []) with
          timing := { s.timing with mode := mode, priority := p, syncOffset := offset, freeRun := freeRun } }
      else s.replied m (c.reply .badArg [])) := by
  intro offset freeRun
  have hmode : timingModeArg c.payload = some mode := by
    cases mode with
    | fixed n =>
      have h1 : laneArg c.payload 1 = some n := laneArg_of (by rw [hp]; exact hlane n rfl)
      have h0 : byteAt c.payload 0 = 1 := by rw [hp]; rfl
      simp only [timingModeArg, h0, h1, Option.map_some]
    | _ => rw [hp]; rfl
  have hpriority : priorityArg c.payload = if p.toList.Nodup then some p else none := by
    exact priorityArg_of (laneArg_of (by rw [hp]; rfl)) (laneArg_of (by rw [hp]; rfl)) (laneArg_of (by rw [hp]; rfl))
      (laneArg_of (by rw [hp]; rfl))
  have h6 : byteAt c.payload 6 = sync.toNat := by rw [hp]; rfl
  have h7 : wordAt c.payload 7 = wordOf hi lo := by rw [wordAt_wordOf, hp]; rfl
  show Host.Outcome.next _ = _
  rw [State.execute_taken hr, State.ofLength_of (by rw [hp]; rfl), State.ofField_of hmode]
  simp only [hpriority, h6, h7, clampArg_value]
  split
  · rw [State.ofField_some, State.answer_modTiming, clampCode_of (same := offset = sync.toNat ∧ freeRun = wordOf hi lo)
      (by simp [offset, freeRun])]
  · rw [State.ofField_none, State.refuse_taken]

end Settings

/-- Settles O19. -/
theorem settingsComplete : Obligations.SettingsComplete := by
  unfold Obligations.SettingsComplete
  exact ⟨fun m s c n a b d e f => ⟨fun hr hp => exec_setLaneLimits_ready hr hp, fun look hr hp => exec_setRelay_ready hr hp,
      fun hr hp => exec_setRefresh_ready hr hp⟩,
    ⟨fun m s c n on sx sy nmin s1 s0 f1 f0 a j mx my hr hp => exec_setStabilizer_ready hr hp,
      fun m s c n trise kdrop gmax h1 l1 h2 l2 h3 l3 hr hp => exec_setDust_ready hr hp,
      fun m s c n p1 p0 c1 c0 a n1 n0 k auto hr hp => exec_setPurge_ready hr hp⟩,
    ⟨fun m s c => ⟨fun k hr hp => exec_setRaster_ready hr hp, fun b hr hp h3 => exec_setRaster_refused hr hp h3⟩,
      fun m s c mode lane p sync hi lo hr hp hlane => exec_setTiming_ready hr hp hlane⟩⟩

end Sys2Proof.Machine

/-! SUPPORT. The commands that load tables: their entries read back from the payload (R83, R106, R134 to R137). -/

namespace Sys2Proof.Machine

/-! ### Entries of a fixed length in a payload -/

theorem getD_append_of_lt {α : Type} {l l' : List α} {i : Nat} (h : i < l.length) (d : α) :
    (l ++ l').getD i d = l.getD i d := by
  rw [List.getD_eq_getElem?_getD, List.getElem?_append_left h, List.getD_eq_getElem?_getD]

theorem getD_append_of_le {α : Type} {l l' : List α} {i : Nat} (h : l.length ≤ i) (d : α) :
    (l ++ l').getD i d = l'.getD (i - l.length) d := by
  rw [List.getD_eq_getElem?_getD, List.getElem?_append_right h, List.getD_eq_getElem?_getD]

/-- Byte `j` of entry `i` in a run of entries of `k` bytes each. -/
theorem getD_flatMap_block {α : Type} {f : α → List Byte} {k : Nat} (l : List α) (hf : ∀ a ∈ l, (f a).length = k)
    {i j : Nat} (hi : i < l.length) (hj : j < k) : (l.flatMap f).getD (k * i + j) 0 = (f l[i]).getD j 0 := by
  induction l generalizing i with
  | nil => exact absurd hi (Nat.not_lt_zero _)
  | cons a l ih =>
    have ha : (f a).length = k := hf a List.mem_cons_self
    cases i with
    | zero => rw [List.flatMap_cons, Nat.mul_zero, Nat.zero_add, getD_append_of_lt (ha ▸ hj)]; rfl
    | succ i =>
      have hi : i < l.length := by simpa using hi
      rw [List.flatMap_cons, getD_append_of_le (by rw [ha, Nat.mul_succ]; omega), ha,
        show k * (i + 1) + j - k = k * i + j by rw [Nat.mul_succ]; omega,
        ih (fun b hb => hf b (List.mem_cons_of_mem _ hb)) hi]
      rfl

theorem length_flatMap_block {α : Type} {f : α → List Byte} {k : Nat} (hf : ∀ a, (f a).length = k) (l : List α) :
    (l.flatMap f).length = k * l.length := by
  induction l with
  | nil => rfl
  | cons a l ih => rw [List.flatMap_cons, List.length_append, hf, ih, List.length_cons, Nat.mul_succ, Nat.add_comm]

/-- Entries read one by one, when each is as it should be. -/
theorem mapM_range_of {α : Type} {l : List α} {f : Nat → Option α} (h : ∀ i (hi : i < l.length), f i = some l[i]) :
    (List.range l.length).mapM f = some l := by
  have read (xs : List Nat) (ys : List α) (hlen : xs.length = ys.length)
      (hall : ∀ i (hx : i < xs.length) (hy : i < ys.length), f xs[i] = some ys[i]) : xs.mapM f = some ys := by
    induction xs generalizing ys with
    | nil => cases ys with
      | nil => rfl
      | cons y ys => simp at hlen
    | cons x xs ih => cases ys with
      | nil => simp at hlen
      | cons y ys =>
        have hx : f x = some y := hall 0 (by simp) (by simp)
        have hxs := ih ys (by simpa using hlen) fun i h1 h2 => hall (i + 1) (by simpa using h1) (by simpa using h2)
        simp [List.mapM_cons, hx, hxs]
  exact read _ _ (by simp) fun i h1 h2 => by simpa using h i h2

theorem toNat_ofNat_byte {x : Nat} (h : x < 256) : (BitVec.ofNat 8 x).toNat = x := by
  rw [BitVec.toNat_ofNat]
  exact Nat.mod_eq_of_lt h

/-! ### LOAD_ANCHORS and LOAD_TONE -/

theorem Anchor.length_bytes (a : Anchor) : a.bytes.length = 3 := by
  cases he : a.enabled <;> simp [Anchor.bytes, byte1, byteBool, he]

theorem List.getD_cons_cons_add {a b : Byte} {p : List Byte} (i : Nat) : (a :: b :: p).getD (2 + i) 0 = p.getD i 0 := by
  rw [Nat.add_comm]
  rfl

theorem anchorArgs_of {a b : Byte} {anchors : List Anchor} (hin : ∀ k ∈ anchors, k.col ≤ 19 ∧ k.row ≤ 24) :
    anchorArgs (a :: b :: anchors.flatMap Anchor.bytes) anchors.length = some anchors := by
  refine mapM_range_of fun i hi => ?_
  generalize hp : a :: b :: anchors.flatMap Anchor.bytes = p
  have entry (j : Nat) (hj : j < 3) : p.getD (2 + 3 * i + j) 0 = anchors[i].bytes.getD j 0 := by
    rw [← hp, Nat.add_assoc, List.getD_cons_cons_add]
    exact getD_flatMap_block anchors (fun k _ => k.length_bytes) hi hj
  obtain ⟨hcol, hrow⟩ := hin anchors[i] (List.getElem_mem hi)
  have hc : byteAt p (2 + 3 * i) = anchors[i].col := by
    rw [byteAt, show 2 + 3 * i = 2 + 3 * i + 0 from rfl, entry 0 (by omega)]
    exact toNat_ofNat_byte (by omega)
  have hr : byteAt p (2 + 3 * i + 1) = anchors[i].row := by
    rw [byteAt, entry 1 (by omega)]
    exact toNat_ofNat_byte (by omega)
  have hon : onOffArg p (2 + 3 * i + 2) = some anchors[i].enabled := by
    refine onOffArg_boolByte ?_
    rw [entry 2 (by omega)]
    cases he : anchors[i].enabled <;> simp [Anchor.bytes, byte1, byteBool, he, boolByte]
  unfold anchorArg
  rw [hon, hc, hr]
  exact if_pos ⟨hcol, hrow⟩

/-! ### LOAD_MARKS -/

theorem Mark.length_payload (k : Mark) : k.payload.length = 7 := rfl

/-- Two 12-bit numbers packed in three bytes, and read back. -/
theorem packed_read {p : List Byte} {i a b : Nat} (ha : a < 4096) (hb : b < 4096)
    (h0 : p.getD i 0 = BitVec.ofNat 8 (a / 16)) (h1 : p.getD (i + 1) 0 = BitVec.ofNat 8 (a % 16 * 16 + b / 256))
    (h2 : p.getD (i + 2) 0 = BitVec.ofNat 8 b) : upper12 p i = a ∧ lower12 p i = b := by
  unfold upper12 lower12 byteAt
  rw [h0, h1, h2]
  simp only [BitVec.toNat_ofNat]
  constructor <;> omega

theorem signed12_ofInt {x : Int} (hlo : -2048 ≤ x) (hhi : x ≤ 2047) : signed12 (BitVec.ofInt 12 x).toNat = x := by
  unfold signed12
  rw [BitVec.toNat_ofInt]
  split <;> omega

theorem markArg_of {p : List Byte} {i : Nat} {k : Mark} (hentry : ∀ j < 7, p.getD (i + j) 0 = k.payload.getD j 0)
    (hx : -2048 ≤ k.x ∧ k.x ≤ 2047) (hy : -2048 ≤ k.y ∧ k.y ≤ 2047) (hw : k.w < 4096) (hh : k.h < 4096) :
    markArg p i = some ⟨{ k with w := clampNat 1 2048 k.w, h := clampNat 1 2048 k.h },
      clampNat 1 2048 k.w != k.w || clampNat 1 2048 k.h != k.h⟩ := by
  obtain ⟨hux, hly⟩ := packed_read (BitVec.ofInt 12 k.x).isLt (BitVec.ofInt 12 k.y).isLt (hentry 0 (by omega))
    (hentry 1 (by omega)) (hentry 2 (by omega))
  rw [Nat.add_zero] at hux hly
  obtain ⟨huw, hlh⟩ := packed_read hw hh (hentry 3 (by omega)) (hentry 4 (by omega)) (hentry 5 (by omega))
  have hcolour := k.colour.isLt
  have hlast : byteAt p (i + 6) = 16 * (match k.mode with | .opaqueMark => 0 | .half => 1) + k.colour.val := by
    rw [byteAt, hentry 6 (by omega)]
    refine toNat_ofNat_byte ?_
    cases k.mode <;> simp only <;> omega
  have hmode : MarkMode.ofCode (byteAt p (i + 6) / 16) = some k.mode := by
    rw [hlast]
    cases k.mode with
    | opaqueMark =>
      have : (16 * 0 + k.colour.val) / 16 = 0 := by omega
      simp only [this, MarkMode.ofCode]
    | half =>
      have : (16 * 1 + k.colour.val) / 16 = 1 := by omega
      simp only [this, MarkMode.ofCode]
  have hmod : byteAt p (i + 6) % 16 = k.colour.val := by
    rw [hlast]
    cases k.mode <;> simp only <;> omega
  have hfin : (⟨byteAt p (i + 6) % 16, hmod ▸ hcolour⟩ : Fin 4) = k.colour := Fin.ext hmod
  unfold markArg
  rw [dif_pos (hmod ▸ hcolour), hmode]
  simp only [Option.map_some, hux, hly, huw, hlh, hfin, signed12_ofInt hx.1 hx.2, signed12_ofInt hy.1 hy.2, clampArg]

section Tables

variable {m : Moment} {s : State} {c : CmdMessage}

theorem exec_loadAnchors_ready {n : Lane} {anchors : List Anchor} (hr : s.ReadyFor 16 c)
    (hp : c.payload = fourByte n :: BitVec.ofNat 8 anchors.length :: anchors.flatMap Anchor.bytes)
    (hlen : anchors.length ≤ 12) (hin : ∀ a ∈ anchors, a.col ≤ 19 ∧ a.row ≤ 24)
    (hdistinct : (anchors.map fun a => (a.col, a.row)).Nodup) :
    exec (.loadAnchors m) s = .next { s.replied m (c.reply .ok []) with
      lanes := s.lanes.modify n fun l => { l with motion := { l.motion with anchors := anchors } } } := by
  have hcount : byteAt c.payload 1 = anchors.length := by
    rw [hp]
    exact toNat_ofNat_byte (by omega)
  have hargs : anchorArgs c.payload anchors.length = some anchors := by
    rw [hp]
    exact anchorArgs_of hin
  have hbytes : (anchors.flatMap Anchor.bytes).length = 3 * anchors.length :=
    length_flatMap_block Anchor.length_bytes anchors
  have hlength : ¬(c.payload.length < 2 ∨ c.payload.length ≠ 2 + 3 * byteAt c.payload 1) := by
    rw [hcount, hp]
    simp only [List.length_cons, hbytes]
    omega
  show Host.Outcome.next _ = _
  rw [State.execute_taken hr]
  rw [if_neg hlength, State.ofLane_of hp, hcount, State.unless_of (decide_eq_true hlen), State.ofField_of hargs,
    State.unless_of (ok := distinctTiles anchors) (decide_eq_true hdistinct), State.modMotion, State.answer_modLane]

theorem exec_loadTone_ready {b : Fin 4} {start : Nat} {entries : List Byte} (hr : s.ReadyFor 20 c)
    (hp : c.payload = fourByte b :: BitVec.ofNat 8 start :: entries) (hlen : entries.length = 64)
    (hstart : start = 0 ∨ start = 64 ∨ start = 128 ∨ start = 192) :
    exec (.loadTone m) s = .next { s.replied m (c.reply .ok []) with
      tone := { s.tone with
        pending := s.tone.pending.modify b fun table =>
          table.take start ++ entries ++ table.drop (start + 64) } } := by
  have hbyte : byteAt c.payload 1 = start := by
    rw [hp]
    exact toNat_ofNat_byte (by omega)
  have hfield : toneStart (byteAt c.payload 1) = some start := by
    rw [hbyte]
    exact if_pos hstart
  have hdrop : c.payload.drop 2 = entries := by rw [hp]; rfl
  show Host.Outcome.next _ = _
  rw [State.execute_taken hr, State.ofLength_of (by rw [hp, List.length_cons, List.length_cons, hlen]),
    State.ofField_of (laneArg_of (n := b) (by rw [hp]; rfl)), State.ofField_of hfield, State.answer_eq, hdrop]
  have hwrite : writeEntries start entries = fun table => table.take start ++ entries ++ table.drop (start + 64) := by
    funext table
    rw [writeEntries, hlen]
  rw [hwrite]
  rfl

theorem exec_loadMarks_ready {set : Fin 4} {palette : Four Colour} {marks : List Mark} (hr : s.ReadyFor 27 c)
    (hp : c.payload = fourByte set :: palettePayload palette ++ [BitVec.ofNat 8 marks.length]
      ++ marks.flatMap Mark.payload)
    (hlen : marks.length ≤ 8)
    (hin : ∀ k ∈ marks, -2048 ≤ k.x ∧ k.x ≤ 2047 ∧ -2048 ≤ k.y ∧ k.y ≤ 2047 ∧ k.w < 4096 ∧ k.h < 4096) :
    let taken := marks.map fun k => { k with w := clampNat 1 2048 k.w, h := clampNat 1 2048 k.h }
    exec (.loadMarks m) s = .next { s.replied m (c.reply (if taken = marks then .ok else .clamped) []) with
      comp := { s.comp with marksPending := s.comp.marksPending.set set ⟨palette, taken⟩ } } := by
  intro taken
  let args : List MarkArg := marks.map fun k => ⟨{ k with w := clampNat 1 2048 k.w, h := clampNat 1 2048 k.h },
    clampNat 1 2048 k.w != k.w || clampNat 1 2048 k.h != k.h⟩
  have hcount : byteAt c.payload 13 = marks.length := by
    rw [hp]
    exact toNat_ofNat_byte (by omega)
  have hhead : (fourByte set :: palettePayload palette ++ [BitVec.ofNat 8 marks.length]).length = 14 := rfl
  have hargs : markArgs c.payload marks.length = some args := by
    have hlength : marks.length = args.length := by simp [args]
    rw [markArgs, hlength]
    refine mapM_range_of fun i hi => ?_
    have hi : i < marks.length := hlength ▸ hi
    obtain ⟨hx1, hx2, hy1, hy2, hw, hh⟩ := hin marks[i] (List.getElem_mem hi)
    have harg : args[i] = ⟨{ marks[i] with w := clampNat 1 2048 marks[i].w, h := clampNat 1 2048 marks[i].h },
        clampNat 1 2048 marks[i].w != marks[i].w || clampNat 1 2048 marks[i].h != marks[i].h⟩ := List.getElem_map _
    rw [harg]
    refine markArg_of (fun j hj => ?_) ⟨hx1, hx2⟩ ⟨hy1, hy2⟩ hw hh
    rw [hp, getD_append_of_le (by rw [hhead]; omega), hhead,
      show 14 + 7 * i + j - 14 = 7 * i + j by omega]
    exact getD_flatMap_block marks (fun k _ => k.length_payload) hi hj
  have hlength : ¬(8 < byteAt c.payload 13 ∨ c.payload.length ≠ 14 + 7 * byteAt c.payload 13) := by
    rw [hcount, hp, List.length_append, hhead, length_flatMap_block Mark.length_payload]
    omega
  have hpalette : paletteArg c.payload = palette := by
    rw [hp]
    rfl
  have htaken : args.map (·.mark) = taken := by simp [args, taken]
  have hcode : clampCode (args.map (·.changed)) = if taken = marks then .ok else .clamped := by
    refine clampCode_of ?_
    have hself : taken = marks ↔ ∀ k ∈ marks, ({ k with w := clampNat 1 2048 k.w, h := clampNat 1 2048 k.h } : Mark) = k := by
      have hsame := List.map_inj_left (l := marks) (g := id)
        (f := fun k => { k with w := clampNat 1 2048 k.w, h := clampNat 1 2048 k.h })
      rwa [List.map_id] at hsame
    rw [hself]
    simp only [args, List.map_map, List.forall_mem_map, Function.comp_def, Bool.or_eq_false_iff, bne_eq_false_iff_eq]
    refine forall₂_congr fun k _ => ?_
    obtain ⟨x, y, w, h, colour, mode⟩ := k
    simp
  show Host.Outcome.next _ = _
  rw [State.execute_taken hr]
  rw [if_neg hlength, State.ofField_of (laneArg_of (n := set) (by rw [hp]; rfl)), hcount, State.ofField_of hargs,
    State.answer_modComp, hpalette, htaken, hcode]

theorem exec_commitTables_ready (hr : s.ReadyFor 28 c) (hp : c.payload = []) : exec (.commitTables m) s =
    .next { s.replied m (c.reply .ok []) with comp := { s.comp with commitRequested := true } } := by
  show Host.Outcome.next _ = _
  rw [State.execute_taken hr, State.ofLength_of (by rw [hp]; rfl), State.answer_modComp]

theorem exec_selectPage_ready {a : Byte} (hr : s.ReadyFor 29 c) (hp : c.payload = [a]) : exec (.selectPage m) s = .next
    (if h : a.toNat < 4 then
      { s.replied m (c.reply .ok []) with comp := { s.comp with selectedPage := ⟨a.toNat, h⟩ } }
    else s.replied m (c.reply .badArg [])) := by
  have hpage : laneArg c.payload 0 = if h : a.toNat < 4 then some ⟨a.toNat, h⟩ else none := by rw [hp]; rfl
  show Host.Outcome.next _ = _
  rw [State.execute_taken hr, State.ofLength_of (by rw [hp]; rfl), hpage]
  by_cases h : a.toNat < 4
  · rw [dif_pos h, dif_pos h, State.ofField_some, State.answer_modComp]
  · rw [dif_neg h, dif_neg h, State.ofField_none, State.refuse_taken]

theorem exec_setSubstitute_ready {a b : Byte} (hr : s.ReadyFor 30 c) (hp : c.payload = [a, b]) :
    let limit := clampNat 0 255 (wordOf a b)
    exec (.setSubstitute m) s = .next { s.replied m (c.reply (if limit = wordOf a b then .ok else .clamped) []) with
      comp := { s.comp with holdLimit := limit } } := by
  intro limit
  have h0 : wordAt c.payload 0 = wordOf a b := by rw [wordAt_wordOf, hp]; rfl
  show Host.Outcome.next _ = _
  rw [State.execute_taken hr, State.ofLength_of (by rw [hp]; rfl)]
  simp only [h0, clampArg_value]
  rw [State.answer_modComp, clampCode_of (same := limit = wordOf a b) (by simp [limit])]

end Tables

/-- Settles O20. -/
theorem tablesComplete : Obligations.TablesComplete := by
  unfold Obligations.TablesComplete
  exact ⟨⟨fun m s c n anchors hr hp hlen hin hd => exec_loadAnchors_ready hr hp hlen hin hd,
      fun m s c b start entries hr hp hlen hstart => exec_loadTone_ready hr hp hlen hstart⟩,
    fun m s c set palette marks hr hp hlen hin => exec_loadMarks_ready hr hp hlen hin,
    fun m s c a b => ⟨fun hr hp => exec_commitTables_ready hr hp, fun hr hp => exec_selectPage_ready hr hp,
      fun hr hp => exec_setSubstitute_ready hr hp⟩⟩

end Sys2Proof.Machine

/-! SUPPORT. LOAD_WINDOW and CLEAR_WINDOW (R132, R133). -/

namespace Sys2Proof.Machine

/-! ### The fields of LOAD_WINDOW -/

theorem wordOf_byte2 {x : Nat} (h : x < 65536) : wordOf (BitVec.ofNat 8 (x / 256)) (BitVec.ofNat 8 x) = x := by
  unfold wordOf
  simp only [BitVec.toNat_ofNat]
  omega

theorem windowFields_payload {page : Fin 4} {w : Nat} {q : WindowRecord} (henabled : q.enabled = true)
    (hx : q.x < 65536) (hy : q.y < 65536) (hw : q.w < 65536) (hh : q.h < 65536) (hcx : q.cx < 65536)
    (hcy : q.cy < 65536) : windowFields (q.payload page w) = some q := by
  generalize hp : q.payload page w = p
  have word (i x : Nat) (hx : x < 65536) (h0 : p.getD i 0 = BitVec.ofNat 8 (x / 256))
      (h1 : p.getD (i + 1) 0 = BitVec.ofNat 8 x) : wordAt p i = x := by
    rw [wordAt_wordOf, h0, h1, wordOf_byte2 hx]
  have lane : laneArg p 2 = some q.lane := laneArg_of (by rw [← hp]; rfl)
  have scale : Scale.ofCode (byteAt p 15) = some q.scale := by
    have : byteAt p 15 = (match q.scale with | .one => 0 | .down => 1 | .up => 2) := by
      rw [← hp]
      cases hs : q.scale <;> simp only [WindowRecord.payload, hs] <;> rfl
    rw [this]
    cases q.scale <;> rfl
  have stabilize : onOffArg p 16 = some q.stabilize := onOffArg_boolByte (by rw [← hp]; rfl)
  have markSet : markSetArg p 17 = some q.markSet := by
    cases hm : q.markSet with
    | none =>
      have : byteAt p 17 = 255 := by
        rw [← hp]
        simp only [WindowRecord.payload, hm]
        rfl
      rw [markSetArg, if_pos this]
    | some n =>
      have hbyte : p.getD 17 0 = fourByte n := by
        rw [← hp]
        simp only [WindowRecord.payload, hm]
        rfl
      have : byteAt p 17 ≠ 255 := by
        rw [byteAt, hbyte, fourByte, toNat_ofNat_byte (by omega)]
        omega
      rw [markSetArg, if_neg this, laneArg_of hbyte]
      rfl
  have anchoring : Anchoring.ofCode (byteAt p 18) = some q.anchoring := by
    have : byteAt p 18 = (match q.anchoring with | .view => 0 | .camera => 1) := by
      rw [← hp]
      cases hm : q.markSet <;> cases ha : q.anchoring <;> simp only [WindowRecord.payload, hm, ha] <;> rfl
    rw [this]
    cases q.anchoring <;> rfl
  have x := word 3 q.x hx (by rw [← hp]; rfl) (by rw [← hp]; rfl)
  have y := word 5 q.y hy (by rw [← hp]; rfl) (by rw [← hp]; rfl)
  have width := word 7 q.w hw (by rw [← hp]; rfl) (by rw [← hp]; rfl)
  have height := word 9 q.h hh (by rw [← hp]; rfl) (by rw [← hp]; rfl)
  have cx := word 11 q.cx hcx (by rw [← hp]; rfl) (by rw [← hp]; rfl)
  have cy := word 13 q.cy hcy (by rw [← hp]; rfl) (by rw [← hp]; rfl)
  simp only [windowFields, lane, scale, stabilize, markSet, anchoring, x, y, width, height, cx, cy, ← henabled]

theorem modify_const {α : Type} (a : α) (l : List α) (n : Nat) : l.modify n (fun _ => a) = l.set n a := by
  induction l generalizing n with
  | nil => cases n <;> rfl
  | cons b l ih =>
    cases n with
    | zero => rfl
    | succ n => rw [List.modify_succ_cons, ih, List.set_cons_succ]

theorem WindowRecord.loadable_iff {k : Raster} {g : Geometry} {r : WindowRecord} : r.loadable k g = true
    ↔ 2 ≤ r.w ∧ 2 ≤ r.h ∧ r.x + r.w ≤ k.width ∧ r.y + r.h ≤ k.height
      ∧ (r.scale = .up → r.w % 2 = 0 ∧ r.h % 2 = 0) ∧ r.sourceSize.1 ≤ g.w ∧ r.sourceSize.2 ≤ g.h := by
  simp only [WindowRecord.loadable, WindowRecord.fitsRaster, fits, Bool.and_eq_true, decide_eq_true_eq,
    Bool.not_eq_true', Bool.and_eq_false_iff, Bool.or_eq_false_iff, beq_eq_false_iff_ne, Nat.mod_two_ne_one, ne_eq]
  rw [← Decidable.imp_iff_not_or]
  simp only [and_assoc]

theorem windowArg_of {p : List Byte} {i w : Nat} (h : byteAt p i = w) :
    windowArg p i = if w ≤ 5 then some w else none := by
  rw [windowArg, h]

section Windows

variable {m : Moment} {s : State} {c : CmdMessage}

theorem exec_loadWindow_ready {page : Fin 4} {w : Nat} {q : WindowRecord} (hr : s.ReadyFor 25 c)
    (hp : c.payload = q.payload page w) (hw : w ≤ 5) (henabled : q.enabled = true)
    (hx : q.x < 65536) (hy : q.y < 65536) (hwidth : q.w < 65536) (hh : q.h < 65536) (hcx : q.cx < 65536)
    (hcy : q.cy < 65536) :
    let g := (s.lane q.lane).rx.geometry
    exec (.loadWindow m) s = .next
      (if q.loadable s.timing.raster g = true then
        { s.replied m (c.reply (if q.clampCrop g = q then .ok else .clamped) []) with
          comp := { s.comp with pagesPending := s.comp.pagesPending.modify page fun p => p.set w (q.clampCrop g) } }
      else s.replied m (c.reply .badArg [])) := by
  intro g
  have hlength : c.payload.length = 19 := by
    rw [hp]
    cases hm : q.markSet <;> simp [WindowRecord.payload, hm, byte1, byte2]
  have hpage : laneArg c.payload 0 = some page := laneArg_of (by rw [hp]; rfl)
  have hwindow : windowArg c.payload 1 = some w := by
    have hbyte : byteAt c.payload 1 = w := by
      rw [hp]
      exact toNat_ofNat_byte (by omega)
    rw [windowArg_of hbyte, if_pos hw]
  have hfields : windowFields c.payload = some q := by
    rw [hp]
    exact windowFields_payload henabled hx hy hwidth hh hcx hcy
  have hcode : clampCode [(q.clampCrop g).cx != q.cx, (q.clampCrop g).cy != q.cy]
      = if q.clampCrop g = q then .ok else .clamped := by
    refine clampCode_of ?_
    obtain ⟨_, _, _, _, _, _, _, _, _, _, _, _⟩ := q
    simp [WindowRecord.clampCrop]
  show Host.Outcome.next _ = _
  rw [State.execute_taken hr, State.ofLength_of hlength, State.ofField_of hpage, State.ofField_of hwindow,
    State.ofField_of hfields]
  show Host.Outcome.next (if q.loadable s.timing.raster g = true then _ else _) = _
  have hput : Compositor.putWindow page w (fun _ => q.clampCrop g) s.comp = { s.comp with
      pagesPending := s.comp.pagesPending.modify page fun p => p.set w (q.clampCrop g) } := by
    simp only [Compositor.putWindow, modify_const]
  split
  · refine congrArg Host.Outcome.next ?_
    show State.answer c (clampCode [(q.clampCrop g).cx != q.cx, (q.clampCrop g).cy != q.cy]) [] _ = _
    rw [hcode, ← hput]
    exact State.answer_modComp _ _ _ _ _ _
  · exact congrArg Host.Outcome.next (State.refuse_taken _ _ _ _)

theorem exec_clearWindow_ready {p w : Byte} (hr : s.ReadyFor 26 c) (hp : c.payload = [p, w]) :
    exec (.clearWindow m) s = .next
      (if h : p.toNat < 4 ∧ w.toNat ≤ 5 then
        { s.replied m (c.reply .ok []) with
          comp := { s.comp with
            pagesPending := s.comp.pagesPending.modify ⟨p.toNat, h.1⟩ fun page =>
              page.modify w.toNat fun r => { r with enabled := false } } }
      else s.replied m (c.reply .badArg [])) := by
  have hpage : laneArg c.payload 0 = if h : p.toNat < 4 then some ⟨p.toNat, h⟩ else none := by rw [hp]; rfl
  have hwindow : windowArg c.payload 1 = if w.toNat ≤ 5 then some w.toNat else none :=
    windowArg_of (by rw [hp]; rfl)
  show Host.Outcome.next _ = _
  rw [State.execute_taken hr, State.ofLength_of (by rw [hp]; rfl), hpage]
  by_cases h4 : p.toNat < 4
  · rw [dif_pos h4, State.ofField_some, hwindow]
    by_cases h5 : w.toNat ≤ 5
    · rw [if_pos h5, dif_pos ⟨h4, h5⟩, State.ofField_some, State.answer_modComp]
      rfl
    · rw [if_neg h5, dif_neg fun h => h5 h.2, State.ofField_none, State.refuse_taken]
  · rw [dif_neg h4, dif_neg fun h => h4 h.1, State.ofField_none, State.refuse_taken]

end Windows

/-! ### A cleared window after the next swap -/

theorem pageWindow_cleared (p : Page) (w : Nat) :
    (pageWindow (p.modify w fun r => { r with enabled := false }) w).enabled = false := by
  unfold pageWindow
  rw [List.getD_eq_getElem?_getD, List.getElem?_modify]
  cases p[w]? <;> simp [WindowRecord.reset]

theorem pageWindow_refit {old new : Raster} {p : Page} {w : Nat} (h : (pageWindow p w).enabled = false) :
    (pageWindow (p.refit old new) w).enabled = false := by
  unfold Page.refit
  split
  · exact h
  · unfold pageWindow disableMisfits at *
    rw [List.getD_eq_getElem?_getD, List.getElem?_map]
    rw [List.getD_eq_getElem?_getD] at h
    cases hw : p[w]? with
    | none => simp [WindowRecord.reset]
    | some r =>
      simp only [hw, Option.getD_some, Option.map_some] at h ⊢
      split
      · rfl
      · exact h

/-- A window that is off in the pending image of the shown page is not drawn after the swap. -/
theorem State.startFrame_hides {s : State} {dropped : Option Lane} {p : Fin 4} {w : Nat}
    (hcommit : s.comp.commitRequested = true) (hoff : (pageWindow (s.comp.pagesPending.get p) w).enabled = false)
    (hshown : (s.startFrame dropped).comp.shownPage = .page p) :
    ∀ e ∈ (s.startFrame dropped).comp.plan, e.window ≠ w := by
  intro e he hw
  have hmem : (e.window, e.record) ∈ (s.startFrame dropped).layoutWindows := by
    rw [← State.startFrame_plan]
    exact List.mem_map_of_mem (f := fun q : PlanWindow => (q.window, q.record)) he
  rw [State.layoutWindows, hshown] at hmem
  obtain ⟨hdrawn, henabled⟩ := List.mem_filter.1 hmem
  obtain ⟨v, _, hv⟩ := List.mem_map.1 hdrawn
  obtain ⟨rfl, hrecord⟩ := Prod.mk.inj hv
  have hactive : (s.startFrame dropped).comp.pagesActive.get p
      = (s.comp.pagesPending.get p).refit s.timing.raster s.timing.newRaster := by
    rw [s.startFrame_comp, State.laidOut_eq]
    simp [hcommit]
  have hnot := pageWindow_refit (old := s.timing.raster) (new := s.timing.newRaster) hoff
  rw [← hactive, ← hw, hrecord] at hnot
  rw [hnot] at henabled
  cases henabled

/-- Settles O21. -/
theorem windowCommandsComplete : Obligations.WindowCommandsComplete := by
  unfold Obligations.WindowCommandsComplete
  refine ⟨fun m s c page w q hr hp hw henabled hx hy hwidth hh hcx hcy => ?_,
    fun m s c p w hr hp => ⟨exec_clearWindow_ready hr hp, fun h u dropped h5 hu => ?_⟩⟩
  case refine_1 =>
    intro g size fit taken
    have hsize : size = q.sourceSize := rfl
    have htaken : q.clampCrop g = taken := by
      simp only [taken, hsize]
      rfl
    rw [exec_loadWindow_ready hr hp hw henabled hx hy hwidth hh hcx hcy, htaken]
    have hloadable := WindowRecord.loadable_iff (k := s.timing.raster) (g := g) (r := q)
    rw [← hsize] at hloadable
    exact congrArg Host.Outcome.next (ite_of_iff hloadable rfl rfl)
  case refine_2 =>
    intro v hshown
    rw [exec_clearWindow_ready hr hp, dif_pos ⟨h, h5⟩] at hu
    have hu := Host.Outcome.next.inj hu
    refine State.startFrame_hides (p := ⟨p.toNat, h⟩) rfl ?_ hshown
    rw [← hu]
    show (pageWindow ((s.comp.pagesPending.modify ⟨p.toNat, h⟩ _).get ⟨p.toNat, h⟩) w.toNat).enabled = false
    rw [Four.get_modify_same]
    exact pageWindow_cleared _ _

end Sys2Proof.Machine

/-! SUPPORT. The refusals (R157, R182): a wrong length, a lane above 3, a code outside its list, an unknown number. -/

namespace Sys2Proof.Machine

/-! ### The checks of a payload that fails one -/

section Checks

variable {c : CmdMessage} {s : State}

theorem State.ofLength_not {k : Nat} (h : c.payload.length ≠ k) (body : State → State) :
    s.ofLength k c body = s.refuse c .badLength := if_neg h

theorem State.ofLane_none {body : Lane → State → State} (h : 4 ≤ (c.payload.getD 0 0).toNat) :
    s.ofLane c body = s.refuse c .badArg := by
  have hnone : laneArg c.payload 0 = none := dif_neg (Nat.not_lt.2 h)
  unfold State.ofLane
  rw [hnone]

/-- A check that passes and what follows it refuses, or that refuses itself. -/
theorem State.ofLane_refused {body : Lane → State → State} (h : ∀ n, body n s = s.refuse c .badArg) :
    s.ofLane c body = s.refuse c .badArg := by
  unfold State.ofLane
  split
  · exact h _
  · rfl

theorem State.ofField_refused {α : Type} {field : Option α} {body : α → State → State}
    (h : ∀ a, field = some a → body a s = s.refuse c .badArg) : s.ofField field c body = s.refuse c .badArg := by
  cases field with
  | none => rfl
  | some a => exact h a rfl

theorem State.unless_refused {ok : Bool} {body : State → State} (h : ok = true → body s = s.refuse c .badArg) :
    s.unless ok .badArg c body = s.refuse c .badArg := by
  cases ok with
  | false => rfl
  | true => exact h rfl

end Checks

/-! ### The ranges of the coded fields -/

section Ranges

variable {p : List Byte} {i : Nat}

theorem laneArg_lt {n : Lane} (h : laneArg p i = some n) : (p.getD i 0).toNat < 4 := by
  unfold laneArg at h
  split at h
  · assumption
  · cases h

theorem onOffArg_lt {b : Bool} (h : onOffArg p i = some b) : (p.getD i 0).toNat < 2 := by
  unfold onOffArg at h
  show byteAt p i < 2
  split at h <;> first | omega | cases h

theorem windowArg_lt {w : Nat} (h : windowArg p i = some w) : (p.getD i 0).toNat < 6 := by
  unfold windowArg at h
  split at h
  · exact Nat.lt_succ_of_le ‹_›
  · cases h

theorem GeometryMode.ofCode_lt {x : Nat} {a : GeometryMode} (h : GeometryMode.ofCode x = some a) : x < 2 := by
  unfold GeometryMode.ofCode at h
  split at h <;> first | omega | cases h

theorem MotionSection.ofCode_lt {x : Nat} {a : MotionSection} (h : MotionSection.ofCode x = some a) : x < 3 := by
  unfold MotionSection.ofCode at h
  split at h <;> first | omega | cases h

theorem Scale.ofCode_lt {x : Nat} {a : Scale} (h : Scale.ofCode x = some a) : x < 3 := by
  unfold Scale.ofCode at h
  split at h <;> first | omega | cases h

theorem Anchoring.ofCode_lt {x : Nat} {a : Anchoring} (h : Anchoring.ofCode x = some a) : x < 2 := by
  unfold Anchoring.ofCode at h
  split at h <;> first | omega | cases h

theorem Raster.ofCode_lt {x : Nat} {a : Raster} (h : Raster.ofCode x = some a) : x < 3 := by
  unfold Raster.ofCode at h
  split at h <;> first | omega | cases h

theorem LaneMode.ofCode_lt {x : Nat} {a : LaneMode} (h : LaneMode.ofCode x = some a) : x < 3 := by
  unfold LaneMode.ofCode at h
  split at h <;> first | omega | cases h

theorem Pattern.ofCode_lt {x : Nat} {a : Pattern} (h : Pattern.ofCode x = some a) : x < 2 := by
  unfold Pattern.ofCode at h
  split at h <;> first | omega | cases h

theorem MarkMode.ofCode_lt {x : Nat} {a : MarkMode} (h : MarkMode.ofCode x = some a) : x < 2 := by
  unfold MarkMode.ofCode at h
  split at h <;> first | omega | cases h

/-- The mode byte of SET_TIMING, and in FIXED its lane. -/
theorem timingModeArg_lt {a : TimingMode} (h : timingModeArg p = some a) :
    (p.getD 0 0).toNat < 3 ∧ ((p.getD 0 0).toNat = 1 → (p.getD 1 0).toNat < 4) := by
  unfold timingModeArg at h
  show byteAt p 0 < 3 ∧ (byteAt p 0 = 1 → _)
  split at h
  · omega
  · obtain ⟨n, hn, _⟩ := Option.map_eq_some_iff.1 h
    have := laneArg_lt hn
    omega
  · omega
  · cases h

theorem priorityArg_lt {a : Four Lane} (h : priorityArg p = some a) :
    (p.getD 2 0).toNat < 4 ∧ (p.getD 3 0).toNat < 4 ∧ (p.getD 4 0).toNat < 4 ∧ (p.getD 5 0).toNat < 4 := by
  unfold priorityArg at h
  split at h
  · exact ⟨laneArg_lt ‹_›, laneArg_lt ‹_›, laneArg_lt ‹_›, laneArg_lt ‹_›⟩
  · cases h

theorem windowFields_lt {r : WindowRecord} (h : windowFields p = some r) :
    (p.getD 2 0).toNat < 4 ∧ (p.getD 15 0).toNat < 3 ∧ (p.getD 16 0).toNat < 2
      ∧ ((p.getD 17 0).toNat < 4 ∨ (p.getD 17 0).toNat = 255) ∧ (p.getD 18 0).toNat < 2 := by
  unfold windowFields at h
  split at h
  · rename_i hlane hscale hstab hmark hanchor
    refine ⟨laneArg_lt hlane, Scale.ofCode_lt hscale, onOffArg_lt hstab, ?_, Anchoring.ofCode_lt hanchor⟩
    unfold markSetArg at hmark
    split at hmark
    · exact .inr ‹_›
    · obtain ⟨n, hn, _⟩ := Option.map_eq_some_iff.1 hmark
      exact .inl (laneArg_lt hn)
  · cases h

/-- A list read entry by entry has each of them. -/
theorem mapM_some {α β : Type} {f : α → Option β} {xs : List α} {ys : List β} (h : xs.mapM f = some ys) :
    xs.map f = ys.map some := by
  induction xs generalizing ys with
  | nil =>
    obtain rfl : [] = ys := by simpa using h
    rfl
  | cons x xs ih =>
    rw [List.mapM_cons] at h
    simp only [Option.bind_eq_bind, Option.bind_eq_some_iff, Option.pure_def, Option.some.injEq] at h
    obtain ⟨y, hy, zs, hzs, rfl⟩ := h
    rw [List.map_cons, List.map_cons, hy, ih hzs]

theorem mapM_range_some {α : Type} {f : Nat → Option α} {n : Nat} {l : List α} (h : (List.range n).mapM f = some l)
    {i : Nat} (hi : i < n) : ∃ a, f i = some a ∧ l[i]? = some a := by
  have entry := congrArg (·[i]?) (mapM_some h)
  simp only [List.getElem?_map, List.getElem?_range hi, Option.map_some] at entry
  obtain ⟨a, ha, hfa⟩ := Option.map_eq_some_iff.1 entry.symm
  exact ⟨a, hfa.symm, ha⟩

theorem anchorArg_lt {a : Anchor} (h : anchorArg p i = some a) : (p.getD i 0).toNat < 20 ∧ (p.getD (i + 1) 0).toNat < 25
    ∧ (p.getD (i + 2) 0).toNat < 2 ∧ a.tile = ((p.getD i 0).toNat, (p.getD (i + 1) 0).toNat) := by
  unfold anchorArg at h
  split at h
  · rename_i hon
    split at h
    · rename_i hin
      have hon := onOffArg_lt hon
      obtain ⟨hc, hr⟩ := hin
      obtain rfl := Option.some.inj h
      exact ⟨Nat.lt_succ_of_le hc, Nat.lt_succ_of_le hr, hon, rfl⟩
    · cases h
  · cases h

theorem markArg_lt {a : MarkArg} (h : markArg p i = some a) :
    (p.getD (i + 6) 0).toNat % 16 < 4 ∧ (p.getD (i + 6) 0).toNat / 16 < 2 := by
  unfold markArg at h
  split at h
  · obtain ⟨mode, hmode, _⟩ := Option.map_eq_some_iff.1 h
    exact ⟨‹_›, MarkMode.ofCode_lt hmode⟩
  · cases h

theorem toneStart_of {x y : Nat} (h : toneStart x = some y) : x = 0 ∨ x = 64 ∨ x = 128 ∨ x = 192 := by
  unfold toneStart at h
  split at h
  · assumption
  · cases h

/-- Two anchors on one tile are not distinct. -/
theorem not_distinctTiles {l : List Anchor} {i j : Nat} {a b : Anchor} (hij : i < j) (ha : l[i]? = some a)
    (hb : l[j]? = some b) (h : a.tile = b.tile) : distinctTiles l = false := by
  refine decide_eq_false fun hd => ?_
  obtain ⟨hi, rfl⟩ := List.getElem?_eq_some_iff.1 ha
  obtain ⟨hj, rfl⟩ := List.getElem?_eq_some_iff.1 hb
  refine List.pairwise_iff_getElem.1 hd i j (by rwa [List.length_map]) (by rwa [List.length_map]) hij ?_
  rw [List.getElem_map, List.getElem_map, h]

end Ranges

/-! ### The refusals -/

section Refusals

variable {i : Instr} {k : Nat} {s : State} {c : CmdMessage}

theorem exec_of_length (hk : i.commandNumber = some k) (hr : s.ReadyFor k c)
    (hlen : lengthAllowed k c.payload = false) : exec i s = .next (s.replied i.moment (c.reply .badLength [])) := by
  cases i <;> simp only [Instr.commandNumber, reduceCtorEq, Option.some.injEq] at hk <;> subst hk
  case cameraConfig m =>
    refine congrArg Host.Outcome.next ((State.execute_taken hr _ _).trans ?_)
    simp only [lengthAllowed, Bool.or_eq_false_iff, beq_eq_false_iff_ne] at hlen
    rw [if_neg hlen.1, if_neg hlen.2, State.refuse_taken]
    rfl
  case cameraMessage m =>
    refine congrArg Host.Outcome.next ((State.execute_taken hr _ _).trans ?_)
    simp only [lengthAllowed, Bool.and_eq_false_iff, decide_eq_false_iff_not, Nat.not_le] at hlen
    rw [if_pos hlen, State.refuse_taken]
    rfl
  case loadAnchors m =>
    refine congrArg Host.Outcome.next ((State.execute_taken hr _ _).trans ?_)
    simp only [lengthAllowed, Bool.and_eq_false_iff, decide_eq_false_iff_not, Nat.not_le, beq_eq_false_iff_ne] at hlen
    exact (if_pos hlen).trans (State.refuse_taken _ _ _ _)
  case loadMarks m =>
    refine congrArg Host.Outcome.next ((State.execute_taken hr _ _).trans ?_)
    simp only [lengthAllowed, Bool.and_eq_false_iff, decide_eq_false_iff_not, Nat.not_le, beq_eq_false_iff_ne] at hlen
    exact (if_pos hlen).trans (State.refuse_taken _ _ _ _)
  all_goals
    refine congrArg Host.Outcome.next ((State.execute_taken hr _ _).trans ?_)
    rw [State.ofLength_not (by simpa [lengthAllowed] using hlen), State.refuse_taken]
    rfl

theorem loadAnchors_length (hlen : lengthAllowed 16 c.payload = true) :
    ¬(c.payload.length < 2 ∨ c.payload.length ≠ 2 + 3 * byteAt c.payload 1) := by
  simp only [lengthAllowed, Bool.and_eq_true, decide_eq_true_eq, beq_iff_eq] at hlen
  obtain ⟨h2, hcount⟩ := hlen
  rw [byteAt]
  omega

theorem loadMarks_length (hlen : lengthAllowed 27 c.payload = true) :
    ¬(8 < byteAt c.payload 13 ∨ c.payload.length ≠ 14 + 7 * byteAt c.payload 13) := by
  simp only [lengthAllowed, Bool.and_eq_true, decide_eq_true_eq, beq_iff_eq] at hlen
  obtain ⟨h8, hcount⟩ := hlen
  rw [byteAt]
  omega

theorem exec_of_lane (hk : i.commandNumber = some k) (hlane : takesLane k = true) (hr : s.ReadyFor k c)
    (hlen : lengthAllowed k c.payload = true) (h4 : 4 ≤ (c.payload.getD 0 0).toNat) :
    exec i s = .next (s.replied i.moment (c.reply .badArg [])) := by
  cases i <;> simp only [Instr.commandNumber, reduceCtorEq, Option.some.injEq] at hk <;> subst hk <;>
    first | exact absurd hlane (by decide) | refine congrArg Host.Outcome.next ((State.execute_taken hr _ _).trans ?_)
  case cameraConfig m =>
    simp only [State.ofLane_none h4]
    simp only [lengthAllowed, Bool.or_eq_true, beq_iff_eq] at hlen
    rcases hlen with h | h
    · rw [if_pos h, State.refuse_taken]
      rfl
    · rw [if_neg (by omega), if_pos h, State.refuse_taken]
      rfl
  case cameraMessage m =>
    simp only [lengthAllowed, Bool.and_eq_true, decide_eq_true_eq] at hlen
    rw [if_neg (by omega), State.ofLane_none h4, State.refuse_taken]
    rfl
  case loadAnchors m =>
    rw [if_neg (loadAnchors_length hlen), State.ofLane_none h4, State.refuse_taken]
    rfl
  all_goals
    rw [State.ofLength_of (by simpa [lengthAllowed] using hlen), State.ofLane_none h4, State.refuse_taken]
    rfl

/-- A field outside its range, by command: the offset, and the first value that is none of the list (R182). -/
def codeRanges : List (Nat × Nat × Nat) :=
  [(6, 0, 2), (7, 1, 2), (7, 2, 2), (11, 1, 2), (13, 1, 2), (17, 1, 2), (18, 1, 3), (18, 2, 2), (20, 0, 4), (22, 9, 2),
    (25, 0, 4), (25, 1, 6), (25, 2, 4), (25, 15, 3), (25, 16, 2), (25, 18, 2), (26, 0, 4), (26, 1, 6), (27, 0, 4),
    (29, 0, 4), (31, 0, 3), (32, 0, 3), (32, 2, 4), (32, 3, 4), (32, 4, 4), (32, 5, 4), (33, 1, 3), (33, 2, 2)]

/-- The ranges of one command's fields. -/
def codesOf (k : Nat) : List (Nat × Nat) := (codeRanges.filter (·.1 = k)).map (·.2)

theorem exists_codeRanges {P : Nat × Nat → Prop} (h : ∃ x ∈ codeRanges, x.1 = k ∧ P x.2) : ∃ y ∈ codesOf k, P y := by
  obtain ⟨x, hx, rfl, hP⟩ := h
  exact ⟨x.2, List.mem_map.2 ⟨x, List.mem_filter.2 ⟨hx, decide_eq_true rfl⟩, rfl⟩, hP⟩

/-- A message that its command's checks refuse leaves the queue, with that reply. -/
theorem execute_refused (m : Moment) {body : CmdMessage → State → State} (hr : s.ReadyFor k c)
    (h : body c (s.taken m) = (s.taken m).refuse c .badArg) :
    Host.Outcome.next (s.execute m (CmdMessage.is k) body) = (Host.Outcome.next (s.replied m (c.reply .badArg [])) : Result) :=
  congrArg Host.Outcome.next ((State.execute_taken hr m body).trans (h.trans (State.refuse_taken s m c .badArg)))

theorem execute_refused_of_length (m : Moment) {n : Nat} {body : CmdMessage → State → State} (hr : s.ReadyFor k c)
    (hlen : c.payload.length = n) (h : body c (s.taken m) = (s.taken m).refuse c .badArg) :
    Host.Outcome.next (s.execute m (CmdMessage.is k) fun c => State.ofLength n c (body c))
      = (Host.Outcome.next (s.replied m (c.reply .badArg [])) : Result) :=
  execute_refused m hr ((State.ofLength_of hlen _).trans h)

end Refusals

/-! ### What each command refuses in its fields (R182) -/

section Fields

variable (m : Moment) {s : State} {c : CmdMessage}

theorem readCounters_refuses (hr : s.ReadyFor 6 c) (hlen : c.payload.length = 1) (h : 2 ≤ (c.payload.getD 0 0).toNat) :
    exec (.readCounters m) s = .next (s.replied m (c.reply .badArg [])) :=
  execute_refused_of_length m hr hlen <| State.ofField_refused fun _ ha => absurd (onOffArg_lt ha) (by omega)

theorem cameraConfig_refuses (hr : s.ReadyFor 7 c)
    (h : (c.payload.length = 2 ∨ c.payload.length = 7) ∧ 2 ≤ (c.payload.getD 1 0).toNat
      ∨ c.payload.length = 7 ∧ 2 ≤ (c.payload.getD 2 0).toNat) :
    exec (.cameraConfig m) s = .next (s.replied m (c.reply .badArg [])) := by
  refine execute_refused m hr ?_
  by_cases h2 : c.payload.length = 2
  · refine (if_pos h2).trans (State.ofLane_refused fun n => State.ofField_refused fun a ha => ?_)
    exact absurd (onOffArg_lt ha) (by omega)
  · refine (if_neg h2).trans ((if_pos (by omega)).trans (State.ofLane_refused fun n => State.ofField_refused
      fun a ha => State.ofField_refused fun b hb => ?_))
    have h1 := onOffArg_lt ha
    have h2 : (c.payload.getD 2 0).toNat < 2 := GeometryMode.ofCode_lt hb
    omega

theorem readLane_refuses (hr : s.ReadyFor 11 c) (hlen : c.payload.length = 2) (h : 2 ≤ (c.payload.getD 1 0).toNat) :
    exec (.readLane m) s = .next (s.replied m (c.reply .badArg [])) :=
  execute_refused_of_length m hr hlen <| State.ofLane_refused fun _ => State.ofField_refused fun _ ha =>
    absurd (onOffArg_lt ha) (by omega)

theorem setRelay_refuses (hr : s.ReadyFor 13 c) (hlen : c.payload.length = 4) (h : 2 ≤ (c.payload.getD 1 0).toNat) :
    exec (.setRelay m) s = .next (s.replied m (c.reply .badArg [])) :=
  execute_refused_of_length m hr hlen <| State.ofLane_refused fun _ => State.ofField_refused fun _ ha =>
    absurd (onOffArg_lt ha) (by omega)

/-- More than 12 anchors, an entry outside the tiles or with a wrong on/off value, two on one tile (R83). -/
theorem loadAnchors_refuses (hr : s.ReadyFor 16 c) (hlen : lengthAllowed 16 c.payload = true)
    (h : 12 < (c.payload.getD 1 0).toNat
      ∨ (∃ e < (c.payload.getD 1 0).toNat, 20 ≤ (c.payload.getD (2 + 3 * e) 0).toNat
          ∨ 25 ≤ (c.payload.getD (3 + 3 * e) 0).toNat ∨ 2 ≤ (c.payload.getD (4 + 3 * e) 0).toNat)
      ∨ (∃ e < (c.payload.getD 1 0).toNat, ∃ f < e,
          (c.payload.getD (2 + 3 * e) 0).toNat = (c.payload.getD (2 + 3 * f) 0).toNat
            ∧ (c.payload.getD (3 + 3 * e) 0).toNat = (c.payload.getD (3 + 3 * f) 0).toNat)) :
    exec (.loadAnchors m) s = .next (s.replied m (c.reply .badArg [])) := by
  refine execute_refused m hr ((if_neg (loadAnchors_length hlen)).trans (State.ofLane_refused fun n =>
    State.unless_refused fun hcount => State.ofField_refused fun l hl => State.unless_refused fun hdistinct => ?_))
  have hcount : (c.payload.getD 1 0).toNat ≤ 12 := of_decide_eq_true hcount
  have entry {e : Nat} (he : e < (c.payload.getD 1 0).toNat) : ∃ a, l[e]? = some a
      ∧ (c.payload.getD (2 + 3 * e) 0).toNat < 20 ∧ (c.payload.getD (3 + 3 * e) 0).toNat < 25
      ∧ (c.payload.getD (4 + 3 * e) 0).toNat < 2
      ∧ a.tile = ((c.payload.getD (2 + 3 * e) 0).toNat, (c.payload.getD (3 + 3 * e) 0).toNat) := by
    obtain ⟨a, ha, hget⟩ := mapM_range_some hl he
    have inside := anchorArg_lt ha
    rw [show 2 + 3 * e + 1 = 3 + 3 * e by omega, show 2 + 3 * e + 2 = 4 + 3 * e by omega] at inside
    exact ⟨a, hget, inside⟩
  rcases h with h | ⟨e, he, h⟩ | ⟨e, he, f, hf, hcol, hrow⟩
  · omega
  · obtain ⟨_, _, hc, hr, ho, _⟩ := entry he
    omega
  · obtain ⟨a, ha, _, _, _, hta⟩ := entry he
    obtain ⟨b, hb, _, _, _, htb⟩ := entry (Nat.lt_trans hf he)
    have := not_distinctTiles hf hb ha (by rw [hta, htb, hcol, hrow])
    rw [this] at hdistinct
    cases hdistinct

theorem setStabilizer_refuses (hr : s.ReadyFor 17 c) (hlen : lengthAllowed 17 c.payload = true)
    (h : 2 ≤ (c.payload.getD 1 0).toNat) :
    exec (.setStabilizer m) s = .next (s.replied m (c.reply .badArg [])) :=
  execute_refused_of_length m hr (by simpa [lengthAllowed] using hlen) <| State.ofLane_refused fun _ =>
    State.ofField_refused fun _ ha => absurd (onOffArg_lt ha) (by omega)

theorem readMotion_refuses (hr : s.ReadyFor 18 c) (hlen : c.payload.length = 3)
    (h : 3 ≤ (c.payload.getD 1 0).toNat ∨ 2 ≤ (c.payload.getD 2 0).toNat) :
    exec (.readMotion m) s = .next (s.replied m (c.reply .badArg [])) := by
  refine execute_refused_of_length m hr hlen <| State.ofLane_refused fun _ => State.ofField_refused fun _ ha =>
    State.ofField_refused fun _ hb => ?_
  have h1 : (c.payload.getD 1 0).toNat < 3 := MotionSection.ofCode_lt ha
  have h2 := onOffArg_lt hb
  omega

theorem loadTone_refuses (hr : s.ReadyFor 20 c) (hlen : c.payload.length = 66)
    (h : 4 ≤ (c.payload.getD 0 0).toNat ∨ ((c.payload.getD 1 0).toNat ≠ 0 ∧ (c.payload.getD 1 0).toNat ≠ 64
      ∧ (c.payload.getD 1 0).toNat ≠ 128 ∧ (c.payload.getD 1 0).toNat ≠ 192)) :
    exec (.loadTone m) s = .next (s.replied m (c.reply .badArg [])) := by
  refine execute_refused_of_length m hr hlen <| State.ofField_refused fun _ ha => State.ofField_refused fun _ hb => ?_
  have h0 := laneArg_lt ha
  have h1 : (c.payload.getD 1 0).toNat = 0 ∨ (c.payload.getD 1 0).toNat = 64 ∨ (c.payload.getD 1 0).toNat = 128
    ∨ (c.payload.getD 1 0).toNat = 192 := toneStart_of hb
  omega

theorem setPurge_refuses (hr : s.ReadyFor 22 c) (hlen : lengthAllowed 22 c.payload = true)
    (h : 2 ≤ (c.payload.getD 9 0).toNat) : exec (.setPurge m) s = .next (s.replied m (c.reply .badArg [])) :=
  execute_refused_of_length m hr (by simpa [lengthAllowed] using hlen) <| State.ofLane_refused fun _ =>
    State.ofField_refused fun _ ha => absurd (onOffArg_lt ha) (by omega)

theorem loadWindow_refuses (hr : s.ReadyFor 25 c) (hlen : c.payload.length = 19)
    (h : 4 ≤ (c.payload.getD 0 0).toNat ∨ 6 ≤ (c.payload.getD 1 0).toNat ∨ 4 ≤ (c.payload.getD 2 0).toNat
      ∨ 3 ≤ (c.payload.getD 15 0).toNat ∨ 2 ≤ (c.payload.getD 16 0).toNat ∨ 2 ≤ (c.payload.getD 18 0).toNat
      ∨ 4 ≤ (c.payload.getD 17 0).toNat ∧ (c.payload.getD 17 0).toNat < 255) :
    exec (.loadWindow m) s = .next (s.replied m (c.reply .badArg [])) := by
  refine execute_refused_of_length m hr hlen <| State.ofField_refused fun _ ha => State.ofField_refused fun _ hb =>
    State.ofField_refused fun _ hd => ?_
  have h0 := laneArg_lt ha
  have h1 := windowArg_lt hb
  obtain ⟨h2, h15, h16, h17, h18⟩ := windowFields_lt hd
  omega

theorem clearWindow_refuses (hr : s.ReadyFor 26 c) (hlen : c.payload.length = 2)
    (h : 4 ≤ (c.payload.getD 0 0).toNat ∨ 6 ≤ (c.payload.getD 1 0).toNat) :
    exec (.clearWindow m) s = .next (s.replied m (c.reply .badArg [])) := by
  refine execute_refused_of_length m hr hlen <| State.ofField_refused fun _ ha => State.ofField_refused fun _ hb => ?_
  have h0 := laneArg_lt ha
  have h1 := windowArg_lt hb
  omega

theorem loadMarks_refuses (hr : s.ReadyFor 27 c) (hlen : lengthAllowed 27 c.payload = true)
    (h : 4 ≤ (c.payload.getD 0 0).toNat ∨ ∃ e < (c.payload.getD 13 0).toNat,
      4 ≤ (c.payload.getD (20 + 7 * e) 0).toNat % 16 ∨ 2 ≤ (c.payload.getD (20 + 7 * e) 0).toNat / 16) :
    exec (.loadMarks m) s = .next (s.replied m (c.reply .badArg [])) := by
  refine execute_refused m hr ((if_neg (loadMarks_length hlen)).trans (State.ofField_refused fun _ ha =>
    State.ofField_refused fun l hl => ?_))
  have h0 := laneArg_lt ha
  obtain h | ⟨e, he, h⟩ := h
  · omega
  · obtain ⟨a, hmark, _⟩ := mapM_range_some hl he
    have inside := markArg_lt hmark
    rw [show 14 + 7 * e + 6 = 20 + 7 * e by omega] at inside
    omega

theorem selectPage_refuses (hr : s.ReadyFor 29 c) (hlen : c.payload.length = 1) (h : 4 ≤ (c.payload.getD 0 0).toNat) :
    exec (.selectPage m) s = .next (s.replied m (c.reply .badArg [])) :=
  execute_refused_of_length m hr hlen <| State.ofField_refused fun _ ha => absurd (laneArg_lt ha) (by omega)

theorem setRaster_refuses (hr : s.ReadyFor 31 c) (hlen : c.payload.length = 1) (h : 3 ≤ (c.payload.getD 0 0).toNat) :
    exec (.setRaster m) s = .next (s.replied m (c.reply .badArg [])) :=
  execute_refused_of_length m hr hlen <| State.ofField_refused fun _ ha =>
    absurd (Raster.ofCode_lt ha) (Nat.not_lt.2 h)

theorem setTiming_refuses (hr : s.ReadyFor 32 c) (hlen : c.payload.length = 9)
    (h : 3 ≤ (c.payload.getD 0 0).toNat ∨ 4 ≤ (c.payload.getD 2 0).toNat ∨ 4 ≤ (c.payload.getD 3 0).toNat
      ∨ 4 ≤ (c.payload.getD 4 0).toNat ∨ 4 ≤ (c.payload.getD 5 0).toNat
      ∨ (c.payload.getD 0 0).toNat = 1 ∧ 4 ≤ (c.payload.getD 1 0).toNat) :
    exec (.setTiming m) s = .next (s.replied m (c.reply .badArg [])) := by
  refine execute_refused_of_length m hr hlen <| State.ofField_refused fun _ ha => State.ofField_refused fun _ hb => ?_
  obtain ⟨h0, h1⟩ := timingModeArg_lt ha
  obtain ⟨h2, h3, h4, h5⟩ := priorityArg_lt hb
  omega

theorem setLaneMode_refuses (hr : s.ReadyFor 33 c) (hlen : c.payload.length = 3)
    (h : 3 ≤ (c.payload.getD 1 0).toNat ∨ 2 ≤ (c.payload.getD 2 0).toNat) :
    exec (.setLaneMode m) s = .next (s.replied m (c.reply .badArg [])) := by
  refine execute_refused_of_length m hr hlen <| State.ofLane_refused fun _ => State.ofField_refused fun _ ha =>
    State.ofField_refused fun _ hb => ?_
  have h1 : (c.payload.getD 1 0).toNat < 3 := LaneMode.ofCode_lt ha
  have h2 : (c.payload.getD 2 0).toNat < 2 := Pattern.ofCode_lt hb
  omega

end Fields

/-! ### O22 -/

theorem codesOf_of_uncoded {k : Nat} (h : k ∈ [1, 2, 3, 4, 5, 8, 9, 10, 12, 14, 15, 16, 19, 21, 23, 24, 28, 30, 34, 35]) :
    codesOf k = [] := by
  revert k
  decide

/-- What the coded fields and the special rules of a command refuse, together (R182). -/
theorem exec_of_code {i : Instr} {k : Nat} {s : State} {c : CmdMessage} (hk : i.commandNumber = some k)
    (hr : s.ReadyFor k c) (hlen : lengthAllowed k c.payload = true)
    (hcode : (∃ y ∈ codesOf k, y.2 ≤ (c.payload.getD y.1 0).toNat)
      ∨ (k = 16 ∧ (12 < (c.payload.getD 1 0).toNat
        ∨ (∃ e < (c.payload.getD 1 0).toNat, 20 ≤ (c.payload.getD (2 + 3 * e) 0).toNat
          ∨ 25 ≤ (c.payload.getD (3 + 3 * e) 0).toNat ∨ 2 ≤ (c.payload.getD (4 + 3 * e) 0).toNat)
        ∨ (∃ e < (c.payload.getD 1 0).toNat, ∃ f < e,
          (c.payload.getD (2 + 3 * e) 0).toNat = (c.payload.getD (2 + 3 * f) 0).toNat
            ∧ (c.payload.getD (3 + 3 * e) 0).toNat = (c.payload.getD (3 + 3 * f) 0).toNat)))
      ∨ (k = 20 ∧ (c.payload.getD 1 0).toNat ≠ 0 ∧ (c.payload.getD 1 0).toNat ≠ 64 ∧ (c.payload.getD 1 0).toNat ≠ 128
        ∧ (c.payload.getD 1 0).toNat ≠ 192)
      ∨ (k = 25 ∧ 4 ≤ (c.payload.getD 17 0).toNat ∧ (c.payload.getD 17 0).toNat < 255)
      ∨ (k = 27 ∧ ∃ e < (c.payload.getD 13 0).toNat,
        4 ≤ (c.payload.getD (20 + 7 * e) 0).toNat % 16 ∨ 2 ≤ (c.payload.getD (20 + 7 * e) 0).toNat / 16)
      ∨ (k = 32 ∧ (c.payload.getD 0 0).toNat = 1 ∧ 4 ≤ (c.payload.getD 1 0).toNat)) :
    exec i s = .next (s.replied i.moment (c.reply .badArg [])) := by
  have length {n : Nat} (h : lengthAllowed k c.payload = (c.payload.length == n)) : c.payload.length = n :=
    eq_of_beq (h.symm.trans hlen)
  cases i <;> simp only [Instr.commandNumber, reduceCtorEq, Option.some.injEq] at hk <;> subst hk
  case readCounters m =>
    have codes : codesOf 6 = [(0, 2)] := rfl
    exact readCounters_refuses m hr (length rfl) (by simpa [codes, -List.getD_eq_getElem?_getD] using hcode)
  case cameraConfig m =>
    have codes : codesOf 7 = [(1, 2), (2, 2)] := rfl
    simp only [codes, List.mem_cons, List.not_mem_nil, or_false, or_and_right, exists_or, exists_eq_left] at hcode
    have hlen : c.payload.length = 2 ∨ c.payload.length = 7 := by simpa [lengthAllowed] using hlen
    have short : c.payload.length = 2 → (c.payload.getD 2 0).toNat = 0 := fun h => by
      rw [List.getD_eq_getElem?_getD, List.getElem?_eq_none (Nat.le_of_eq h)]
      rfl
    exact cameraConfig_refuses m hr (by omega)
  case readLane m =>
    have codes : codesOf 11 = [(1, 2)] := rfl
    exact readLane_refuses m hr (length rfl) (by simpa [codes, -List.getD_eq_getElem?_getD] using hcode)
  case setRelay m =>
    have codes : codesOf 13 = [(1, 2)] := rfl
    exact setRelay_refuses m hr (length rfl) (by simpa [codes, -List.getD_eq_getElem?_getD] using hcode)
  case loadAnchors m =>
    have codes : codesOf 16 = [] := rfl
    exact loadAnchors_refuses m hr hlen (by simpa [codes, -List.getD_eq_getElem?_getD] using hcode)
  case setStabilizer m =>
    have codes : codesOf 17 = [(1, 2)] := rfl
    exact setStabilizer_refuses m hr hlen (by simpa [codes, -List.getD_eq_getElem?_getD] using hcode)
  case readMotion m =>
    have codes : codesOf 18 = [(1, 3), (2, 2)] := rfl
    exact readMotion_refuses m hr (length rfl) (by simpa [codes, -List.getD_eq_getElem?_getD] using hcode)
  case loadTone m =>
    have codes : codesOf 20 = [(0, 4)] := rfl
    exact loadTone_refuses m hr (length rfl) (by simpa [codes, -List.getD_eq_getElem?_getD] using hcode)
  case setPurge m =>
    have codes : codesOf 22 = [(9, 2)] := rfl
    exact setPurge_refuses m hr hlen (by simpa [codes, -List.getD_eq_getElem?_getD] using hcode)
  case loadWindow m =>
    have codes : codesOf 25 = [(0, 4), (1, 6), (2, 4), (15, 3), (16, 2), (18, 2)] := rfl
    refine loadWindow_refuses m hr (length rfl) ?_
    simp only [codes, List.mem_cons, List.not_mem_nil, or_false, or_and_right, exists_or, exists_eq_left] at hcode
    omega
  case clearWindow m =>
    have codes : codesOf 26 = [(0, 4), (1, 6)] := rfl
    exact clearWindow_refuses m hr (length rfl) (by simpa [codes, -List.getD_eq_getElem?_getD] using hcode)
  case loadMarks m =>
    have codes : codesOf 27 = [(0, 4)] := rfl
    exact loadMarks_refuses m hr hlen (by simpa [codes, -List.getD_eq_getElem?_getD] using hcode)
  case selectPage m =>
    have codes : codesOf 29 = [(0, 4)] := rfl
    exact selectPage_refuses m hr (length rfl) (by simpa [codes, -List.getD_eq_getElem?_getD] using hcode)
  case setRaster m =>
    have codes : codesOf 31 = [(0, 3)] := rfl
    exact setRaster_refuses m hr (length rfl) (by simpa [codes, -List.getD_eq_getElem?_getD] using hcode)
  case setTiming m =>
    have codes : codesOf 32 = [(0, 3), (2, 4), (3, 4), (4, 4), (5, 4)] := rfl
    refine setTiming_refuses m hr (length rfl) ?_
    simp only [codes, List.mem_cons, List.not_mem_nil, or_false, or_and_right, exists_or, exists_eq_left] at hcode
    omega
  case setLaneMode m =>
    have codes : codesOf 33 = [(1, 3), (2, 2)] := rfl
    exact setLaneMode_refuses m hr (length rfl) (by simpa [codes, -List.getD_eq_getElem?_getD] using hcode)
  all_goals simp [codesOf_of_uncoded] at hcode

/-- Settles O22: each check of a payload answers before the command's body, so it leaves the state as it was. -/
theorem wrongCommandsAreRefused : Obligations.WrongCommandsAreRefused := by
  refine ⟨fun i k s c hk hr hlen => exec_of_length hk hr hlen,
    fun i k s c hk hlane hr hlen h4 => exec_of_lane hk hlane hr hlen h4,
    fun i k s c hk hr hlen hcode => exec_of_code hk hr hlen (hcode.imp_left exists_codeRanges),
    fun m k s c hr hk => ?unknown⟩
  obtain ⟨hreset, hhead, hnumber, hroom⟩ := hr
  refine congrArg Host.Outcome.next ((State.execute_of_head hreset hhead hroom ?_ m _).trans
    (State.refuse_taken s m c .unknown))
  simp only [CmdMessage.unnamed, hnumber, Bool.or_eq_true, beq_iff_eq, decide_eq_true_eq]
  omega

end Sys2Proof.Machine

/-! SUPPORT. What every step keeps of the slot rings, the write buffers and the job queue (R44, R48, R63). -/

namespace Sys2Proof.Machine

/-! ### The roles of a ring -/

/-- The role of a slot, none when FREE. -/
def LaneStore.roleOf (st : LaneStore) (i : Fin 4) : Option Role := (st.ring.get i).map (·.role)

/-- What a safe run holds of one lane's ring: `framed` says that the frame which the store has open is open in the Lane
Receiver, and `job` which slots the lane's jobs have. -/
structure LaneStore.Sound (framed : Prop) (job : Fin 4 → Prop) (st : LaneStore) : Prop where
  ring : ∀ i k : Fin 4, i ≠ k → st.roleOf i = st.roleOf k → st.roleOf i = none
  filling : ∀ i, st.roleOf i = some .filling → st.opening = .stored i ∨ st.pendingCommit.map (·.slot) = some i
  stored : ∀ i : Fin 4, st.opening = .stored i → st.pendingCommit = none
  frame : st.opening ≠ .closed → framed
  conditioning : ∀ i, st.roleOf i = some .conditioning → job i

theorem LaneStore.roleOf_free (st : LaneStore) (i k : Fin 4) :
    (st.free i).roleOf k = if k = i then none else st.roleOf k := by
  unfold LaneStore.roleOf LaneStore.free
  by_cases h : k = i
  · subst h
    simp
  · simp [Four.get_set_other _ _ h, h]

theorem LaneStore.roleOf_move (st : LaneStore) (i k : Fin 4) (role : Role) :
    (st.move i role).roleOf k = if k = i then (st.roleOf i).map fun _ => role else st.roleOf k := by
  unfold LaneStore.roleOf LaneStore.move
  by_cases h : k = i
  · subst h
    simp [Function.comp_def]
  · simp [Four.get_modify_other _ _ h, h]

theorem LaneStore.roleOf_modRecord (st : LaneStore) (i k : Fin 4) (f : FrameRecord → FrameRecord) :
    (st.modRecord i f).roleOf k = st.roleOf k := by
  unfold LaneStore.roleOf LaneStore.modRecord
  by_cases h : k = i
  · subst h
    simp [Function.comp_def]
  · simp [Four.get_modify_other _ _ h]

theorem LaneStore.roleOf_of_slotOf {st : LaneStore} {role : Role} {i : Fin 4} (h : st.slotOf role = some i) :
    st.roleOf i = some role := by
  obtain ⟨held, hget, hrole⟩ := LaneStore.slotOf_eq_some h
  simp [LaneStore.roleOf, hget, hrole]

theorem LaneStore.slotOf_isSome {st : LaneStore} {role : Role} {i : Fin 4} (h : st.roleOf i = some role) :
    ∃ k, st.slotOf role = some k := by
  refine Option.isSome_iff_exists.1 (List.find?_isSome.2 ⟨i, ?_, ?_⟩)
  · clear h
    revert i
    decide
  · obtain ⟨held, hget, hrole⟩ := Option.map_eq_some_iff.1 h
    simp [hget, hrole]

/-- With one slot a role, no slot of a role is left when it becomes FREE. -/
theorem LaneStore.roleOf_freeRole {st : LaneStore} {role : Role} {i : Fin 4}
    (ring : ∀ i k : Fin 4, i ≠ k → st.roleOf i = st.roleOf k → st.roleOf i = none) :
    (st.freeRole role).roleOf i = if st.roleOf i = some role then none else st.roleOf i := by
  have hget : (st.freeRole role).roleOf i = if st.slotOf role = some i then none else st.roleOf i := by
    unfold LaneStore.roleOf
    rw [LaneStore.get_freeRole]
    split <;> rfl
  rw [hget]
  by_cases hrole : st.roleOf i = some role
  · obtain ⟨k, hk⟩ := LaneStore.slotOf_isSome hrole
    have hki : k = i := by
      refine Classical.byContradiction fun hne => ?_
      have := ring k i hne ((LaneStore.roleOf_of_slotOf hk).trans hrole.symm)
      rw [LaneStore.roleOf_of_slotOf hk] at this
      cases this
    rw [hk, hki, if_pos rfl, if_pos hrole]
  · rw [if_neg hrole, if_neg fun hslot => hrole (LaneStore.roleOf_of_slotOf hslot)]

theorem LaneStore.roleOf_freeRole_cases (st : LaneStore) (role : Role) (i : Fin 4) :
    (st.freeRole role).roleOf i = none ∨ (st.freeRole role).roleOf i = st.roleOf i := by
  unfold LaneStore.roleOf
  rw [LaneStore.get_freeRole]
  split
  · exact .inl rfl
  · exact .inr rfl

namespace LaneStore.Sound

variable {framed : Prop} {job : Fin 4 → Prop} {st st' : LaneStore}

/-- Slots that become FREE, with opening and commit as they were. -/
theorem shrink (h : st.Sound framed job) (roles : ∀ i, st'.roleOf i = none ∨ st'.roleOf i = st.roleOf i)
    (opening : st'.opening = st.opening) (commit : st'.pendingCommit = st.pendingCommit) : st'.Sound framed job where
  ring i k hik hrole := by
    rcases roles i with hi | hi
    · exact hi
    · rcases roles k with hk | hk
      · rw [hrole, hk]
      · rw [hi]
        exact h.ring i k hik (by rw [← hi, ← hk, hrole])
  filling i hi := by
    rw [opening, commit]
    rcases roles i with h0 | h0
    · rw [h0] at hi
      cases hi
    · exact h.filling i (h0 ▸ hi)
  stored i hi := by
    rw [commit]
    exact h.stored i (opening ▸ hi)
  frame hne := h.frame (opening ▸ hne)
  conditioning i hi := by
    rcases roles i with h0 | h0
    · rw [h0] at hi
      cases hi
    · exact h.conditioning i (h0 ▸ hi)

/-- Another opening that has no slot, with no FILLING slot but that of the pending commit. -/
theorem reopen (h : st.Sound framed job) {framed' : Prop} (roles : ∀ i, st'.roleOf i = none ∨ st'.roleOf i = st.roleOf i)
    (unstored : ∀ i : Fin 4, st'.opening ≠ .stored i) (commit : st'.pendingCommit = st.pendingCommit)
    (gone : ∀ i : Fin 4, st.opening = .stored i → st'.roleOf i = none) (frame : st'.opening ≠ .closed → framed') :
    st'.Sound framed' job where
  ring i k hik hrole := by
    rcases roles i with hi | hi
    · exact hi
    · rcases roles k with hk | hk
      · rw [hrole, hk]
      · rw [hi]
        exact h.ring i k hik (by rw [← hi, ← hk, hrole])
  filling i hi := by
    rcases roles i with h0 | h0
    · rw [h0] at hi
      cases hi
    · refine .inr ?_
      rw [commit]
      rcases h.filling i (h0 ▸ hi) with ho | hp
      · rw [gone i ho] at hi
        cases hi
      · exact hp
  stored i hi := absurd hi (unstored i)
  frame := frame
  conditioning i hi := by
    rcases roles i with h0 | h0
    · rw [h0] at hi
      cases hi
    · exact h.conditioning i (h0 ▸ hi)

theorem free (h : st.Sound framed job) (i : Fin 4) : (st.free i).Sound framed job :=
  h.shrink (fun k => by rw [roleOf_free]; split <;> simp) rfl rfl

theorem freeRole (h : st.Sound framed job) (role : Role) : (st.freeRole role).Sound framed job :=
  h.shrink (st.roleOf_freeRole_cases role) (by rw [freeRole_eq]) (by rw [freeRole_eq])

theorem release (h : st.Sound framed job) : st.release.Sound framed job := (h.freeRole _).freeRole _

theorem modRecord (h : st.Sound framed job) (i : Fin 4) (f : FrameRecord → FrameRecord) :
    (st.modRecord i f).Sound framed job := h.shrink (fun k => .inr (st.roleOf_modRecord i k f)) rfl rfl

/-- A slot that has a role takes one that no slot has, and that is no role of the frames. -/
theorem move (h : st.Sound framed job) {job' : Fin 4 → Prop} (i : Fin 4) {role : Role} (fill : role ≠ .filling)
    (free : ∀ k, st.roleOf k ≠ some role) (here : role = .conditioning → job' i)
    (jobs : ∀ k, k ≠ i → st.roleOf k = some .conditioning → job k → job' k) : (st.move i role).Sound framed job' where
  ring a b hab hrole := by
    rw [roleOf_move, roleOf_move] at *
    split at hrole
    · rename_i ha
      subst ha
      rw [if_neg (Ne.symm hab)] at hrole
      rw [if_pos rfl]
      cases hfree : st.roleOf a with
      | none => rfl
      | some r =>
        rw [hfree] at hrole
        exact absurd hrole.symm (free b)
    · rename_i ha
      rw [if_neg ha]
      split at hrole
      · rename_i hb
        subst hb
        cases hfree : st.roleOf b with
        | none => rw [hrole, hfree]; rfl
        | some r =>
          rw [hfree] at hrole
          exact absurd hrole (free a)
      · exact h.ring a b hab hrole
  filling k hk := by
    rw [roleOf_move] at hk
    split at hk
    · obtain ⟨_, _, hr⟩ := Option.map_eq_some_iff.1 hk
      exact absurd hr fill
    · exact h.filling k hk
  stored := h.stored
  frame := h.frame
  conditioning k hk := by
    rw [roleOf_move] at hk
    split at hk
    · rename_i hki
      subst hki
      obtain ⟨_, _, hr⟩ := Option.map_eq_some_iff.1 hk
      exact here hr
    · rename_i hki
      exact jobs k hki hk (h.conditioning k hk)

theorem display (h : st.Sound framed job) : st.display.Sound framed job := by
  unfold LaneStore.display
  split
  · refine (h.freeRole .showing).move _ (by decide) (fun k => ?_) (by simp) fun _ _ _ hj => hj
    rw [roleOf_freeRole h.ring]
    split
    · simp
    · assumption
  · exact h

theorem complete (h : st.Sound framed job) {job' : Fin 4 → Prop} (i : Fin 4) (c : Conditioned)
    (jobs : ∀ k, k ≠ i → job k → job' k) : (st.complete i c).Sound framed job' := by
  refine ((h.freeRole .ready).move i (by decide) (fun k => ?_) (by simp) fun k hk _ => jobs k hk).modRecord i _
  rw [roleOf_freeRole h.ring]
  split
  · simp
  · assumption

theorem laneDown (h : st.Sound framed job) (framed' : Prop) (job' : Fin 4 → Prop) : st.laneDown.Sound framed' job' := by
  have roles : ∀ i, st.laneDown.roleOf i = none ∨ st.laneDown.roleOf i = st.roleOf i := fun i => by
    rcases ((st.freeRole .filling).roleOf_freeRole_cases .conditioning i) with h0 | h0
    · exact .inl h0
    · exact (st.roleOf_freeRole_cases .filling i).imp h0.trans h0.trans
  have none_of {i : Fin 4} {role : Role} (hr : role = .filling ∨ role = .conditioning)
      (hi : st.laneDown.roleOf i = some role) : False := by
    have hi : ((st.freeRole .filling).freeRole .conditioning).roleOf i = some role := hi
    rw [roleOf_freeRole (h.freeRole .filling).ring, roleOf_freeRole h.ring] at hi
    by_cases hf : st.roleOf i = some .filling <;> by_cases hc : st.roleOf i = some .conditioning <;>
      simp [hf, hc] at hi
    rcases hr with rfl | rfl
    · exact hf hi
    · exact hc hi
  exact
    { ring := fun i k hik hrole => by
        rcases roles i with hi | hi
        · exact hi
        · rcases roles k with hk | hk
          · rw [hrole, hk]
          · rw [hi]
            exact h.ring i k hik (by rw [← hi, ← hk, hrole])
      filling := fun i hi => (none_of (.inl rfl) hi).elim
      stored := fun i hi => by cases hi
      frame := fun hne => absurd rfl hne
      conditioning := fun i hi => (none_of (.inr rfl) hi).elim }

/-- The lowest-numbered FREE slot becomes FILLING when no other is. -/
theorem give (h : st.Sound framed job) {framed' : Prop} (number : Nat) (g : Geometry) (damaged : List Nat)
    (nofill : ∀ i, st.roleOf i ≠ some .filling) (commit : st.pendingCommit = none) (hf : framed') :
    (st.give number g damaged).Sound framed' job := by
  unfold LaneStore.give
  split
  · rename_i i hi
    have role (k : Fin 4) : LaneStore.roleOf { st with
        ring := st.ring.set i (some ⟨.filling, ⟨number, g, damaged, none⟩⟩), opening := .stored i } k
        = if k = i then some .filling else st.roleOf k := by
      unfold LaneStore.roleOf
      by_cases hk : k = i
      · subst hk
        simp
      · simp [Four.get_set_other _ _ hk, hk]
    exact
      { ring := fun a b hab hrole => by
          rw [role, role] at *
          split at hrole
          · rename_i ha
            subst ha
            rw [if_neg (Ne.symm hab)] at hrole
            exact absurd hrole.symm (nofill b)
          · rename_i ha
            rw [if_neg ha]
            split at hrole
            · exact absurd hrole (nofill a)
            · exact h.ring a b hab hrole
        filling := fun k hk => by
          rw [role] at hk
          split at hk
          · rename_i hki
            exact .inl (hki ▸ rfl)
          · exact absurd hk (nofill k)
        stored := fun _ _ => commit
        frame := fun _ => hf
        conditioning := fun k hk => by
          rw [role] at hk
          split at hk
          · cases hk
          · exact h.conditioning k hk }
  · exact
      { ring := h.ring, filling := fun k hk => absurd hk (nofill k), stored := fun k hk => by cases hk
        frame := fun _ => hf, conditioning := h.conditioning }

/-- An opening when none stands (R47). -/
theorem openFrame (h : st.Sound framed job) {framed' : Prop} (number : Nat) (g : Geometry) (closed : st.opening = .closed)
    (hf : framed') : (st.openFrame number g).Sound framed' job := by
  unfold LaneStore.openFrame
  split
  · exact h.reopen (fun i => .inr rfl) (fun i hi => by cases hi) rfl (fun i hi => by rw [closed] at hi; cases hi)
      fun _ => hf
  · rename_i hcommit
    have hnone : st.pendingCommit = none := by simpa using hcommit
    refine h.give number g [] (fun i hi => ?_) hnone hf
    rcases h.filling i hi with ho | hp
    · rw [closed] at ho
      cases ho
    · rw [hnone] at hp
      cases hp

theorem of_buffer (h : st.Sound framed job) (ring : st'.ring = st.ring) (opening : st'.opening = st.opening)
    (commit : st'.pendingCommit = st.pendingCommit) : st'.Sound framed job :=
  h.shrink (fun i => .inr (by unfold LaneStore.roleOf; rw [ring])) opening commit

theorem trimUnstored (h : st.Sound framed job) : st.trimUnstored.Sound framed job := by
  unfold LaneStore.trimUnstored
  split
  · exact h.of_buffer rfl rfl rfl
  · exact h

theorem enterDamaged (h : st.Sound framed job) (line : Nat) : (st.enterDamaged line).Sound framed job := by
  unfold LaneStore.enterDamaged
  split
  · exact h.modRecord _ _
  · rename_i number g damaged ho
    exact h.reopen (fun i => .inr rfl) (fun i hi => by cases hi) rfl (fun i hi => by rw [ho] at hi; cases hi)
      fun _ => h.frame (by rw [ho]; simp)
  · exact h

theorem abandon (h : st.Sound framed job) (framed' : Prop) : st.abandon.Sound framed' job := by
  unfold LaneStore.abandon LaneStore.dropLines
  split
  · rename_i i ho
    refine h.reopen (fun k => ?_) (fun k hk => by cases hk) rfl (fun k hk => ?_) fun hne => absurd rfl hne
    · show (st.free i).roleOf k = none ∨ (st.free i).roleOf k = st.roleOf k
      rw [roleOf_free]
      split <;> simp
    · show (st.free i).roleOf k = none
      rw [ho] at hk
      cases hk
      rw [roleOf_free, if_pos rfl]
  · rename_i ho
    exact h.reopen (fun k => .inr rfl) (fun k hk => by cases hk) rfl (fun k hk => absurd hk (ho k))
      fun hne => absurd rfl hne

/-- The close of a frame that has no slot. -/
theorem closeUnstored (h : st.Sound framed job) (framed' : Prop) (unstored : ∀ i : Fin 4, st.opening ≠ .stored i) :
    (LaneStore.dropLines .current { st with opening := .closed }).Sound framed' job :=
  h.reopen (fun _ => .inr rfl) (fun i hi => by cases hi) rfl (fun i hi => absurd hi (unstored i)) fun hne => absurd rfl hne

theorem markPending (h : st.Sound framed job) (framed' : Prop) {p : PendingCommit} (ho : st.opening = .stored p.slot) :
    (st.markPending p).Sound framed' job where
  ring := h.ring
  filling i hi := by
    refine .inr ?_
    rcases h.filling i hi with hs | hp
    · rw [ho] at hs
      cases hs
      rfl
    · rw [h.stored _ ho] at hp
      cases hp
  stored i hi := by cases hi
  frame hne := absurd rfl hne
  conditioning := h.conditioning

theorem segmentWritten (h : st.Sound framed job) : st.segmentWritten.Sound framed job := by
  unfold LaneStore.segmentWritten
  split
  · split
    · rename_i rest _ _
      exact (h.of_buffer (st' := { st with buffer := rest }) rfl rfl rfl).trimUnstored
    · exact h.of_buffer rfl rfl rfl
  · exact h

theorem enter (h : st.Sound framed job) (line : Nat) (payload : List Byte) : (st.enter line payload).Sound framed job :=
  (h.of_buffer (st' := { st with buffer := st.buffer ++ [⟨.current, line, payload, 0⟩] }) rfl rfl rfl).trimUnstored

/-- A ring without a pending commit is sound for any set of jobs that holds its conditioning slots. -/
theorem mono (h : st.Sound framed job) {framed' : Prop} {job' : Fin 4 → Prop} (hf : framed → framed')
    (jobs : ∀ i, st.roleOf i = some .conditioning → job i → job' i) : st.Sound framed' job' :=
  { h with frame := fun hne => hf (h.frame hne), conditioning := fun i hi => jobs i hi (h.conditioning i hi) }

end LaneStore.Sound

end Sys2Proof.Machine

/-! SUPPORT. Every part of a step keeps the write buffers, the job queue and the slot rings in order (R44, R48, R63). -/

namespace Sys2Proof.Machine

/-! ### The three invariants, and what part of the state they speak of -/

/-- The frame that the store has open is open in the Lane Receiver, outside CHECK. -/
def LaneBlocks.framed (l : LaneBlocks) : Prop := l.rx.openFrame.isSome = true ∧ l.rx.mode ≠ .check

/-- A slot is that of a job of the lane. -/
def State.jobAt (s : State) (n : Lane) (i : Fin 4) : Prop := ∃ j ∈ s.jobs, j.lane = n ∧ j.slot = i

def State.ringsOk (s : State) : Prop := ∀ n, (s.lane n).store.Sound (s.lane n).framed (s.jobAt n)

/-- At most one job a lane, of which none but the head runs: what holds also before the head starts. -/
def State.queueOk (s : State) : Prop := (s.jobs.map (·.lane)).Nodup ∧ ∀ j ∈ s.jobs.drop 1, j.run = none

def State.headRuns (s : State) : Prop := ∀ j ∈ s.jobs.take 1, j.run.isSome = true

def State.buffersOk (s : State) : Prop := ∀ n, (s.lane n).store.bufferOk

theorem State.jobsOk_iff {s : State} : s.jobsOk ↔ s.queueOk ∧ s.headRuns :=
  ⟨fun ⟨hnodup, hhead, htail⟩ => ⟨⟨hnodup, htail⟩, hhead⟩, fun ⟨⟨hnodup, htail⟩, hhead⟩ => ⟨hnodup, hhead, htail⟩⟩

theorem LaneStore.ringOk_iff {st : LaneStore} :
    st.ringOk ↔ ∀ i k : Fin 4, i ≠ k → st.roleOf i = st.roleOf k → st.roleOf i = none := by
  simp only [LaneStore.ringOk, LaneStore.roleOf, Option.map_eq_none_iff]

theorem State.storeOk_iff {s : State} : s.storeOk ↔ s.jobsOk ∧ s.ringsOk := by
  refine and_congr_right fun _ => forall_congr' fun n => ⟨fun ⟨hring, hfill, hstored, hframe, hcond⟩ => ?_, fun h => ?_⟩
  · exact ⟨LaneStore.ringOk_iff.1 hring, hfill, hstored, hframe, hcond⟩
  · exact ⟨LaneStore.ringOk_iff.2 h.ring, h.filling, h.stored, h.frame, h.conditioning⟩

/-- What the invariants read of a lane stays. -/
structure LaneBlocks.SameStore (l k : LaneBlocks) : Prop where
  store : k.store = l.store
  frame : k.rx.openFrame = l.rx.openFrame
  mode : k.rx.mode = l.rx.mode

theorem LaneBlocks.SameStore.framed {l k : LaneBlocks} (h : l.SameStore k) : k.framed ↔ l.framed := by
  rw [LaneBlocks.framed, LaneBlocks.framed, h.frame, h.mode]

theorem LaneBlocks.SameStore.refl (l : LaneBlocks) : l.SameStore l := ⟨rfl, rfl, rfl⟩

/-- What the invariants read stays. -/
structure State.SameStore (s t : State) : Prop where
  jobs : t.jobs = s.jobs
  lanes : ∀ n, (s.lane n).SameStore (t.lane n)

theorem State.SameStore.of_eq {s t : State} (lanes : t.lanes = s.lanes) (jobs : t.jobs = s.jobs) : s.SameStore t :=
  ⟨jobs, fun n => by rw [State.lane, State.lane, lanes]; exact .refl _⟩

theorem State.SameStore.refl (s : State) : s.SameStore s := .of_eq rfl rfl

theorem State.SameStore.trans {s t u : State} (h : s.SameStore t) (k : t.SameStore u) : s.SameStore u where
  jobs := k.jobs.trans h.jobs
  lanes n := ⟨(k.lanes n).store.trans (h.lanes n).store, (k.lanes n).frame.trans (h.lanes n).frame,
    (k.lanes n).mode.trans (h.lanes n).mode⟩

theorem State.SameStore.modLane (s : State) (n : Lane) {f : LaneBlocks → LaneBlocks}
    (h : (s.lane n).SameStore (f (s.lane n))) : s.SameStore (s.modLane n f) where
  jobs := rfl
  lanes k := by
    by_cases hk : k = n
    · subst hk
      rwa [State.lane_modLane_same]
    · rw [State.lane_modLane_other f s hk]
      exact .refl _

/-- The invariants that hold on the way through an event, while the queue's head may still wait for its start. -/
structure State.Keep (s t : State) : Prop where
  buffers : s.buffersOk → t.buffersOk
  queue : s.queueOk → t.queueOk
  rings : s.queueOk → s.ringsOk → t.ringsOk

/-- All of the invariants, one by one. -/
structure State.KeepAll (s t : State) : Prop extends s.Keep t where
  head : s.headRuns → t.headRuns

namespace State.Keep

theorem refl (s : State) : s.Keep s := ⟨id, id, fun _ h => h⟩

theorem trans {s t u : State} (h : s.Keep t) (k : t.Keep u) : s.Keep u :=
  ⟨k.buffers ∘ h.buffers, k.queue ∘ h.queue, fun hq hr => k.rings (h.queue hq) (h.rings hq hr)⟩

/-- A change of one lane and its jobs. -/
theorem change {s t : State} (n : Lane) (others : ∀ k, k ≠ n → (s.lane k).SameStore (t.lane k))
    (jobs : ∀ k, k ≠ n → ∀ i, s.jobAt k i → t.jobAt k i)
    (buffer : (s.lane n).store.bufferOk → (t.lane n).store.bufferOk) (queue : s.queueOk → t.queueOk)
    (ring : s.queueOk → (s.lane n).store.Sound (s.lane n).framed (s.jobAt n) →
      (t.lane n).store.Sound (t.lane n).framed (t.jobAt n)) : s.Keep t where
  buffers h k := by
    by_cases hk : k = n
    · exact hk ▸ buffer (h n)
    · rw [(others k hk).store]
      exact h k
  queue := queue
  rings hq h k := by
    by_cases hk : k = n
    · exact hk ▸ ring hq (h n)
    · rw [(others k hk).store]
      exact (h k).mono (others k hk).framed.2 fun i _ => jobs k hk i

end State.Keep

namespace State.KeepAll

theorem refl (s : State) : s.KeepAll s := ⟨.refl s, id⟩

theorem trans {s t u : State} (h : s.KeepAll t) (k : t.KeepAll u) : s.KeepAll u :=
  ⟨h.toKeep.trans k.toKeep, k.head ∘ h.head⟩

theorem ite {s a b : State} {c : Prop} [Decidable c] (ha : c → s.KeepAll a) (hb : ¬c → s.KeepAll b) :
    s.KeepAll (if c then a else b) := by
  split
  · exact ha ‹_›
  · exact hb ‹_›

theorem of_same {s t : State} (h : s.SameStore t) : s.KeepAll t := by
  have jobAt (n : Lane) (i : Fin 4) : t.jobAt n i ↔ s.jobAt n i := by rw [State.jobAt, State.jobAt, h.jobs]
  refine ⟨⟨fun hb n => ?_, fun hq => ?_, fun _ hr n => ?_⟩, fun hh => ?_⟩
  · rw [(h.lanes n).store]
    exact hb n
  · rwa [State.queueOk, h.jobs]
  · rw [(h.lanes n).store]
    exact (hr n).mono (h.lanes n).framed.2 fun i _ => (jobAt n i).2
  · rwa [State.headRuns, h.jobs]

/-- A change of one lane, its jobs as they were. -/
theorem modLane (s : State) (n : Lane) {f : LaneBlocks → LaneBlocks}
    (buffer : (s.lane n).store.bufferOk → (f (s.lane n)).store.bufferOk)
    (ring : (s.lane n).store.Sound (s.lane n).framed (s.jobAt n) →
      (f (s.lane n)).store.Sound (f (s.lane n)).framed (s.jobAt n)) : s.KeepAll (s.modLane n f) := by
  refine ⟨.change n (fun k hk => ?_) (fun _ _ _ h => h) ?_ id fun _ => ?_, id⟩
  · rw [State.lane_modLane_other f s hk]
    exact .refl _
  · rwa [State.lane_modLane_same]
  · rw [State.lane_modLane_same]
    exact ring

theorem modStore (s : State) (n : Lane) {f : LaneStore → LaneStore}
    (buffer : (s.lane n).store.bufferOk → (f (s.lane n).store).bufferOk)
    (ring : (s.lane n).store.Sound (s.lane n).framed (s.jobAt n) →
      (f (s.lane n).store).Sound (s.lane n).framed (s.jobAt n)) : s.KeepAll (s.modStore n f) := modLane s n buffer ring

end State.KeepAll

/-! ### The small updates -/

section Updates

variable (s : State) (n : Lane)

theorem State.same_modRx {f : Receiver → Receiver} (hf : ∀ r, (f r).openFrame = r.openFrame ∧ (f r).mode = r.mode) :
    s.SameStore (s.modRx n f) := .modLane s n ⟨rfl, (hf _).1, (hf _).2⟩

theorem State.same_modCounters (f : LaneCounters → LaneCounters) : s.SameStore (s.modCounters n f) :=
  .modLane s n ⟨rfl, rfl, rfl⟩

theorem State.same_modDust (f : Dust → Dust) : s.SameStore (s.modDust n f) := .modLane s n ⟨rfl, rfl, rfl⟩

theorem State.same_modMotion (f : Motion → Motion) : s.SameStore (s.modMotion n f) := .modLane s n ⟨rfl, rfl, rfl⟩

theorem State.same_modRelay (f : Relay → Relay) : s.SameStore (s.modRelay n f) := .modLane s n ⟨rfl, rfl, rfl⟩

theorem State.same_modTest (f : LinkTest → LinkTest) : s.SameStore (s.modTest n f) := .modLane s n ⟨rfl, rfl, rfl⟩

theorem State.same_modPurge (f : Purge → Purge) : s.SameStore (s.modPurge n f) := .modLane s n ⟨rfl, rfl, rfl⟩

theorem State.same_offer (nt : Notice) : s.SameStore (s.offer nt) := by
  rw [State.offer_eq]
  exact .of_eq rfl rfl

theorem State.same_offerAll (l : List Notice) : s.SameStore (s.offerAll l) := by
  rw [State.offerAll_eq]
  exact .of_eq rfl rfl

theorem State.same_raise (f : EventFlag) : s.SameStore (s.raise f) := .of_eq rfl rfl

theorem State.same_relayEvent (f : Relay → Relay × List Notice) : s.SameStore (s.relayEvent n f) :=
  (s.same_modRelay n _).trans (State.same_offerAll _ _)

theorem State.same_purgeEvent (f : Purge → Purge × List Notice) : s.SameStore (s.purgeEvent n f) :=
  (s.same_modPurge n _).trans (State.same_offerAll _ _)

theorem State.same_serve : s.SameStore s.serve := by
  rw [State.serve_eq]
  exact .of_eq rfl rfl

theorem State.same_discardHead : s.SameStore (s.discardHead n) := by
  unfold State.discardHead
  split
  · split
    · exact .of_eq rfl rfl
    · exact .refl s
  · exact .refl s

theorem State.same_countPeriod (out : Bool) : s.SameStore (s.countPeriod n out) := by
  unfold State.countPeriod
  split
  · exact s.same_modCounters n _
  · exact .refl s

theorem State.same_raiseDown (lockout : Bool) : s.SameStore (s.raiseDown n lockout) := by
  unfold State.raiseDown
  split
  · exact (State.same_raise _ _).trans (State.same_raise _ _)
  · exact State.same_raise _ _

end Updates

/-! ### The engine's jobs -/

theorem State.jobAt_of_map {s t : State} {n : Lane} {i : Fin 4} (h : s.jobAt n i)
    (hj : ∀ j ∈ s.jobs, j.lane = n → ∃ k ∈ t.jobs, k.lane = j.lane ∧ k.slot = j.slot) : t.jobAt n i := by
  obtain ⟨j, hmem, hlane, hslot⟩ := h
  obtain ⟨k, hk, hkl, hks⟩ := hj j hmem hlane
  exact ⟨k, hk, hkl.trans hlane, hks.trans hslot⟩

/-- The queue with its head changed, but for its lane. -/
theorem State.queueOk_head {s t : State} {j k : Job} {rest : List Job} (hs : s.jobs = j :: rest) (ht : t.jobs = k :: rest)
    (hlane : k.lane = j.lane) (h : s.queueOk) : t.queueOk := by
  rw [State.queueOk, hs] at h
  rw [State.queueOk, ht]
  simpa [hlane] using h

/-- The queue's head as it runs on. -/
theorem State.keep_head {s : State} {j k : Job} {rest : List Job} (hs : s.jobs = j :: rest) (hlane : k.lane = j.lane)
    (hslot : k.slot = j.slot) : s.Keep { s with jobs := k :: rest } := by
  have jobAt (n : Lane) (i : Fin 4) (h : s.jobAt n i) : State.jobAt { s with jobs := k :: rest } n i := by
    refine State.jobAt_of_map h fun a ha _ => ?_
    rw [hs] at ha
    rcases List.mem_cons.1 ha with rfl | ha
    · exact ⟨k, List.mem_cons_self, hlane, hslot⟩
    · exact ⟨a, List.mem_cons_of_mem _ ha, rfl, rfl⟩
  exact ⟨id, State.queueOk_head hs rfl hlane, fun _ hr n => (hr n).mono id fun i _ => jobAt n i⟩

theorem State.keep_beginJob {s : State} {j : Job} {rest : List Job} (hs : s.jobs = j :: rest) :
    s.Keep (s.beginJob j) := by
  unfold State.beginJob
  have moved := (State.KeepAll.of_same (s.same_modMotion j.lane
    (Motion.atStart ((s.lane j.lane).startRun j.slot).reference.isSome))).toKeep
  refine moved.trans ?_
  rw [hs]
  exact State.keep_head (s := s.modMotion j.lane _) hs rfl rfl

theorem LaneBlocks.store_completeRun (number : Nat) (slot : Fin 4) (run : RunningJob) (l : LaneBlocks) :
    ∃ c, (l.completeRun number slot run).store = l.store.complete slot c := ⟨_, rfl⟩

theorem LaneBlocks.rx_completeRun (number : Nat) (slot : Fin 4) (run : RunningJob) (l : LaneBlocks) :
    (l.completeRun number slot run).rx.openFrame = l.rx.openFrame ∧ (l.completeRun number slot run).rx.mode = l.rx.mode := by
  unfold LaneBlocks.completeRun
  simp only
  split <;> exact ⟨rfl, rfl⟩

theorem State.completeJob_of {s : State} {j : Job} {rest : List Job} {run : RunningJob} (hs : s.jobs = j :: rest)
    (hrun : j.run = some run) : ∃ f, s.completeJob
      = State.purgeEvent j.lane f { s.modLane j.lane (LaneBlocks.completeRun j.number j.slot run) with jobs := rest } := by
  unfold State.completeJob
  rw [hs]
  simp only [hrun]
  exact ⟨_, rfl⟩

theorem LaneStore.buffer_complete (slot : Fin 4) (c : Conditioned) (st : LaneStore) :
    (st.complete slot c).buffer = st.buffer := by
  unfold LaneStore.complete
  rw [LaneStore.freeRole_eq]
  rfl

theorem State.keep_completeJob (s : State) : s.Keep s.completeJob := by
  cases hs : s.jobs with
  | nil =>
    have : s.completeJob = s := by
      unfold State.completeJob
      rw [hs]
    rw [this]
    exact .refl s
  | cons j rest =>
    cases hrun : j.run with
    | none =>
      have : s.completeJob = s := by
        unfold State.completeJob
        rw [hs]
        simp only [hrun]
      rw [this]
      exact .refl s
    | some run =>
      obtain ⟨f, hf⟩ := State.completeJob_of hs hrun
      rw [hf]
      refine State.Keep.trans ?_ (State.KeepAll.of_same (State.same_purgeEvent _ _ f)).toKeep
      have jobs : ∀ k i, (k, i) ≠ (j.lane, j.slot) → s.jobAt k i → ∃ a ∈ rest, a.lane = k ∧ a.slot = i := by
        rintro k i hne ⟨a, ha, rfl, rfl⟩
        rw [hs] at ha
        rcases List.mem_cons.1 ha with rfl | ha
        · exact absurd rfl hne
        · exact ⟨a, ha, rfl, rfl⟩
      have same : State.lane { s.modLane j.lane (LaneBlocks.completeRun j.number j.slot run) with jobs := rest } j.lane
          = (s.lane j.lane).completeRun j.number j.slot run := State.lane_modLane_same ..
      refine .change j.lane (fun k hk => ?_) (fun k hk i => jobs k i fun he => hk (congrArg Prod.fst he)) (fun hb => ?_)
        (fun hq => ?_) fun _ hr => ?_
      · show (s.lane k).SameStore ((s.modLane j.lane _).lane k)
        rw [State.lane_modLane_other _ s hk]
        exact .refl _
      · rw [same]
        exact Nat.le_trans (Nat.le_of_eq (congrArg List.length (LaneStore.buffer_complete _ _ _))) hb
      · rw [State.queueOk, hs] at hq
        obtain ⟨hnodup, htail⟩ := hq
        exact ⟨(List.nodup_cons.1 hnodup).2, fun a ha => htail a (List.mem_of_mem_drop ha)⟩
      · rw [same]
        obtain ⟨c, hc⟩ := LaneBlocks.store_completeRun j.number j.slot run (s.lane j.lane)
        rw [hc]
        have sound := hr.complete (job' := fun i => ∃ a ∈ rest, a.lane = j.lane ∧ a.slot = i) j.slot c
          fun k hk => jobs j.lane k fun he => hk (congrArg Prod.snd he)
        obtain ⟨hframe, hmode⟩ := LaneBlocks.rx_completeRun j.number j.slot run (s.lane j.lane)
        exact sound.mono (fun hf => by rwa [LaneBlocks.framed, hframe, hmode]) fun _ _ h => h

theorem State.keep_runJobs (fuel : Nat) (s : State) : s.Keep (s.runJobs fuel) := by
  induction fuel generalizing s with
  | zero => exact .refl s
  | succ fuel ih =>
    unfold State.runJobs
    split
    · exact .refl s
    · rename_i j rest hjobs
      split
      · exact .refl s
      · simp only
        split
        · exact State.keep_beginJob hjobs
        · exact (State.keep_beginJob hjobs).trans ((State.keep_completeJob _).trans (ih _))

/-- Once the engine has started what it can, the head runs (R63). -/
theorem State.headRuns_runJobs {fuel : Nat} {s : State} (h : s.jobs.length ≤ fuel) : (s.runJobs fuel).headRuns := by
  induction fuel generalizing s with
  | zero =>
    intro j hj
    rw [State.runJobs, List.eq_nil_of_length_eq_zero (Nat.le_zero.1 h)] at hj
    cases hj
  | succ fuel ih =>
    unfold State.runJobs
    cases hs : s.jobs with
    | nil =>
      intro j hj
      simp only [hs] at hj
      cases hj
    | cons j rest =>
      simp only
      split
      · rename_i hrun
        intro a ha
        rw [hs] at ha
        obtain rfl : a = j := by simpa using ha
        exact hrun
      · have begun : (s.beginJob j).jobs = { j with run := some ((s.lane j.lane).startRun j.slot) } :: rest := by
          show _ :: s.jobs.drop 1 = _
          rw [hs]
          rfl
        split
        · intro a ha
          rw [begun] at ha
          obtain rfl : a = _ := List.mem_singleton.1 ha
          rfl
        · obtain ⟨f, hf⟩ := State.completeJob_of begun rfl
          refine ih ?_
          rw [hf, (State.same_purgeEvent _ _ f).jobs]
          rw [hs, List.length_cons] at h
          exact Nat.le_of_succ_le_succ h

/-- What ends with the start of the jobs keeps all the invariants. -/
theorem State.Keep.startJobs {s t : State} (h : s.Keep t) : s.KeepAll t.startJobs :=
  ⟨h.trans (State.keep_runJobs _ t), fun _ => State.headRuns_runJobs (Nat.le_refl _)⟩

theorem State.keepAll_takeRead (data : List Byte) (s : State) : s.KeepAll (s.takeRead data) := by
  unfold State.takeRead
  split
  · exact .refl s
  · rename_i j rest hjobs
    split
    · exact .refl s
    · simp only
      split
      · refine ⟨State.keep_head hjobs rfl rfl, fun _ a ha => ?_⟩
        obtain rfl : a = _ := List.mem_singleton.1 ha
        rfl
      · refine State.Keep.startJobs (.trans ?_ (State.keep_completeJob _))
        exact State.keep_head hjobs rfl rfl

end Sys2Proof.Machine

/-! SUPPORT. The commit, the lane down, the packets and the commands keep the write buffers, the job queue and the slot
rings in order (R44, R48, R63). -/

namespace Sys2Proof.Machine

/-! ### The commit (R49, R50) -/

/-- A deferred opening made once the commit before it has left its slot (R47). -/
theorem LaneStore.Sound.committed {framed : Prop} {job : Fin 4 → Prop} {st : LaneStore} (h : st.Sound framed job)
    (nofill : ∀ i, st.roleOf i ≠ some .filling) :
    (LaneStore.performDeferred { st with pendingCommit := none }).Sound framed job := by
  have dropped : LaneStore.Sound framed job { st with pendingCommit := none } :=
    { ring := h.ring, filling := fun i hi => absurd hi (nofill i), stored := fun _ _ => rfl, frame := h.frame
      conditioning := h.conditioning }
  unfold LaneStore.performDeferred
  split
  · rename_i number g damaged ho
    exact (dropped.give number g damaged nofill rfl (h.frame (by
      rw [show st.opening = .deferred number g damaged from ho]
      simp))).trimUnstored
  · exact dropped

theorem LaneStore.buffer_give (number : Nat) (g : Geometry) (damaged : List Nat) (st : LaneStore) :
    (st.give number g damaged).buffer = st.buffer := by
  unfold LaneStore.give
  split <;> rfl

theorem LaneStore.length_trimUnstored (st : LaneStore) : st.trimUnstored.buffer.length ≤ st.buffer.length := by
  unfold LaneStore.trimUnstored
  split
  · exact (List.dropWhile_suffix _).length_le
  · exact Nat.le_refl _

theorem LaneStore.length_performDeferred (st : LaneStore) : st.performDeferred.buffer.length ≤ st.buffer.length := by
  unfold LaneStore.performDeferred
  split
  · exact Nat.le_trans (LaneStore.length_trimUnstored _)
      (Nat.le_of_eq (congrArg List.length (LaneStore.buffer_give _ _ _ _)))
  · exact Nat.le_refl _

/-- With a commit pending, only its slot is FILLING. -/
theorem LaneStore.Sound.filling_pending {framed : Prop} {job : Fin 4 → Prop} {st : LaneStore} (h : st.Sound framed job)
    {p : PendingCommit} (hp : st.pendingCommit = some p) {i : Fin 4} (hi : st.roleOf i = some .filling) : i = p.slot := by
  rcases h.filling i hi with ho | hslot
  · rw [h.stored i ho] at hp
    cases hp
  · rw [hp] at hslot
    exact (Option.some.inj hslot).symm

/-- The rest of a commit: the deferred opening, once the frame has left its slot. -/
theorem State.keep_performDeferred {s t : State} {n : Lane} {st : LaneStore}
    (others : ∀ k, k ≠ n → (s.lane k).SameStore (t.lane k)) (rx : (t.lane n).framed ↔ (s.lane n).framed)
    (store : (t.lane n).store = { st with pendingCommit := none }) (buffer : st.buffer = (s.lane n).store.buffer)
    (jobs : ∀ k, k ≠ n → ∀ i, s.jobAt k i → t.jobAt k i) (queue : s.queueOk → t.queueOk)
    (ring : s.queueOk → (s.lane n).store.Sound (s.lane n).framed (s.jobAt n) →
      st.Sound (s.lane n).framed (t.jobAt n) ∧ ∀ i, st.roleOf i ≠ some .filling) :
    s.Keep (t.modStore n LaneStore.performDeferred) := by
  have held : ((t.modStore n LaneStore.performDeferred).lane n).store
      = LaneStore.performDeferred { st with pendingCommit := none } := by simp [store]
  have frame : ((t.modStore n LaneStore.performDeferred).lane n).framed ↔ (s.lane n).framed := by
    rw [← rx, LaneBlocks.framed, LaneBlocks.framed]
    simp
  refine .change n (fun k hk => ?_) jobs (fun hb => ?_) queue fun hq hr => ?_
  · rw [State.modStore, State.lane_modLane_other _ t hk]
    exact others k hk
  · rw [held]
    exact Nat.le_trans (LaneStore.length_performDeferred _) (Nat.le_trans (Nat.le_of_eq (congrArg List.length buffer)) hb)
  · rw [held]
    obtain ⟨sound, nofill⟩ := ring hq hr
    exact (sound.committed nofill).mono frame.2 fun _ _ h => h

theorem State.jobAt_congr {s t : State} (h : t.jobs = s.jobs) : t.jobAt = s.jobAt := by
  funext n i
  rw [State.jobAt, State.jobAt, h]

/-- A commit that leaves the slot FREE. -/
theorem State.keep_freed {s t : State} {n : Lane} {p : PendingCommit} (hp : (s.lane n).store.pendingCommit = some p)
    (h : State.SameStore (s.modStore n fun st => { st.free p.slot with pendingCommit := none }) t) :
    s.Keep (t.modStore n LaneStore.performDeferred) := by
  have lane : ((s.modStore n fun st => { st.free p.slot with pendingCommit := none }).lane n).SameStore (t.lane n) :=
    h.lanes n
  have jobs := State.jobAt_congr h.jobs
  refine State.keep_performDeferred (st := (s.lane n).store.free p.slot) (fun k hk => ?_) ?_ ?_ rfl
    (fun k _ i hi => by rwa [jobs]) (fun hq => by rwa [State.queueOk, h.jobs]) fun _ hr => ⟨?_, fun i hi => ?_⟩
  · have other := h.lanes k
    rwa [State.modStore, State.lane_modLane_other _ s hk] at other
  · rw [lane.framed, LaneBlocks.framed, LaneBlocks.framed]
    simp
  · rw [lane.store]
    simp
  · rw [jobs]
    exact hr.free _
  · rw [LaneStore.roleOf_free] at hi
    split at hi
    · cases hi
    · exact absurd (hr.filling_pending hp hi) ‹_›

/-- The job queue and the lane's ring after a frame has entered the engine (R50, R63). -/
def State.enqueued (n : Lane) (slot : Fin 4) (number : Nat) (s : State) : LaneStore × List Job :=
  match s.laneJob n with
  | none => ((s.lane n).store.move slot .conditioning, s.jobs ++ [⟨n, slot, number, none⟩])
  | some j => if j.run.isSome then ((s.lane n).store.free slot, s.jobs)
    else (((s.lane n).store.free j.slot).move slot .conditioning,
      s.jobs.map fun k => if k.lane = n then ⟨n, slot, number, none⟩ else k)

theorem State.enqueue_of (n : Lane) (slot : Fin 4) (s : State) : ∃ number,
    ((s.enqueue n slot).lane n).store = (s.enqueued n slot number).1
      ∧ (s.enqueue n slot).jobs = (s.enqueued n slot number).2
      ∧ ((s.enqueue n slot).lane n).framed = (s.lane n).framed
      ∧ ∀ k, k ≠ n → (s.enqueue n slot).lane k = s.lane k := by
  refine ⟨((s.lane n).store.record slot).elim 0 (·.number), ?_⟩
  unfold State.enqueue State.enqueued
  have moved (f : LaneStore → LaneStore) (g : Dust → Dust) :
      (((s.modStore n f).modDust n g).lane n).store = f (s.lane n).store
        ∧ (((s.modStore n f).modDust n g).lane n).framed = (s.lane n).framed
        ∧ ∀ k, k ≠ n → ((s.modStore n f).modDust n g).lane k = s.lane k := by
    refine ⟨by simp, by simp [LaneBlocks.framed], fun k hk => ?_⟩
    simp [State.modStore, State.modDust, State.lane_modLane_other _ _ hk]
  have skipped (t : State) : ((t.countSkipped n).lane n).store = (t.lane n).store
      ∧ ((t.countSkipped n).lane n).framed = (t.lane n).framed ∧ ∀ k, k ≠ n → (t.countSkipped n).lane k = t.lane k := by
    refine ⟨by simp [State.countSkipped, State.modCounters],
      by simp [State.countSkipped, State.modCounters, LaneBlocks.framed], fun k hk => ?_⟩
    exact State.lane_modLane_other _ t hk
  cases s.laneJob n with
  | none =>
    obtain ⟨store, framed, others⟩ := moved (LaneStore.move slot .conditioning) Dust.promoteClosed
    exact ⟨store, rfl, framed, others⟩
  | some j =>
    simp only
    split
    · obtain ⟨store, framed, others⟩ := moved (LaneStore.free slot) Dust.dropClosed
      obtain ⟨store', framed', others'⟩ := skipped ((s.modStore n (LaneStore.free slot)).modDust n Dust.dropClosed)
      exact ⟨store'.trans store, rfl, framed'.trans framed, fun k hk => (others' k hk).trans (others k hk)⟩
    · obtain ⟨store, framed, others⟩ := moved (fun st => (st.free j.slot).move slot .conditioning) Dust.promoteClosed
      obtain ⟨store', framed', others'⟩ := skipped
        ((s.modStore n fun st => (st.free j.slot).move slot .conditioning).modDust n Dust.promoteClosed)
      exact ⟨store'.trans store, rfl, framed'.trans framed, fun k hk => (others' k hk).trans (others k hk)⟩

theorem eq_of_nodup_map {α β : Type} {f : α → β} {l : List α} (h : (l.map f).Nodup) {a b : α} (ha : a ∈ l) (hb : b ∈ l)
    (hab : f a = f b) : a = b := by
  obtain ⟨i, hi, rfl⟩ := List.getElem_of_mem ha
  obtain ⟨j, hj, rfl⟩ := List.getElem_of_mem hb
  have hij : (l.map f)[i]'(by rwa [List.length_map]) = (l.map f)[j]'(by rwa [List.length_map]) := by
    rw [List.getElem_map, List.getElem_map, hab]
  obtain rfl := (List.getElem_inj h).1 hij
  rfl

/-- No job of the lane is queued, or the one that is found is its only one. -/
theorem State.laneJob_unique {s : State} {n : Lane} {j : Job} (hq : s.queueOk) (hj : s.laneJob n = some j) {a : Job}
    (ha : a ∈ s.jobs) (hlane : a.lane = n) : a = j := by
  have hmem := List.mem_of_find?_eq_some hj
  have hjn : j.lane = n := by simpa using List.find?_some hj
  exact eq_of_nodup_map hq.1 ha hmem (hlane.trans hjn.symm)

theorem State.jobAt_of_laneJob {s : State} {n : Lane} {j : Job} (hq : s.queueOk) (hj : s.laneJob n = some j) {i : Fin 4}
    (h : s.jobAt n i) : i = j.slot := by
  obtain ⟨a, ha, hlane, rfl⟩ := h
  rw [State.laneJob_unique hq hj ha hlane]

theorem State.not_jobAt_of_laneJob {s : State} {n : Lane} (hj : s.laneJob n = none) (i : Fin 4) : ¬s.jobAt n i := by
  rintro ⟨a, ha, hlane, _⟩
  exact List.find?_eq_none.1 hj a ha (by simpa using hlane)

/-- A queued job replaced by another of its lane: the lanes of the queue stay. -/
theorem State.lanes_replace (n : Lane) (job : Job) (hn : job.lane = n) (l : List Job) :
    (l.map fun k => if k.lane = n then job else k).map (·.lane) = l.map (·.lane) := by
  rw [List.map_map]
  refine List.map_congr_left fun k _ => ?_
  show (if k.lane = n then job else k).lane = k.lane
  split
  · exact hn.trans (Eq.symm ‹_›)
  · rfl

theorem State.queueOk_enqueued {s t : State} {n : Lane} {slot : Fin 4} {number : Nat} (h : s.queueOk)
    (ht : t.jobs = (s.enqueued n slot number).2) : t.queueOk := by
  obtain ⟨hnodup, htail⟩ := h
  rw [State.queueOk, ht]
  unfold State.enqueued
  cases hj : s.laneJob n with
  | none =>
    refine ⟨?_, fun a ha => ?_⟩
    · rw [List.map_append, List.map_singleton]
      refine List.nodup_append.2 ⟨hnodup, List.pairwise_singleton _ n, fun a ha b hb hab => ?_⟩
      obtain ⟨j, hmem, rfl⟩ := List.mem_map.1 ha
      rw [List.mem_singleton] at hb
      exact List.find?_eq_none.1 hj j hmem (by simpa using hab.trans hb)
    · simp only [List.drop_append, List.mem_append] at ha
      rcases ha with ha | ha
      · exact htail a ha
      · obtain rfl := List.mem_singleton.1 (List.mem_of_mem_drop ha)
        rfl
  | some j =>
    simp only
    split
    · exact ⟨hnodup, htail⟩
    · refine ⟨?_, fun a ha => ?_⟩
      · simp only [State.lanes_replace n ⟨n, slot, number, none⟩ rfl]
        exact hnodup
      · rw [← List.map_drop] at ha
        obtain ⟨k, hk, rfl⟩ := List.mem_map.1 ha
        split
        · rfl
        · exact htail k hk

theorem State.jobAt_enqueued_other {s t : State} {n : Lane} {slot : Fin 4} {number : Nat}
    (ht : t.jobs = (s.enqueued n slot number).2) {k : Lane} (hk : k ≠ n) {i : Fin 4} (h : s.jobAt k i) : t.jobAt k i := by
  refine State.jobAt_of_map h fun a ha hak => ⟨a, ?_, rfl, rfl⟩
  rw [ht]
  unfold State.enqueued
  cases s.laneJob n with
  | none => exact List.mem_append_left _ ha
  | some j =>
    simp only
    split
    · exact ha
    · exact List.mem_map.2 ⟨a, ha, if_neg (hak ▸ hk)⟩

/-- The ring of a lane whose frame enters the engine (R50). -/
theorem State.sound_enqueued {s t : State} {n : Lane} {p : PendingCommit} {number : Nat} (hq : s.queueOk)
    (h : (s.lane n).store.Sound (s.lane n).framed (s.jobAt n)) (hp : (s.lane n).store.pendingCommit = some p)
    (ht : t.jobs = (s.enqueued n p.slot number).2) :
    (s.enqueued n p.slot number).1.Sound (s.lane n).framed (t.jobAt n)
      ∧ ∀ i, (s.enqueued n p.slot number).1.roleOf i ≠ some .filling := by
  have jobAt (i : Fin 4) : t.jobAt n i ↔ ∃ j ∈ (s.enqueued n p.slot number).2, j.lane = n ∧ j.slot = i := by
    rw [State.jobAt, ht]
  simp only [funext fun i => propext (jobAt i)]
  unfold State.enqueued
  have moved_nofill (st : LaneStore) (hst : ∀ i, st.roleOf i = some .filling → i = p.slot) (i : Fin 4) :
      (st.move p.slot .conditioning).roleOf i ≠ some .filling := fun hi => by
    rw [LaneStore.roleOf_move] at hi
    split at hi
    · obtain ⟨_, _, hr⟩ := Option.map_eq_some_iff.1 hi
      cases hr
    · exact absurd (hst i hi) ‹_›
  cases hj : s.laneJob n with
  | none =>
    have nojob (i : Fin 4) : (s.lane n).store.roleOf i ≠ some .conditioning := fun hi =>
      State.not_jobAt_of_laneJob hj i (h.conditioning i hi)
    exact ⟨h.move _ (by decide) nojob (fun _ => ⟨_, List.mem_append_right _ (List.mem_singleton_self _), rfl, rfl⟩)
      fun k _ hk => absurd hk (nojob k), moved_nofill _ fun i hi => h.filling_pending hp hi⟩
  | some j =>
    simp only
    split
    · refine ⟨h.free _, fun i hi => ?_⟩
      rw [LaneStore.roleOf_free] at hi
      split at hi
      · cases hi
      · exact absurd (h.filling_pending hp hi) ‹_›
    · have nojob (i : Fin 4) : ((s.lane n).store.free j.slot).roleOf i ≠ some .conditioning := fun hi => by
        rw [LaneStore.roleOf_free] at hi
        split at hi
        · cases hi
        · exact absurd (State.jobAt_of_laneJob hq hj (h.conditioning i hi)) ‹_›
      refine ⟨(h.free j.slot).move _ (by decide) nojob (fun _ => ?_) fun k _ hk => absurd hk (nojob k),
        moved_nofill _ fun i hi => h.filling_pending hp ?_⟩
      · have hjn : j.lane = n := by simpa using List.find?_some hj
        exact ⟨_, List.mem_map.2 ⟨j, List.mem_of_find?_eq_some hj, if_pos hjn⟩, rfl, rfl⟩
      · rw [LaneStore.roleOf_free] at hi
        split at hi
        · cases hi
        · exact hi

theorem State.enqueued_dropCommit (n : Lane) (slot : Fin 4) (number : Nat) (s : State) :
    (s.modStore n fun st => { st with pendingCommit := none }).enqueued n slot number
      = ({ (s.enqueued n slot number).1 with pendingCommit := none }, (s.enqueued n slot number).2) := by
  have hjob : (s.modStore n fun st => { st with pendingCommit := none }).laneJob n = s.laneJob n := rfl
  unfold State.enqueued
  rw [hjob]
  cases s.laneJob n with
  | none => simp [LaneStore.move]
  | some j =>
    simp only
    split
    · simp [LaneStore.free]
    · simp [LaneStore.free, LaneStore.move]

theorem State.buffer_enqueued (n : Lane) (slot : Fin 4) (number : Nat) (s : State) :
    (s.enqueued n slot number).1.buffer = (s.lane n).store.buffer := by
  unfold State.enqueued
  cases s.laneJob n with
  | none => rfl
  | some j =>
    simp only
    split <;> rfl

/-- A commit keeps all the invariants (R49, R50). -/
theorem State.keepAll_commit {s : State} {n : Lane} {p : PendingCommit} (hp : (s.lane n).store.pendingCommit = some p) :
    s.KeepAll (s.commit n p) := by
  have freed : (s.modStore n fun st => { st with pendingCommit := none }).modStore n (LaneStore.free p.slot)
      = s.modStore n fun st => { st.free p.slot with pendingCommit := none } := State.modLane_modLane n _ _ s
  unfold State.commit
  refine State.Keep.startJobs ?_
  cases p.openedIn with
  | acquiring =>
    refine State.keep_freed hp ?_
    rw [freed]
    exact State.same_modDust _ n _
  | locked =>
    simp only
    split
    · refine State.keep_freed hp ?_
      rw [freed]
      exact (State.same_modDust _ n _).trans (State.same_modCounters _ n _)
    · obtain ⟨number, store, jobs, framed, others⟩ := State.enqueue_of n p.slot
        (s.modStore n fun st => { st with pendingCommit := none })
      rw [State.enqueued_dropCommit] at store jobs
      refine State.keep_performDeferred (st := (s.enqueued n p.slot number).1) (fun k hk => ?_) ?_ store
        (State.buffer_enqueued n p.slot number s) (fun k hk i h => State.jobAt_enqueued_other jobs hk h)
        (fun hq => State.queueOk_enqueued hq jobs) fun hq hr => State.sound_enqueued hq hr hp jobs
      · rw [others k hk, State.modStore, State.lane_modLane_other _ s hk]
        exact .refl _
      · rw [framed, LaneBlocks.framed, LaneBlocks.framed]
        simp

theorem State.keepAll_commitIfDrained (n : Lane) (s : State) : s.KeepAll (s.commitIfDrained n) := by
  unfold State.commitIfDrained
  split
  · split
    · exact State.keepAll_commit ‹_›
    · exact .refl s
  · exact .refl s

end Sys2Proof.Machine

/-! SUPPORT. The Lane Receiver, the lane down and the output frame start keep the write buffers, the job queue and the
slot rings in order (R44, R48, R63). -/

namespace Sys2Proof.Machine

/-! ### The close of a frame -/

theorem State.opening_runJobs (n : Lane) (fuel : Nat) (s : State) :
    ((s.runJobs fuel).lane n).store.opening = (s.lane n).store.opening := by
  have complete (st : LaneStore) (i : Fin 4) (c : Conditioned) : (st.complete i c).opening = st.opening := by
    unfold LaneStore.complete
    rw [LaneStore.freeRole_eq]
    rfl
  have completed (s : State) : (s.completeJob.lane n).store.opening = (s.lane n).store.opening := by
    cases hs : s.jobs with
    | nil => rw [State.completeJob, hs]
    | cons j rest =>
      cases hrun : j.run with
      | none => simp only [State.completeJob, hs, hrun]
      | some run =>
        obtain ⟨f, hf⟩ := State.completeJob_of hs hrun
        rw [hf, ((State.same_purgeEvent _ _ f).lanes n).store]
        show ((s.modLane j.lane _).lane n).store.opening = _
        by_cases hn : n = j.lane
        · subst hn
          rw [State.lane_modLane_same]
          exact complete _ _ _
        · rw [State.lane_modLane_other _ s hn]
  have begun (s : State) (j : Job) : ((s.beginJob j).lane n).store.opening = (s.lane n).store.opening :=
    congrArg LaneStore.opening ((s.same_modMotion j.lane _).lanes n).store
  induction fuel generalizing s with
  | zero => rfl
  | succ fuel ih =>
    unfold State.runJobs
    split
    · rfl
    · split
      · rfl
      · simp only
        split
        · exact begun s _
        · rw [ih, completed, begun]

/-- A commit leaves a closed opening closed. -/
theorem State.closed_commit {n : Lane} {p : PendingCommit} {s : State} (h : (s.lane n).store.opening = .closed) :
    ((s.commit n p).lane n).store.opening = .closed := by
  have deferred (st : LaneStore) (hst : st.opening = .closed) : st.performDeferred.opening = .closed := by
    unfold LaneStore.performDeferred
    split
    · rename_i ho
      rw [hst] at ho
      cases ho
    · exact hst
  have done (t : State) (ht : (t.lane n).store.opening = .closed) :
      ((t.modStore n LaneStore.performDeferred).startJobs.lane n).store.opening = .closed := by
    rw [State.startJobs, State.opening_runJobs]
    simpa using deferred _ ht
  unfold State.commit
  refine done _ ?_
  cases p.openedIn with
  | acquiring => simpa [LaneStore.free] using h
  | locked =>
    simp only
    split
    · simpa [LaneStore.free, State.countDiscarded, State.modCounters] using h
    · obtain ⟨number, store, _⟩ := State.enqueue_of n p.slot (s.modStore n fun st => { st with pendingCommit := none })
      rw [store, State.enqueued_dropCommit]
      show (s.enqueued n p.slot number).1.opening = .closed
      unfold State.enqueued
      cases s.laneJob n with
      | none => exact h
      | some j =>
        simp only
        split <;> exact h

theorem State.closed_storeClose (n : Lane) (damaged dmax : Nat) (o : OpenedIn) (s : State) :
    ((s.storeClose n damaged dmax o).lane n).store.opening = .closed := by
  unfold State.storeClose
  split
  · rename_i slot _
    have marked : (((s.modDust n Dust.closeGathering).modStore n
        (LaneStore.markPending ⟨slot, damaged, dmax, o⟩)).lane n).store.opening = .closed := by
      simp [LaneStore.markPending]
    unfold State.commitIfDrained
    split
    · split
      · exact State.closed_commit marked
      · exact marked
    · exact marked
  · assumption
  · unfold State.closeUnstored
    cases o with
    | acquiring => simp [LaneStore.dropLines]
    | locked => simp [LaneStore.dropLines, State.countDiscarded, State.modCounters]

theorem State.keepAll_closeUnstored {n : Lane} (o : OpenedIn) {s : State}
    (unstored : ∀ i : Fin 4, (s.lane n).store.opening ≠ .stored i) : s.KeepAll (s.closeUnstored n o) := by
  have dropped : s.KeepAll (((s.discardHead n).modStore n fun st =>
      LaneStore.dropLines .current { st with opening := .closed }).modDust n Dust.dropGathering) := by
    refine .trans (.of_same (s.same_discardHead n)) (.trans (.modStore _ n (fun hb => ?_) fun hr => ?_)
      (.of_same (State.same_modDust _ n _)))
    · exact Nat.le_trans (List.length_filter_le ..) hb
    · refine hr.closeUnstored _ ?_
      rwa [((s.same_discardHead n).lanes n).store]
  unfold State.closeUnstored
  cases o with
  | acquiring => exact dropped
  | locked => exact dropped.trans (.of_same (State.same_modCounters _ n _))

theorem State.keepAll_storeClose (n : Lane) (damaged dmax : Nat) (o : OpenedIn) (s : State) :
    s.KeepAll (s.storeClose n damaged dmax o) := by
  unfold State.storeClose
  split
  · rename_i slot ho
    refine .trans (.of_same (s.same_modDust n _)) (.trans (.modStore _ n (fun hb => ?_) fun hr => ?_)
      (State.keepAll_commitIfDrained n _))
    · exact Nat.le_trans (Nat.le_of_eq (List.length_map ..)) hb
    · refine hr.markPending _ ?_
      rwa [((s.same_modDust n Dust.closeGathering).lanes n).store]
  · exact .refl s
  · refine State.keepAll_closeUnstored o fun i hi => ?_
    rename_i hstored _
    exact hstored i hi

/-! ### The lane down, release and output frame start -/

/-- A lane down, whatever the Lane Receiver has become. -/
theorem State.keepAll_deliverLaneDown {s t : State} {n : Lane} (jobs : t.jobs = s.jobs)
    (store : (t.lane n).store = (s.lane n).store) (others : ∀ k, k ≠ n → (s.lane k).SameStore (t.lane k)) :
    s.KeepAll (t.deliverLaneDown n) := by
  rw [State.deliverLaneDown_eq]
  refine State.Keep.startJobs (.trans ?_ (State.KeepAll.of_same (State.same_offerAll _ _)).toKeep)
  have downJobs : (t.down n).jobs = s.jobs.filter fun j => j.lane ≠ n := jobs ▸ rfl
  have here : ((t.down n).lane n).store = (s.lane n).store.laneDown := by
    rw [← store]
    exact congrArg LaneBlocks.store (Four.get_modify_same t.lanes n _)
  refine .change n (fun k hk => ?_) (fun k hk i h => ?_) (fun _ => ?_) (fun ⟨hnodup, htail⟩ => ?_) fun _ hr => ?_
  · rw [State.lane_down_other t hk]
    exact others k hk
  · refine State.jobAt_of_map h fun a ha hak => ⟨a, ?_, rfl, rfl⟩
    rw [downJobs]
    exact List.mem_filter.2 ⟨ha, by simpa [hak] using hk⟩
  · rw [here]
    exact Nat.zero_le _
  · rw [State.queueOk, downJobs]
    refine ⟨hnodup.sublist (List.filter_sublist.map _), fun a ha => htail a ?_⟩
    cases hs : s.jobs with
    | nil => simp [hs] at ha
    | cons j rest =>
      rw [hs, List.filter_cons] at ha
      split at ha
      · exact (List.mem_filter.1 ha).1
      · exact (List.mem_filter.1 (List.mem_of_mem_drop ha)).1
  · rw [here]
    exact hr.laneDown _ _

theorem State.keepAll_storeRelease (n : Lane) (s : State) : s.KeepAll (s.storeRelease n) := by
  refine .trans (.modStore s n (fun hb => ?_) fun hr => hr.release) (.of_same (.of_eq rfl rfl))
  rwa [LaneStore.bufferOk, LaneStore.release_eq]

theorem LaneStore.buffer_display (st : LaneStore) : st.display.buffer = st.buffer := by
  unfold LaneStore.display
  split
  · rw [LaneStore.freeRole_eq]
    rfl
  · rfl

theorem State.jobs_startFrame (d : Option Lane) (s : State) : (s.startFrame d).jobs = s.jobs := by
  rw [State.startFrame_eq]
  rfl

theorem State.keepAll_startFrame (d : Option Lane) (s : State) : s.KeepAll (s.startFrame d) := by
  have jobs := State.jobs_startFrame d s
  have store (n : Lane) : ((s.startFrame d).lane n).store = (s.lane n).store.display :=
    congrArg LaneBlocks.store (State.startFrame_lane ..)
  have framed (n : Lane) : ((s.startFrame d).lane n).framed ↔ (s.lane n).framed := by
    rw [State.startFrame_lane]
    rfl
  refine ⟨⟨fun hb n => ?_, fun hq => by rwa [State.queueOk, jobs], fun _ hr n => ?_⟩, fun hh => by
    rwa [State.headRuns, jobs]⟩
  · rw [store, LaneStore.bufferOk, LaneStore.buffer_display]
    exact hb n
  · rw [store, State.jobAt_congr jobs]
    exact (hr n).display.mono (framed n).2 fun _ _ h => h

theorem State.keepAll_checkMaster (n : Lane) (s : State) : s.KeepAll (s.checkMaster n) := by
  have lost : s.SameStore (s.modTiming fun t => t.lose.loseWatch) := .of_eq rfl rfl
  unfold State.checkMaster
  split
  · simp only
    split
    · exact .trans (.of_same (lost.trans (State.same_offer _ _))) (State.keepAll_startFrame _ _)
    · exact .of_same (lost.trans (State.same_offer _ _))
  · exact .refl s

theorem State.keepAll_lineToTiming (n : Lane) (line frame : Nat) (s : State) :
    s.KeepAll (s.lineToTiming n line frame) := by
  have timed (t : State) (f : Timing → Timing) : t.SameStore (t.modTiming f) := .of_eq rfl rfl
  unfold State.lineToTiming
  split
  · simp only
    split
    · exact .trans (.of_same ((timed s _).trans (timed _ _))) (State.keepAll_startFrame _ _)
    · exact .of_same (timed s _)
  · exact .refl s

/-! ### Down entry, channel restart, disable, entry to a test mode -/

/-- A Lane Receiver that leaves its state with its lane down, and what else the event does to other parts. -/
theorem State.keepAll_leave {s t : State} {n : Lane} (f : Receiver → Receiver) (h : (s.modRx n f).SameStore t) :
    s.KeepAll (t.deliverLaneDown n) := by
  refine State.keepAll_deliverLaneDown h.jobs ?_ fun k hk => ?_
  · rw [(h.lanes n).store]
    simp
  · have := h.lanes k
    rwa [State.modRx, State.lane_modLane_other _ s hk] at this

theorem State.keepAll_downEntry (n : Lane) (c : DownCause) (s : State) : s.KeepAll (s.downEntry n c) := by
  unfold State.downEntry
  refine .trans (State.keepAll_leave (Receiver.goDown c s.now) ?_) (State.keepAll_checkMaster n _)
  exact (State.same_raiseDown _ n _).trans (State.same_offer _ _)

theorem State.keepAll_faultyPacket (n : Lane) (s : State) : s.KeepAll (s.faultyPacket n) := by
  have counted : s.KeepAll (s.modRx n fun r => { r with health := satAdd 32 r.health 1 }) :=
    .of_same (s.same_modRx n fun _ => ⟨rfl, rfl⟩)
  unfold State.faultyPacket
  simp only
  split
  · exact counted.trans (State.keepAll_downEntry n _ _)
  · exact counted

theorem State.keepAll_channelRestart (n : Lane) (c : LaneCause) (o : Origin) (s : State) :
    s.KeepAll (s.channelRestart n c o) := by
  unfold State.channelRestart
  refine .trans (State.keepAll_leave Receiver.toSearching ?_) (State.keepAll_checkMaster n _)
  split
  · exact .refl _
  · exact State.same_offer _ _

theorem State.keepAll_rearmRestart (n : Lane) (o : Origin) (s : State) : s.KeepAll (s.rearmRestart n o) := by
  unfold State.rearmRestart
  refine .trans (State.keepAll_leave (fun r => { r.toSearching with attempts := 0 }) ?_) (State.keepAll_checkMaster n _)
  split
  · exact .refl _
  · exact State.same_offer _ _

theorem State.keepAll_disable (n : Lane) (o : Origin) (s : State) : s.KeepAll (s.disable n o) := by
  unfold State.disable
  exact .trans (.trans (State.keepAll_leave Receiver.toOff (State.same_offer _ _)) (State.keepAll_storeRelease n _))
    (State.keepAll_checkMaster n _)

theorem State.keepAll_enable (n : Lane) (o : Origin) (s : State) : s.KeepAll (s.enable n o) := by
  unfold State.enable
  refine .of_same (.trans (s.same_modRx n ?_) (State.same_offer _ _))
  exact fun _ => ⟨rfl, rfl⟩

theorem State.keepAll_enterMode (n : Lane) (mode : LaneMode) (s : State) : s.KeepAll (s.enterMode n mode) := by
  unfold State.enterMode
  exact .trans (.trans (State.keepAll_leave (Receiver.enterMode mode) (State.same_modTest _ n _))
    (State.keepAll_storeRelease n _)) (State.keepAll_checkMaster n _)

theorem State.keepAll_returnToNormal (n : Lane) (o : Origin) (s : State) : s.KeepAll (s.returnToNormal n o) := by
  have moded : s.KeepAll (s.modRx n fun r => { r with mode := .normal }) :=
    .modLane s n id fun hr => hr.mono (fun hf => ⟨hf.1, by simp⟩) fun _ _ h => h
  have stopped := moded.trans (.of_same (State.same_modTest _ n fun t => { t.stopGenerator with injectPending := false }))
  unfold State.returnToNormal
  simp only
  split
  · exact stopped
  · exact stopped.trans (State.keepAll_channelRestart n _ _ _)

theorem State.keepAll_setLaneMode (n : Lane) (mode : LaneMode) (pattern : Pattern) (o : Origin) (s : State) :
    s.KeepAll (s.setLaneMode n mode pattern o) := by
  have patterned : s.KeepAll (s.modTest n fun t => { t with pattern := pattern }) := .of_same (s.same_modTest n _)
  unfold State.setLaneMode
  simp only
  split
  · split
    · exact patterned
    · exact patterned.trans (.of_same (State.same_modTest _ n _))
  · split
    · exact patterned.trans (State.keepAll_returnToNormal n _ _)
    · exact patterned.trans (State.keepAll_enterMode n _ _)

end Sys2Proof.Machine

/-! SUPPORT. Every packet keeps the write buffers, the job queue and the slot rings in order (R44, R48, R63). -/

namespace Sys2Proof.Machine

/-! ### A Lane Receiver after a down entry -/

theorem State.rx_checkMaster (n k : Lane) (s : State) : ((s.checkMaster n).lane k).rx = (s.lane k).rx := by
  unfold State.checkMaster
  split
  · simp only
    split
    · rw [State.startFrame_lane, State.offer_eq]
      rfl
    · rw [State.offer_eq]
      rfl
  · rfl

theorem State.judged_downEntry (n : Lane) (c : DownCause) (s : State) :
    ((s.downEntry n c).lane n).rx.judged = ((s.lane n).rx.goDown c s.now).judged := by
  have keeps := keeps_judged n ((s.lane n).rx.goDown c s.now).judged
  unfold State.downEntry
  rw [State.rx_checkMaster]
  refine keeps.deliverLaneDown n (keeps.offer _ (keeps.raiseDown n _ ?_))
  rw [lane_modRx_rx]

theorem State.openFrame_downEntry (n : Lane) (c : DownCause) (s : State) :
    ((s.downEntry n c).lane n).rx.openFrame = none :=
  congrArg Receiver.openFrame (State.judged_downEntry n c s)

/-- A fault short of the 32nd only counts (R13). -/
theorem State.faultyPacket_of_short {s : State} {n : Lane} (h : (s.lane n).rx.health + 1 < 32) :
    s.faultyPacket n = s.modRx n fun r => { r with health := satAdd 32 r.health 1 } := by
  unfold State.faultyPacket
  refine if_neg ?_
  rw [lane_modRx_rx]
  show ¬(min 32 ((s.lane n).rx.health + 1) = 32)
  omega

theorem State.openFrame_faultyPacket {s : State} {n : Lane} (h : (s.lane n).rx.openFrame = none) :
    ((s.faultyPacket n).lane n).rx.openFrame = none := by
  unfold State.faultyPacket
  simp only
  split
  · exact State.openFrame_downEntry ..
  · rw [lane_modRx_rx]
    exact h

/-! ### Damaged lines -/

theorem LaneStore.buffer_enterDamaged (line : Nat) (st : LaneStore) : (st.enterDamaged line).buffer = st.buffer := by
  unfold LaneStore.enterDamaged
  split <;> rfl

theorem State.keepAll_addDamaged (n : Lane) (line : Nat) (s : State) : s.KeepAll (s.addDamaged n line) := by
  have counted : s.KeepAll (s.modRx n fun r => { r with
      damagedCount := r.damagedCount + 1
      counters := { r.counters with damagedLines := count r.counters.damagedLines 1 } }) :=
    .of_same (s.same_modRx n fun _ => ⟨rfl, rfl⟩)
  unfold State.addDamaged
  simp only
  split
  · refine counted.trans (.modStore _ n (fun hb => ?_) fun hr => hr.enterDamaged line)
    rwa [LaneStore.bufferOk, LaneStore.buffer_enterDamaged]
  · exact counted

theorem State.keepAll_addDamagedRun (n : Lane) (first k : Nat) (s : State) : s.KeepAll (s.addDamagedRun n first k) := by
  unfold State.addDamagedRun
  induction List.range k generalizing s with
  | nil => exact .refl s
  | cons a l ih => exact (State.keepAll_addDamaged n _ s).trans (ih _)

theorem State.keepAll_countPayload (n : Lane) (line : Nat) (f : PayloadFate) (s : State) :
    s.KeepAll (s.countPayload n line f) := by
  unfold State.countPayload
  cases f with
  | bad => exact (State.keepAll_addDamaged n line s).trans (.of_same (State.same_modCounters _ n _))
  | lost => exact (State.keepAll_addDamaged n line s).trans (.of_same (State.same_modCounters _ n _))
  | kept => exact .refl s

/-! ### FRAME_START -/

theorem LaneStore.buffer_openFrame (number : Nat) (g : Geometry) (st : LaneStore) :
    (st.openFrame number g).buffer = st.buffer := by
  unfold LaneStore.openFrame
  split
  · rfl
  · exact LaneStore.buffer_give ..

/-- A frame opens where none is open (R6, R47). -/
theorem State.keepAll_openFrame {s : State} {n : Lane} (number : Nat) (g : Geometry)
    (closed : (s.lane n).rx.openFrame = none) : s.KeepAll (s.openFrame n number g) := by
  unfold State.openFrame
  simp only
  split
  · rename_i hmode
    have hmode : (s.lane n).rx.mode ≠ .check := by
      rw [lane_modRx_rx] at hmode
      intro hcheck
      rw [show (Receiver.openAs number (s.lane n).rx).mode = .check from hcheck] at hmode
      cases hmode
    refine .trans ?_ (.of_same (State.same_modDust _ n _))
    unfold State.modStore State.modRx
    rw [State.modLane_modLane]
    refine .modLane s n (fun hb => ?_) fun hr => hr.openFrame number g ?_ ⟨rfl, hmode⟩
    · rwa [LaneStore.bufferOk, LaneStore.buffer_openFrame]
    · refine Classical.byContradiction fun hne => ?_
      have framed := (hr.frame hne).1
      rw [closed] at framed
      cases framed
  · exact .modLane s n id fun hr => hr.mono (fun hf => ⟨rfl, hf.2⟩) fun _ _ h => h

theorem LaneStore.length_abandon (st : LaneStore) : st.abandon.buffer.length ≤ st.buffer.length := by
  unfold LaneStore.abandon LaneStore.dropLines
  split <;> exact List.length_filter_le ..

theorem State.keepAll_overtake (n : Lane) (s : State) : s.KeepAll (s.overtake n) := by
  have discarded (t : State) : t.SameStore (t.discardHead n) := t.same_discardHead n
  unfold State.overtake State.storeAbandon
  refine .trans (.trans (.trans (t := ((s.modRx n fun r => { r with
    openFrame := none, cleanFrames := 0, lockedRun := 0 }).discardHead n).modStore n LaneStore.abandon) ?_
    (.of_same (State.same_modDust _ n _))) (.of_same (State.same_modCounters _ n _)))
    (.of_same (State.same_modCounters _ n _))
  have same := discarded (s.modRx n fun r => { r with openFrame := none, cleanFrames := 0, lockedRun := 0 })
  have here := (same.lanes n).store
  simp only [State.lane_modRx_same] at here
  refine ⟨.change n (fun k hk => ?_) (fun k _ i h => ?_) (fun hb => ?_) (fun hq => ?_) fun _ hr => ?_, fun hh => ?_⟩
  · have other := same.lanes k
    rw [State.modRx, State.lane_modLane_other _ s hk] at other
    rwa [State.modStore, State.lane_modLane_other _ _ hk]
  · rwa [State.jobAt_congr (t := State.modStore n LaneStore.abandon _) same.jobs]
  · rw [State.modStore, State.lane_modLane_same]
    exact Nat.le_trans (LaneStore.length_abandon _)
      (Nat.le_trans (Nat.le_of_eq (congrArg (fun st => st.buffer.length) here)) hb)
  · rw [State.queueOk, show (State.modStore n LaneStore.abandon _).jobs = s.jobs from same.jobs]
    exact hq
  · rw [State.jobAt_congr (t := State.modStore n LaneStore.abandon _) same.jobs, State.modStore,
      State.lane_modLane_same]
    show LaneStore.Sound _ _ (LaneStore.abandon _)
    rw [here]
    exact hr.abandon _
  · rw [State.headRuns, show (State.modStore n LaneStore.abandon _).jobs = s.jobs from same.jobs]
    exact hh

theorem State.openFrame_overtake (n : Lane) (s : State) : ((s.overtake n).lane n).rx.openFrame = none := by
  have keeps := keeps_judged n ({ (s.lane n).rx with openFrame := none, cleanFrames := 0, lockedRun := 0 } : Receiver).judged
  have h : ((s.overtake n).lane n).rx.judged = _ := keeps.counters n _ (keeps.storeAbandon n (by rw [lane_modRx_rx]))
  exact congrArg Receiver.openFrame h

/-- A FRAME_START once an open frame has been overtaken: the fault, and the new frame. -/
theorem State.keepAll_startJudged {s : State} {n : Lane} (number : Nat) (g : Geometry) (misnumbered faulty : Bool)
    (closed : (s.lane n).rx.openFrame = none) :
    let t := if misnumbered then s.countFrameNumber n else s
    let u := if faulty then t.faultyPacket n else t
    s.KeepAll (if (u.lane n).rx.state.receiving then u.openFrame n number g else u) := by
  intro t u
  have counted : s.SameStore t := by
    unfold t
    split
    · exact s.same_modCounters n _
    · exact .refl s
  have closedT : (t.lane n).rx.openFrame = none := (counted.lanes n).frame.trans closed
  have keptU : s.KeepAll u := (State.KeepAll.of_same counted).trans (.ite (fun _ => State.keepAll_faultyPacket n t)
    fun _ => .refl t)
  have closedU : (u.lane n).rx.openFrame = none := by
    unfold u
    split
    · exact State.openFrame_faultyPacket closedT
    · exact closedT
  exact .ite (fun _ => keptU.trans (State.keepAll_openFrame number g closedU)) fun _ => keptU

theorem State.keepAll_takeFrameStart (n : Lane) (number : Nat) (g : Geometry) (s : State) :
    s.KeepAll (s.takeFrameStart n number g) := by
  unfold State.takeFrameStart
  refine .trans (t := if (s.lane n).rx.openFrame.isSome then s.overtake n else s) ?_
    (State.keepAll_startJudged number g _ _ ?_)
  · exact .ite (fun _ => State.keepAll_overtake n s) fun _ => .refl s
  · split
    · exact State.openFrame_overtake n s
    · rename_i hopen
      exact Option.not_isSome_iff_eq_none.1 hopen

theorem State.keepAll_counters (n : Lane) (f : LaneCounters → LaneCounters) (s : State) : s.KeepAll (s.modCounters n f) :=
  .of_same (s.same_modCounters n f)

theorem State.keepAll_frameStart (n : Lane) (number : Nat) (g : Geometry) (s : State) :
    s.KeepAll (s.frameStart n number g) :=
  .ite (fun _ => State.keepAll_takeFrameStart n number g s) fun _ =>
    (State.keepAll_counters n _ s).trans (State.keepAll_faultyPacket n _)

theorem State.keepAll_searchFrameStart (n : Lane) (number : Nat) (g : Geometry) (s : State) :
    s.KeepAll (s.searchFrameStart n number g) := by
  unfold State.searchFrameStart
  refine .ite (fun _ => .refl s) fun _ => .ite (fun _ => ?_) fun _ => State.keepAll_counters n _ s
  refine .trans (.of_same (.trans (s.same_modRx n ?_) (State.same_offer _ _))) (State.keepAll_takeFrameStart n number g _)
  exact fun _ => ⟨rfl, rfl⟩

/-! ### LINE -/

/-- A line enters a buffer that has room (R48). -/
theorem State.keepAll_storeLine {s : State} {n : Lane} (line : Nat) (payload : List Byte)
    (room : (s.lane n).store.buffer.length < 2) : s.KeepAll (s.storeLine n line payload) := by
  refine .trans (.modStore s n (fun _ => ?_) fun hr => hr.enter line payload) (.of_same (State.same_modDust _ n _))
  refine Nat.le_trans (LaneStore.length_trimUnstored _) ?_
  simp only [List.length_append, List.length_singleton]
  omega

theorem State.keepAll_keepPayload {s : State} {n : Lane} {p : Packet} (clean : Bool) {f : PayloadFate}
    (room : f = .kept → (s.lane n).rx.mode.stores = true → (s.lane n).store.buffer.length < 2) :
    s.KeepAll (s.keepPayload n p clean f) := by
  cases f with
  | bad => exact .refl s
  | lost => exact .refl s
  | kept =>
    refine .ite (fun h => State.keepAll_storeLine _ _ (room rfl h)) fun _ => ?_
    exact .ite (fun _ => .of_same (s.same_modTest n _)) fun _ => .refl s

theorem LaneBlocks.room_of_kept {l : LaneBlocks} {p : Packet} (h : l.payloadFate p = .kept)
    (hmode : l.rx.mode.stores = true) : l.store.buffer.length < 2 := by
  unfold LaneBlocks.payloadFate at h
  split at h
  · cases h
  · split at h
    · cases h
    · rename_i hfull
      simpa [hmode, LaneStore.full] using hfull

theorem State.keepAll_takeLine (n : Lane) (p : Packet) (ahead : Bool) (s : State) : s.KeepAll (s.takeLine n p ahead) := by
  unfold State.takeLine
  simp only
  generalize (s.lane n).rx.measurePeriod p.word1 s.now = o
  generalize hf : (s.lane n).payloadFate p = f
  have counted : s.KeepAll ((s.countPeriod n o.outOfTolerance).countPayload n p.word1 f) :=
    .trans (.of_same (s.same_countPeriod n _)) (State.keepAll_countPayload n _ _ _)
  refine .ite (fun _ => counted.trans (State.keepAll_faultyPacket n _)) fun hshort => ?_
  have sameKept : f = .kept → s.SameStore ((s.countPeriod n o.outOfTolerance).countPayload n p.word1 f) := fun h => by
    rw [h]
    exact s.same_countPeriod n _
  have health : (((s.countPeriod n o.outOfTolerance).countPayload n p.word1 f).lane n).rx.health
      = (s.lane n).rx.health := by
    have keeps := keeps_judged n (s.lane n).rx.judged
    exact (congrArg Receiver.health (keeps.countPayload n p.word1 f (keeps.countPeriod n _ rfl)) :)
  generalize (s.countPeriod n o.outOfTolerance).countPayload n p.word1 f = t at *
  have passed : t.SameStore (t.modRx n (Receiver.passLine p.word1 s.now o)) := t.same_modRx n fun _ => ⟨rfl, rfl⟩
  generalize hfault : (o.outOfTolerance || f != .kept) = fault at *
  have faulted : t.SameStore (if (fault && !ahead) = true then
      (t.modRx n (Receiver.passLine p.word1 s.now o)).faultyPacket n
      else t.modRx n (Receiver.passLine p.word1 s.now o)) := by
    split
    · rename_i hnow
      have short : ((t.modRx n (Receiver.passLine p.word1 s.now o)).lane n).rx.health + 1 < 32 := by
        rw [lane_modRx_rx]
        show (t.lane n).rx.health + 1 < 32
        rw [health]
        simp only [hnow, Bool.true_and, decide_eq_true_eq] at hshort
        omega
      rw [State.faultyPacket_of_short short]
      exact passed.trans (State.same_modRx _ n fun _ => ⟨rfl, rfl⟩)
    · exact passed
  generalize (if (fault && !ahead) = true then (t.modRx n (Receiver.passLine p.word1 s.now o)).faultyPacket n
    else t.modRx n (Receiver.passLine p.word1 s.now o)) = u at *
  have relieved : t.SameStore (if (!fault && !ahead) = true then u.modRx n fun r => { r with health := r.health - 1 }
      else u) := by
    split
    · exact faulted.trans (u.same_modRx n fun _ => ⟨rfl, rfl⟩)
    · exact faulted
  generalize (if (!fault && !ahead) = true then u.modRx n fun r => { r with health := r.health - 1 } else u) = v at *
  refine .trans (.trans (counted.trans (.of_same relieved)) (State.keepAll_keepPayload _ fun hkept hmode => ?_))
    (State.keepAll_lineToTiming n _ _ _)
  have same := ((sameKept hkept).trans relieved).lanes n
  rw [same.mode] at hmode
  rw [same.store]
  exact LaneBlocks.room_of_kept (hf.trans hkept) hmode

theorem State.keepAll_line (n : Lane) (p : Packet) (s : State) : s.KeepAll (s.line n p) := by
  have ignored (f : LaneCounters → LaneCounters) : s.KeepAll ((s.modCounters n f).faultyPacket n) :=
    (State.keepAll_counters n f s).trans (State.keepAll_faultyPacket n _)
  unfold State.line
  simp only
  split
  · exact ignored _
  · refine .ite (fun _ => ignored _) fun _ => .ite (fun _ => ignored _) fun _ => .ite (fun _ => ignored _) fun _ =>
      .ite (fun _ => State.keepAll_takeLine n p false s) fun _ => ?_
    have passed := ((State.keepAll_addDamagedRun n (s.lane n).rx.expectedLine (p.word1 - (s.lane n).rx.expectedLine)
      s).trans (State.keepAll_counters n (fun k => { k with sequenceErrors := count k.sequenceErrors 1 }) _)).trans
      (State.keepAll_faultyPacket n _)
    exact .ite (fun _ => passed.trans (State.keepAll_takeLine n p true _)) fun _ => passed

/-! ### FRAME_END -/

theorem State.keepAll_lock (n : Lane) (s : State) : s.KeepAll (s.lock n) := by
  have locked : s.KeepAll (s.modRx n fun r => { r with
      state := .locked, cleanFrames := 0, lockedRun := 0
      geometry := (s.lane n).rx.acquisition.getD (s.lane n).rx.geometry
      counters := { r.counters with locks := count r.counters.locks 1 } }) :=
    .of_same (s.same_modRx n fun _ => ⟨rfl, rfl⟩)
  unfold State.lock
  refine .trans (.ite (fun _ => locked) fun _ => ?_) (.of_same (State.same_offer _ _))
  exact (locked.trans (State.keepAll_storeRelease n _)).trans
    (.of_same ((State.same_modMotion _ n _).trans (State.same_modDust _ n _)))

theorem State.keepAll_closeAcquiring (n : Lane) (clean : Bool) (s : State) : s.KeepAll (s.closeAcquiring n clean) := by
  have counted (f : Receiver → Receiver) (hf : ∀ r, (f r).openFrame = r.openFrame ∧ (f r).mode = r.mode) :
      s.KeepAll (s.modRx n f) := .of_same (s.same_modRx n hf)
  unfold State.closeAcquiring
  have more := counted (fun r => { r with cleanFrames := r.cleanFrames + 1 }) fun _ => ⟨rfl, rfl⟩
  exact .ite (fun _ => .ite (fun _ => more.trans (State.keepAll_lock n _)) fun _ => more) fun _ =>
    counted _ fun _ => ⟨rfl, rfl⟩

/-- A lock, and so a close in ACQUIRING, leaves the opening and the mode. -/
theorem State.opening_lock (n : Lane) (s : State) :
    ((s.lock n).lane n).store.opening = (s.lane n).store.opening ∧ ((s.lock n).lane n).rx.mode = (s.lane n).rx.mode := by
  unfold State.lock
  simp only
  have offered := fun (t : State) (nt : Notice) => (State.same_offer t nt).lanes n
  rw [(offered _ _).store, (offered _ _).mode]
  split
  · simp
  · have geometry (t : State) (g : Geometry) := ((t.same_modMotion n fun k => { k with
      jitterX := 0, jitterY := 0, referenceValid := false }).trans (State.same_modDust _ n (Dust.layout g))).lanes n
    unfold State.engineGeometry
    rw [(geometry _ _).store, (geometry _ _).mode, State.lane_storeRelease, LaneStore.release_eq]
    simp

theorem State.opening_closeAcquiring (n : Lane) (clean : Bool) (s : State) :
    ((s.closeAcquiring n clean).lane n).store.opening = (s.lane n).store.opening
      ∧ ((s.closeAcquiring n clean).lane n).rx.mode = (s.lane n).rx.mode := by
  unfold State.closeAcquiring
  simp only
  split
  · split
    · rw [(State.opening_lock n _).1, (State.opening_lock n _).2]
      simp
    · simp
  · simp

theorem Receiver.closeLocked_frame (r : Receiver) :
    r.closeLocked.openFrame = r.openFrame ∧ r.closeLocked.mode = r.mode := by
  unfold Receiver.closeLocked
  split <;> exact ⟨rfl, rfl⟩

/-- A frame that the store has closed is no longer open in the Lane Receiver. -/
theorem State.keepAll_closing {s : State} {n : Lane}
    (closed : (s.lane n).store.opening = .closed ∨ (s.lane n).rx.mode = .check) :
    s.KeepAll (s.modRx n fun r => { r with openFrame := none, mark := none }) := by
  refine .modLane s n id fun hr => ?_
  have none : (s.lane n).store.opening = .closed := by
    refine Classical.byContradiction fun hne => ?_
    exact closed.elim hne (hr.frame hne).2
  refine hr.reopen (fun _ => .inr rfl) (fun i hi => ?_) rfl (fun i hi => ?_) fun hne => absurd none hne
  · rw [none] at hi
    cases hi
  · rw [none] at hi
    cases hi

theorem State.keepAll_closeFrame (n : Lane) (f : OpenFrame) (s : State) : s.KeepAll (s.closeFrame n f) := by
  unfold State.closeFrame
  simp only
  have closed : s.KeepAll (if (s.lane n).rx.mode.stores then
        s.storeClose n (s.lane n).rx.damagedCount (s.lane n).rx.dmax f.openedIn else s)
      ∧ (((if (s.lane n).rx.mode.stores then s.storeClose n (s.lane n).rx.damagedCount (s.lane n).rx.dmax f.openedIn
          else s).lane n).store.opening = .closed
        ∨ ((if (s.lane n).rx.mode.stores then s.storeClose n (s.lane n).rx.damagedCount (s.lane n).rx.dmax f.openedIn
          else s).lane n).rx.mode = .check) := by
    split
    · exact ⟨State.keepAll_storeClose n _ _ _ s, .inl (State.closed_storeClose n _ _ _ s)⟩
    · refine ⟨.refl s, .inr ?_⟩
      cases hmode : (s.lane n).rx.mode <;> simp_all [LaneMode.stores]
  generalize (if (s.lane n).rx.mode.stores then s.storeClose n (s.lane n).rx.damagedCount (s.lane n).rx.dmax f.openedIn
    else s) = t at *
  obtain ⟨kept, closed⟩ := closed
  split
  · refine (kept.trans (State.keepAll_closeAcquiring n _ t)).trans (State.keepAll_closing ?_)
    rwa [(State.opening_closeAcquiring n _ t).1, (State.opening_closeAcquiring n _ t).2]
  · have same := t.same_modRx n Receiver.closeLocked_frame
    refine (kept.trans (.of_same same)).trans (State.keepAll_closing ?_)
    rwa [(same.lanes n).store, (same.lanes n).mode]

theorem State.keepAll_frameEnd (n : Lane) (number : Nat) (s : State) : s.KeepAll (s.frameEnd n number) := by
  have ignored (f : LaneCounters → LaneCounters) : s.KeepAll ((s.modCounters n f).faultyPacket n) :=
    (State.keepAll_counters n f s).trans (State.keepAll_faultyPacket n _)
  unfold State.frameEnd
  simp only
  split
  · exact ignored _
  · refine .ite (fun _ => ignored _) fun _ => ?_
    have damaged := State.keepAll_addDamagedRun n (s.lane n).rx.expectedLine
      ((s.lane n).rx.height - (s.lane n).rx.expectedLine) s
    have counted := damaged.trans (.ite (c := (s.lane n).rx.height - (s.lane n).rx.expectedLine = 0)
      (fun _ => .refl _) fun _ => (State.keepAll_counters n (fun k => { k with
        sequenceErrors := count k.sequenceErrors 1 }) _).trans (State.keepAll_faultyPacket n _))
    exact .ite (fun _ => counted.trans (State.keepAll_closeFrame n _ _)) fun _ => counted

/-! ### A packet -/

theorem State.keepAll_lanePacket (n : Lane) (p : Option Packet) (s : State) : s.KeepAll (s.lanePacket n p) := by
  unfold State.lanePacket
  split
  · exact .ite (fun _ => (State.keepAll_counters n _ s).trans (State.keepAll_faultyPacket n _)) fun _ =>
      State.keepAll_counters n _ s
  · rename_i p
    have received : s.KeepAll (s.receivePacket n p) := by
      have heard : s.KeepAll (s.heard n p) :=
        .ite (fun _ => .of_same (s.same_modRx n fun _ => ⟨rfl, rfl⟩)) fun _ => .refl s
      unfold State.receivePacket
      simp only
      split
      · exact heard.trans (State.keepAll_frameStart n _ _ _)
      · exact heard.trans (State.keepAll_line n p _)
      · exact heard.trans (State.keepAll_frameEnd n _ _)
    split
    · split
      · exact State.keepAll_searchFrameStart n _ _ s
      · exact .refl s
    · exact received
    · exact received
    · exact .refl s

end Sys2Proof.Machine

/-! SUPPORT. Every command keeps the write buffers, the job queue and the slot rings in order (O58). -/

namespace Sys2Proof.Machine

namespace State.KeepAll

variable {s : State}

/-! ### The frame of an event and of a command -/

/-- An update that leaves the lanes and the jobs. -/
theorem apart {s t u : State} (h : s.KeepAll t) (lanes : u.lanes = t.lanes) (jobs : u.jobs = t.jobs) : s.KeepAll u :=
  h.trans (.of_same (.of_eq lanes jobs))

theorem serve {s t : State} (h : s.KeepAll t) : s.KeepAll t.serve := h.trans (.of_same t.same_serve)

theorem onEvent (m : Moment) (due : State → Bool) {act : State → State} (h : ∀ t : State, t.KeepAll (act t)) :
    s.KeepAll (s.onEvent m due act) := by
  have passed : s.KeepAll (s.advance m) := .of_same (.of_eq rfl rfl)
  exact .ite (fun _ => passed.trans (h _)) fun _ => passed

theorem execute (m : Moment) (named : CmdMessage → Bool) {body : CmdMessage → State → State}
    (h : ∀ (c : CmdMessage) (t : State), t.KeepAll (body c t)) : s.KeepAll (s.execute m named body) := by
  have passed : s.KeepAll (s.advance m) := .of_same (.of_eq rfl rfl)
  unfold State.execute
  split
  · exact passed
  · have left : s.KeepAll ((s.advance m).modChan CommandChannel.dequeue) := passed.apart rfl rfl
    exact .ite (fun _ => left.trans (h _ _)) fun _ => passed

theorem answer {s t : State} (h : s.KeepAll t) (c : CmdMessage) (code : ReplyCode) (data : List Byte) :
    s.KeepAll (t.answer c code data) := by
  rw [State.answer_eq]
  exact h.apart rfl rfl

/-- A command that changes neither the lanes nor the jobs, and replies. -/
theorem answered {t u : State} (c : CmdMessage) (code : ReplyCode) (data : List Byte) (lanes : u.lanes = t.lanes)
    (jobs : u.jobs = t.jobs) : t.KeepAll (u.answer c code data) := ((refl t).apart lanes jobs).answer c code data

theorem refuse (s : State) (c : CmdMessage) (code : ReplyCode) : s.KeepAll (s.refuse c code) := (refl s).answer c code []

theorem ofLength (k : Nat) (c : CmdMessage) {body : State → State} (h : s.KeepAll (body s)) :
    s.KeepAll (s.ofLength k c body) := .ite (fun _ => h) fun _ => refuse s c _

theorem ofLane (c : CmdMessage) {body : Lane → State → State} (h : ∀ n, s.KeepAll (body n s)) :
    s.KeepAll (s.ofLane c body) := by
  unfold State.ofLane
  split
  · exact h _
  · exact refuse s c _

theorem ofField {α : Type} (field : Option α) (c : CmdMessage) {body : α → State → State}
    (h : ∀ a, s.KeepAll (body a s)) : s.KeepAll (s.ofField field c body) := by
  unfold State.ofField
  split
  · exact h _
  · exact refuse s c _

theorem whenOk (ok : Bool) (code : ReplyCode) (c : CmdMessage) {body : State → State} (h : s.KeepAll (body s)) :
    s.KeepAll (s.unless ok code c body) := by
  unfold State.unless
  split
  · exact h
  · exact refuse s c _

/-! ### The lane's events -/

theorem cameraPacket (n : Lane) (bytes : List Byte) (s : State) : s.KeepAll (s.cameraPacket n bytes) := by
  unfold State.cameraPacket
  exact ((((State.keepAll_counters n _ s).trans (.of_same (State.same_relayEvent _ n _))).trans
    (State.keepAll_lanePacket n _ _))).serve

theorem generatorPacket (n : Lane) (s : State) : s.KeepAll (s.generatorPacket n) := by
  unfold State.generatorPacket
  split
  · exact refl s
  · simp only
    refine .ite (fun _ => .of_same (s.same_modTest n _)) fun _ => ?_
    exact (((KeepAll.of_same (s.same_modTest n _)).trans (State.keepAll_counters n _ _)).trans
      (State.keepAll_lanePacket n _ _)).serve

/-! ### The port's events -/

theorem finishWrite (n : Lane) (addr : Nat) (data : List Byte) (s : State) :
    s.KeepAll (s.finishWrite n addr data) := by
  have written : s.KeepAll { s with dram := Memory.writeRun addr data s.dram } := (refl s).apart rfl rfl
  refine .trans (written.trans (.modStore _ n (fun hb => ?_) fun hr => hr.segmentWritten))
    (State.keepAll_commitIfDrained n _)
  unfold LaneStore.segmentWritten
  split
  · rename_i b rest hbuf
    rw [LaneStore.bufferOk, hbuf] at hb
    split
    · exact Nat.le_trans (LaneStore.length_trimUnstored _) (Nat.le_of_succ_le hb)
    · exact hb
  · exact hb

theorem laneWrite {m : Moment} {t : State} (he : exec (.laneWriteComplete m) s = .next t) : s.KeepAll t := by
  have passed : s.KeepAll (s.advance m) := (refl s).apart rfl rfl
  have freed : s.KeepAll (s.advance m).freePort := passed.apart rfl rfl
  simp only [exec, execLaneWriteComplete] at he
  split at he
  · split at he
    · injection he with he
      exact he ▸ freed.serve
    · split at he
      · injection he with he
        exact he ▸ (freed.trans (finishWrite _ _ _ _)).serve
      · cases he
  · injection he with he
    exact he ▸ passed

theorem compositorFetch {m : Moment} {t : State} (he : exec (.compositorFetchComplete m) s = .next t) : s.KeepAll t := by
  have passed : s.KeepAll (s.advance m) := (refl s).apart rfl rfl
  have freed : s.KeepAll (s.advance m).freePort := passed.apart rfl rfl
  have fetched (line : Nat) (item : FetchItem) (data : List Byte) (u : State) :
      u.KeepAll (u.finishFetch line item data) := by
    unfold State.finishFetch
    split
    · exact .ite (fun _ => (refl u).apart rfl rfl) fun _ => refl u
    · exact refl u
  simp only [exec, execCompositorFetchComplete] at he
  split at he
  · split at he
    · injection he with he
      exact he ▸ freed.serve
    · split at he
      · injection he with he
        exact he ▸ (freed.trans (fetched _ _ _ _)).serve
      · cases he
  · injection he with he
    exact he ▸ passed

theorem conditioningRead {m : Moment} {t : State} (he : exec (.conditioningReadComplete m) s = .next t) :
    s.KeepAll t := by
  have passed : s.KeepAll (s.advance m) := (refl s).apart rfl rfl
  have freed : s.KeepAll (s.advance m).freePort := passed.apart rfl rfl
  simp only [exec, execConditioningReadComplete] at he
  split at he
  · split at he
    · injection he with he
      exact he ▸ freed.serve
    · split at he
      · injection he with he
        exact he ▸ (freed.trans (State.keepAll_takeRead _ _)).serve
      · cases he
  · injection he with he
    exact he ▸ passed

theorem refreshDone {m : Moment} {t : State} (he : exec (.refreshComplete m) s = .next t) : s.KeepAll t := by
  have passed : s.KeepAll (s.advance m) := (refl s).apart rfl rfl
  simp only [exec, execRefreshComplete] at he
  split at he
  · injection he with he
    refine he ▸ serve ?_
    exact passed.apart rfl rfl
  · injection he with he
    exact he ▸ passed

/-! ### The output frame's, the purge's and the Command Channel's events -/

theorem lanes_freeBefore (k : Nat) (s : State) :
    (s.freeBefore k).lanes = s.lanes ∧ (s.freeBefore k).jobs = s.jobs := by
  unfold State.freeBefore
  split <;> exact ⟨rfl, rfl⟩

theorem beginLine (s : State) : s.KeepAll s.beginLine := by
  have freed : s.KeepAll (s.freeBefore s.timing.nextLine) :=
    (refl s).apart (lanes_freeBefore _ s).1 (lanes_freeBefore _ s).2
  have underran (t : State) (k : Nat) : t.KeepAll (t.underrun k) := (refl t).apart rfl rfl
  have sent (t : State) (bytes : List Byte) : t.KeepAll (t.sendLine bytes) := (refl t).apart rfl rfl
  have moved (t : State) (f : Timing → Timing) : t.KeepAll (t.modTiming f) := (refl t).apart rfl rfl
  unfold State.beginLine
  refine freed.trans (.trans ?_ (moved _ _))
  split
  · exact sent _ _
  · exact (underran _ _).trans (sent _ _)

theorem beginStatusLine (s : State) : s.KeepAll s.beginStatusLine := by
  have freed (t : State) (k : Nat) : t.KeepAll (t.freeBefore k) :=
    (refl t).apart (lanes_freeBefore k t).1 (lanes_freeBefore k t).2
  have ended (t : State) (f : Timing → Timing) : t.KeepAll (t.modTiming f).bringExecution := (refl t).apart rfl rfl
  have sent (f : CommandChannel → CommandChannel) (tx : Transmitter) : s.KeepAll { s.modChan f with tx := tx } :=
    (refl s).apart rfl rfl
  exact ((sent _ _).trans (freed _ _)).trans (ended _ _)

theorem endRest (n : Lane) (s : State) : s.KeepAll (s.endRest n) := by
  unfold State.endRest
  refine .trans (.ite (fun _ => .of_same (s.same_raise _)) fun _ => refl s) (.of_same (State.same_purgeEvent _ n _))

theorem takeArrival (bytes : List Byte) (s : State) : s.KeepAll (s.takeArrival bytes) := by
  rw [State.takeArrival_eq]
  exact (refl s).apart rfl rfl

theorem loseTerminal (s : State) : s.KeepAll s.loseTerminal := by
  unfold State.loseTerminal
  refine .trans (.trans ?_ (.of_same (State.same_raise _ _))) (.of_same (State.same_offer _ _))
  exact (refl s).apart rfl rfl

/-! ### The lane commands -/

theorem applyEnable (n : Lane) (on : Bool) (o : Origin) (s : State) : s.KeepAll (s.applyEnable n on o) := by
  unfold State.applyEnable
  split
  · exact State.keepAll_enable n o s
  · exact refl s
  · exact refl s
  · exact State.keepAll_disable n o s

theorem configShort (c : CmdMessage) (n : Lane) (s : State) : s.KeepAll (s.configShort c n) :=
  ofField _ c fun _ => (((refl s).answer c _ _).trans (applyEnable n _ _ _)).serve

theorem configFull (c : CmdMessage) (n : Lane) (s : State) : s.KeepAll (s.configFull c n) := by
  refine ofField _ c fun _ => ofField _ c fun _ => whenOk _ _ c ?_
  refine serve (.trans (.answer (.of_same (s.same_modRx n ?_)) c _ _) (applyEnable n _ _ _))
  exact fun _ => ⟨rfl, rfl⟩

/-! ### Every command -/

theorem command {i : Instr} {k : Nat} (hk : i.commandNumber = some k) (h3 : k ≠ 3) {t : State}
    (he : exec i s = .next t) : s.KeepAll t := by
  cases i <;> simp only [Instr.commandNumber, reduceCtorEq] at hk <;> simp only [exec] at he
  case restart m => simp only [Option.some.injEq] at hk; omega
  all_goals
    injection he with he
    rw [← he]
    refine execute _ _ fun c t => ?_
  case heartbeat m => exact ofLength _ c ((refl t).answer c _ _)
  case resume m => exact ofLength _ c (answered c _ _ rfl rfl)
  case setSupervision m => exact ofLength _ c (answered c _ _ rfl rfl)
  case clearFlags m => exact ofLength _ c (answered c _ _ rfl rfl)
  case readCounters m =>
    refine ofLength _ c (ofField _ c fun clear => .answer (.ite (fun _ => ?_) fun _ => refl t) c _ _)
    refine .of_same ⟨rfl, fun n => ?_⟩
    have cleared : t.clearCounters.lane n = { t.lane n with purge := { (t.lane n).purge with
        autoPurges := 0, manualPurges := 0, halts := 0 } } := Four.get_map _ _ _
    rw [cleared]
    exact ⟨rfl, rfl, rfl⟩
  case cameraConfig m =>
    exact .ite (fun _ => ofLane c fun n => configShort c n t) fun _ =>
      .ite (fun _ => ofLane c fun n => configFull c n t) fun _ => refuse t c _
  case setLaneLimits m =>
    refine ofLength _ c (ofLane c fun n => .answer (.of_same (t.same_modRx n ?_)) c _ _)
    exact fun _ => ⟨rfl, rfl⟩
  case cameraRestart m =>
    exact ofLength _ c (ofLane c fun n => whenOk _ _ c
      (((refl t).answer c _ _).trans (State.keepAll_channelRestart n _ _ _)).serve)
  case cameraRearm m =>
    exact ofLength _ c (ofLane c fun n => whenOk _ _ c
      (((refl t).answer c _ _).trans (State.keepAll_rearmRestart n _ _)).serve)
  case readLane m =>
    refine ofLength _ c (ofLane c fun n => ofField _ c fun clear => .answer (.ite (fun _ => ?_) fun _ => refl t) c _ _)
    exact State.keepAll_counters n _ t
  case cameraMessage m =>
    exact .ite (fun _ => refuse t c _) fun _ => ofLane c fun n => whenOk _ _ c (whenOk _ _ c
      (.answer (.of_same (t.same_modRelay n _)) c _ _))
  case setRelay m =>
    exact ofLength _ c (ofLane c fun n => ofField _ c fun _ => .answer (.of_same (t.same_modRelay n _)) c _ _)
  case relayFlush m =>
    exact ofLength _ c (ofLane c fun n => ((refl t).answer c _ _).trans (.of_same (State.same_relayEvent _ n _)))
  case setRefresh m => exact ofLength _ c (answered c _ _ rfl rfl)
  case loadAnchors m =>
    exact .ite (fun _ => refuse t c _) fun _ => ofLane c fun n => whenOk _ _ c (ofField _ c fun _ => whenOk _ _ c
      (.answer (.of_same (t.same_modMotion n _)) c _ _))
  case setStabilizer m =>
    exact ofLength _ c (ofLane c fun n => ofField _ c fun _ => .answer (.of_same (t.same_modMotion n _)) c _ _)
  case readMotion m =>
    refine ofLength _ c (ofLane c fun n => ofField _ c fun part => ofField _ c fun clear => whenOk _ _ c
      (.answer (.ite (fun _ => ?_) fun _ => refl t) c _ _))
    exact .of_same (t.same_modMotion n _)
  case setDust m =>
    exact ofLength _ c (ofLane c fun n => whenOk _ _ c (.answer (.of_same (t.same_modDust n _)) c _ _))
  case loadTone m =>
    exact ofLength _ c (ofField _ c fun _ => ofField _ c fun _ => answered c _ _ rfl rfl)
  case readDustMap m => exact ofLength _ c (ofLane c fun n => whenOk _ _ c ((refl t).answer c _ _))
  case setPurge m =>
    exact ofLength _ c (ofLane c fun n => ofField _ c fun _ => .answer (.of_same (t.same_modPurge n _)) c _ _)
  case purgeNow m =>
    exact ofLength _ c (ofLane c fun n => whenOk _ _ c
      (((refl t).answer c _ _).trans (.of_same (State.same_purgeEvent _ n _))))
  case purgeRearm m =>
    exact ofLength _ c (ofLane c fun n => whenOk _ _ c (.answer (.of_same (t.same_modPurge n _)) c _ _))
  case loadWindow m =>
    exact ofLength _ c (ofField _ c fun _ => ofField _ c fun _ => ofField _ c fun _ => whenOk _ _ c
      (answered c _ _ rfl rfl))
  case clearWindow m =>
    exact ofLength _ c (ofField _ c fun _ => ofField _ c fun _ => answered c _ _ rfl rfl)
  case loadMarks m =>
    exact .ite (fun _ => refuse t c _) fun _ => ofField _ c fun _ => ofField _ c fun _ =>
      answered c _ _ rfl rfl
  case commitTables m => exact ofLength _ c (answered c _ _ rfl rfl)
  case selectPage m => exact ofLength _ c (ofField _ c fun _ => answered c _ _ rfl rfl)
  case setSubstitute m => exact ofLength _ c (answered c _ _ rfl rfl)
  case setRaster m => exact ofLength _ c (ofField _ c fun _ => answered c _ _ rfl rfl)
  case setTiming m =>
    exact ofLength _ c (ofField _ c fun _ => ofField _ c fun _ => answered c _ _ rfl rfl)
  case setLaneMode m =>
    exact ofLength _ c (ofLane c fun n => ofField _ c fun _ => ofField _ c fun _ =>
      (((refl t).answer c _ _).trans (State.keepAll_setLaneMode n _ _ _ _)).serve)
  case injectError m =>
    exact ofLength _ c (ofLane c fun n => whenOk _ _ c (whenOk _ _ c (.answer (.of_same (t.same_modTest n _)) c _ _)))
  case testRead m => exact ofLength _ c (ofLane c fun n => .answer (.of_same (t.same_modTest n _)) c _ _)

/-- A reset empties buffers, rings and queue. -/
theorem of_reset {t : State} (h : s.ResetTo t) : s.KeepAll t := by
  obtain ⟨lanes, jobs, _⟩ := h.leaves
  have lane (n : Lane) : t.lane n = .reset := by
    rw [State.lane, lanes]
    exact Four.get_const _ _
  refine ⟨⟨fun _ n => ?_, fun _ => ?_, fun _ _ n => ?_⟩, fun _ => ?_⟩
  · rw [lane]
    exact Nat.zero_le 2
  · rw [State.queueOk, jobs]
    exact ⟨List.nodup_nil, fun j hj => by cases hj⟩
  · rw [lane]
    have free (i : Fin 4) : LaneBlocks.reset.store.roleOf i = none := by
      revert i
      decide
    exact
      { ring := fun i _ _ _ => free i, filling := fun i hi => by rw [free] at hi; cases hi
        stored := fun i hi => (by cases hi), frame := fun hne => absurd rfl hne
        conditioning := fun i hi => by rw [free] at hi; cases hi }
  · rw [State.headRuns, jobs]
    exact fun j hj => by cases hj

theorem exec_restart {m : Moment} {t : State} (he : exec (.restart m) s = .next t) : s.KeepAll t := by
  by_cases hr : ∃ c, s.ReadyFor 3 c ∧ c.payload = []
  · exact of_reset ⟨m, .inr (.inr (.inr (by obtain ⟨c, ready, hp⟩ := hr; exact ⟨c, ready, hp, he⟩)))⟩
  · have passed : s.KeepAll (s.advance m) := (refl s).apart rfl rfl
    simp only [exec, Machine.execRestart] at he
    injection he with he
    rw [← he]
    unfold State.execute
    split
    · exact passed
    · rename_i c l hq
      refine .ite (fun hx => ?_) fun _ => passed
      simp only [State.executes, Bool.and_eq_true, decide_eq_true_eq, Bool.not_eq_true', CmdMessage.is,
        beq_iff_eq] at hx
      obtain ⟨⟨hreset, hnumber⟩, hroom⟩ := hx
      have hn : c.payload.length ≠ 0 := fun h0 =>
        hr ⟨c, ⟨hreset, congrArg List.head? hq, hnumber, hroom⟩, List.eq_nil_of_length_eq_zero h0⟩
      have left : s.KeepAll ((s.advance m).modChan CommandChannel.dequeue) := passed.apart rfl rfl
      exact left.trans ((congrArg _ (State.ofLength_not hn _)).mpr (refuse _ c _))

theorem exec_pinResetRelease {m : Moment} {t : State} (he : exec (.pinResetRelease m) s = .next t) : s.KeepAll t := by
  cases hr : s.resetAsserted with
  | true => exact of_reset ⟨m, .inr (.inr (.inl ⟨hr, he⟩))⟩
  | false =>
    have hm : (s.advance m).resetAsserted = false := hr
    simp only [exec, execPinResetRelease, hm, Bool.false_eq_true, if_false] at he
    injection he with he
    exact he ▸ (refl s).apart rfl rfl

theorem exec_all {i : Instr} {t : State} (he : exec i s = .next t) : s.KeepAll t := by
  cases hk : i.commandNumber with
  | some k =>
    by_cases h3 : k = 3
    · cases i <;> simp only [Instr.commandNumber, reduceCtorEq, Option.some.injEq] at hk <;> try omega
      exact exec_restart he
    · exact command hk h3 he
  | none =>
    cases i <;> simp only [Instr.commandNumber, reduceCtorEq] at hk
    case powerOn m => exact of_reset ⟨m, .inl he⟩
    case pinResetAssert m => exact of_reset ⟨m, .inr (.inl he)⟩
    case pinResetRelease m => exact exec_pinResetRelease he
    case laneWriteComplete m => exact laneWrite he
    case compositorFetchComplete m => exact compositorFetch he
    case conditioningReadComplete m => exact conditioningRead he
    case refreshComplete m => exact refreshDone he
    case unknownCommand m =>
      injection he with he
      exact he ▸ execute _ _ fun c t => refuse t c _
    all_goals
      injection he with he
      refine he ▸ onEvent _ _ fun t => ?_
    case dramInitComplete m => exact serve (t := t.modArb _) ((refl t).apart rfl rfl)
    case cameraPacket m n bytes => exact cameraPacket n bytes t
    case generatorPacket m n => exact generatorPacket n t
    case silenceTimerExpiry m n => exact (State.keepAll_downEntry n _ t).serve
    case recoveryTimerExpiry m n => exact (State.keepAll_channelRestart n _ _ t).serve
    case progressTimerExpiry m n => exact .of_same (t.same_relayEvent n _)
    case refreshTimerExpiry m => exact serve (t := t.modArb _) ((refl t).apart rfl rfl)
    case flywheelDeadlineExpiry m =>
      have counted (f : Timing → Timing) : t.KeepAll (t.modTiming f) := (refl t).apart rfl rfl
      exact ((counted _).trans (State.keepAll_startFrame _ _)).serve
    case outputTimerExpiry m => exact (State.keepAll_startFrame _ t).serve
    case activeLineBegin m => exact (beginLine t).serve
    case statusLineEvent m => exact beginStatusLine t
    case statusLineEnd m => exact (refl t).apart rfl rfl
    case pulseTimerExpiry m n => exact .of_same (t.same_modPurge n _)
    case settleTimerExpiry m n => exact .of_same (t.same_modPurge n _)
    case cooldownTimerExpiry m n => exact endRest n t
    case heartbeatTimerExpiry m => exact loseTerminal t
    case commandMessageArrival m bytes => exact takeArrival bytes t
    case backlaneGapTimeout m => exact (refl t).apart rfl rfl

end State.KeepAll

/-- At most one job a lane, and four lanes. -/
theorem State.jobs_length {s : State} (h : s.queueOk) : s.jobs.length ≤ 4 := by
  have := h.1.length_le_of_subset (l₂ := List.finRange 4) fun n _ => List.mem_finRange n
  rwa [List.length_map, List.length_finRange] at this

/-- Settles O58: every part of a step keeps buffers, job queue and rings, and a command ends with the queue's head
running. -/
theorem storeStaysSound : Obligations.StoreStaysSound := by
  intro s t h
  have kept : s.KeepAll t := by
    rcases step_cases h with rfl | ⟨i, rest, _, he⟩
    · exact .refl s
    · exact State.KeepAll.trans (t := { s with pending := rest }) (.of_same (.of_eq rfl rfl)) (.exec_all he)
  refine ⟨kept.buffers, fun hj => ?_, fun hs => ?_⟩
  · obtain ⟨hqueue, hhead⟩ := State.jobsOk_iff.1 hj
    exact ⟨State.jobsOk_iff.2 ⟨kept.queue hqueue, kept.head hhead⟩, State.jobs_length (kept.queue hqueue)⟩
  · obtain ⟨hj, hrings⟩ := State.storeOk_iff.1 hs
    obtain ⟨hqueue, hhead⟩ := State.jobsOk_iff.1 hj
    exact State.storeOk_iff.2 ⟨State.jobsOk_iff.2 ⟨kept.queue hqueue, kept.head hhead⟩, kept.rings hqueue hrings⟩

end Sys2Proof.Machine

/-! SUPPORT. A lane that leaves its state: what the lane down, the lane release and the loss of the master leave of the
other parts (R16, R17, R22, R171). -/

namespace Sys2Proof.Machine

/-! ### What an event that takes a lane down leaves alone -/

/-- The Lane Receivers but for their counts, the relays of the other lanes, the Link Test Units, the DRAM, the waiting
events and the Command Channel but for its reports. -/
structure State.Left (n : Lane) (s t : State) : Prop where
  judged : ∀ k, (t.lane k).rx.judged = (s.lane k).rx.judged
  relay : ∀ k, k ≠ n → (t.lane k).relay = (s.lane k).relay
  queue : (s.lane n).relay.queue = [] → (t.lane n).relay.queue = []
  test : ∀ k, (t.lane k).test = (s.lane k).test
  dram : t.dram = s.dram
  pending : t.pending = s.pending
  now : t.now = s.now
  reports : t.chan.apartReports = s.chan.apartReports

namespace State.Left

variable {n : Lane}

theorem refl (s : State) : s.Left n s :=
  ⟨fun _ => rfl, fun _ _ => rfl, id, fun _ => rfl, rfl, rfl, rfl, rfl⟩

theorem of_eq {s t : State} (lanes : t.lanes = s.lanes) (dram : t.dram = s.dram) (pending : t.pending = s.pending)
    (now : t.now = s.now) (chan : t.chan = s.chan) : s.Left n t := by
  have lane (k : Lane) : t.lane k = s.lane k := by rw [State.lane, State.lane, lanes]
  exact ⟨fun k => by rw [lane], fun k _ => by rw [lane], fun h => by rwa [lane], fun k => by rw [lane], dram, pending,
    now, by rw [chan]⟩

theorem trans {s t u : State} (h : s.Left n t) (k : t.Left n u) : s.Left n u where
  judged i := (k.judged i).trans (h.judged i)
  relay i hi := (k.relay i hi).trans (h.relay i hi)
  queue := k.queue ∘ h.queue
  test i := (k.test i).trans (h.test i)
  dram := k.dram.trans h.dram
  pending := k.pending.trans h.pending
  now := k.now.trans h.now
  reports := k.reports.trans h.reports

theorem offer (nt : Notice) (s : State) : s.Left n (s.offer nt) := by
  rw [State.offer_eq]
  exact { refl s with reports := CommandChannel.apartReports_takeReports _ _ }

theorem serve (s : State) : s.Left n s.serve := by
  rw [State.serve_eq]
  exact of_eq rfl rfl rfl rfl rfl

/-- A change of lane `n` apart from what it leaves. -/
theorem modLane (s : State) {f : LaneBlocks → LaneBlocks} (judged : (f (s.lane n)).rx.judged = (s.lane n).rx.judged)
    (relay : (f (s.lane n)).relay = (s.lane n).relay) (test : (f (s.lane n)).test = (s.lane n).test) :
    s.Left n (s.modLane n f) where
  judged k := by
    by_cases hk : k = n
    · subst hk
      rw [State.lane_modLane_same, judged]
    · rw [State.lane_modLane_other f s hk]
  relay k hk := by rw [State.lane_modLane_other f s hk]
  queue h := by rwa [State.lane_modLane_same, relay]
  test k := by
    by_cases hk : k = n
    · subst hk
      rw [State.lane_modLane_same, test]
    · rw [State.lane_modLane_other f s hk]
  dram := rfl
  pending := rfl
  now := rfl
  reports := rfl

theorem storeRelease (s : State) : s.Left n (s.storeRelease n) :=
  { modLane s (f := fun l => { l with store := l.store.release }) rfl rfl rfl with
    dram := rfl, pending := rfl, now := rfl, reports := rfl }

theorem startFrame (d : Option Lane) (s : State) : s.Left n (s.startFrame d) := by
  have lane (k : Lane) := State.startFrame_lane d s k
  refine ⟨fun k => by rw [lane]; rfl, fun k _ => by rw [lane]; rfl, fun h => by rw [lane]; exact h,
    fun k => by rw [lane]; rfl, ?_, ?_, ?_, ?_⟩
  all_goals rw [State.startFrame_eq]
  · rfl
  · rfl
  · rfl
  · show (s.startReports d).apartReports = s.chan.apartReports
    rw [State.startReports, CommandChannel.apartReports_takeReports, CommandChannel.apartReports_takeReports]

theorem checkMaster (k : Lane) (s : State) : s.Left n (s.checkMaster k) := by
  have lost : s.Left n (s.modTiming fun t => t.lose.loseWatch) := of_eq rfl rfl rfl rfl rfl
  unfold State.checkMaster
  split
  · simp only
    split
    · exact (lost.trans (offer _ _)).trans (startFrame _ _)
    · exact lost.trans (offer _ _)
  · exact refl s

theorem deliverLaneDown (s : State) : s.Left n (s.deliverLaneDown n) := by
  have frame := s.engineOnly_deliverLaneDown n
  have rest := frame.rest
  have here : (s.down n).lane n = (s.lane n).down n (s.laneJob n).isSome := Four.get_modify_same _ _ _
  have lane {α : Type} (p : LaneBlocks → α) (hp : ∀ l, p (LaneBlocks.down n (s.laneJob n).isSome l) = p l) (k : Lane) :
      p ((s.down n).lane k) = p (s.lane k) := by
    by_cases hk : k = n
    · rw [hk, here, hp]
    · rw [State.lane_down_other s hk]
  exact
    { judged := fun k => (frame.judged k).trans (lane (·.rx.judged) (fun _ => rfl) k)
      relay := fun k hk => (frame.relay k).trans (congrArg LaneBlocks.relay (State.lane_down_other s hk))
      queue := fun _ => by rw [State.lane_deliverLaneDown]; rfl
      test := fun k => (frame.test k).trans (lane (·.test) (fun _ => rfl) k)
      dram := (congrArg State.dram rest :)
      pending := (congrArg State.pending rest :)
      now := (congrArg State.now rest :)
      reports := frame.reports }

end State.Left

theorem State.queue_deliverLaneDown (n : Lane) (s : State) : ((s.deliverLaneDown n).lane n).relay.queue = [] := by
  rw [State.lane_deliverLaneDown]
  rfl

/-- A lane that is not LOCKED in NORMAL is no timing master after the loss (R147). -/
theorem State.master_checkMaster {n : Lane} {s : State} (h : (s.lane n).rx.video = false) :
    (s.checkMaster n).timing.master ≠ some n := by
  unfold State.checkMaster
  split
  · simp only
    split
    · intro hm
      have video := State.startFrame_masterAt _ _ n hm
      rw [State.startFrame_lane, State.offer_eq] at video
      exact Bool.noConfusion (video.symm.trans h)
    · rw [State.offer_eq]
      exact fun hm => by cases hm
  · rename_i hstays
    exact fun hm => hstays ⟨hm, h⟩

theorem State.faultLine_of_left {n : Lane} {s t : State} (h : s.Left n t) : t.faultLine = s.faultLine := by
  have supervision : t.chan.supervision = s.chan.supervision := (congrArg CommandChannel.supervision h.reports :)
  have state (k : Lane) : (t.lane k).rx.state = (s.lane k).rx.state := Receiver.state_of_judged (h.judged k)
  rw [Bool.eq_iff_iff, State.faultLine_iff, State.faultLine_iff, supervision]
  simp only [state]

/-! ### The ring after lane down and release -/

theorem LaneStore.get_display_free {st : LaneStore} {i : Fin 4} (h : st.ring.get i = none) :
    st.display.ring.get i = none := by
  unfold LaneStore.display
  split
  · rename_i k hk
    have freed : (st.freeRole .showing).ring.get i = none := by
      rw [LaneStore.get_freeRole, h, ite_self]
    unfold LaneStore.move
    by_cases hi : i = k
    · subst hi
      simp [freed]
    · simp [Four.get_modify_other _ _ hi, freed]
  · exact h

/-- A slot that had its role when the lane went down and was released is FREE. -/
theorem LaneStore.get_down_release {st : LaneStore} {role : Role} {i : Fin 4} (h : st.slotOf role = some i) :
    st.laneDown.release.ring.get i = none := by
  rw [LaneStore.get_release]
  have stays {other : Role} (h1 : Role.filling ≠ other) (h2 : Role.conditioning ≠ other) :
      st.laneDown.slotOf other = st.slotOf other := by
    show ((st.freeRole .filling).freeRole .conditioning).slotOf other = _
    rw [LaneStore.slotOf_freeRole _ h2, LaneStore.slotOf_freeRole _ h1]
  rw [stays (by decide) (by decide), stays (by decide) (by decide), LaneStore.get_laneDown]
  cases role <;> simp [h]

theorem State.ring_checkMaster {n : Lane} {s : State} {i : Fin 4} (h : (s.lane n).store.ring.get i = none) :
    ((s.checkMaster n).lane n).store.ring.get i = none := by
  unfold State.checkMaster
  split
  · simp only
    split
    · rw [State.startFrame_lane, State.offer_eq]
      exact LaneStore.get_display_free h
    · rw [State.offer_eq]
      exact h
  · exact h

/-- A lane down with release and loss of the master leaves no slot that had a role. -/
theorem State.ring_released {n : Lane} {s : State} {role : Role} {i : Fin 4} (h : (s.lane n).store.slotOf role = some i) :
    (((((s.deliverLaneDown n).storeRelease n).checkMaster n).serve).lane n).store.ring.get i = none := by
  rw [State.serve_eq]
  refine State.ring_checkMaster ?_
  rw [State.lane_storeRelease, State.lane_deliverLaneDown]
  exact LaneStore.get_down_release h

/-- With one slot a role, every slot that is not FREE is that of its role. -/
theorem LaneStore.slotOf_of_ringOk {st : LaneStore} (h : st.ringOk) {i : Fin 4} {held : HeldSlot}
    (hi : st.ring.get i = some held) : st.slotOf held.role = some i := by
  have role : st.roleOf i = some held.role := by rw [LaneStore.roleOf, hi]; rfl
  obtain ⟨k, hk⟩ := LaneStore.slotOf_isSome role
  by_cases hki : k = i
  · rw [hk, hki]
  · have free := h i k (Ne.symm hki) (role.trans (LaneStore.roleOf_of_slotOf hk).symm)
    rw [hi] at free
    cases free

/-! ### CAMERA_CONFIG (R22) -/

theorem exec_configShort {m : Moment} {s : State} {c : CmdMessage} {n : Lane} {on : Bool} (hr : s.ReadyFor 7 c)
    (hp : c.payload = [fourByte n, boolByte on]) :
    exec (.cameraConfig m) s = .next ((s.replied m (c.reply .ok [])).applyEnable n on c.origin).serve := by
  show Host.Outcome.next _ = _
  rw [State.execute_taken hr, if_pos (by rw [hp]; rfl), State.ofLane_of hp]
  unfold State.configShort
  rw [State.ofOnOff_of (by rw [hp]; rfl), State.answer_taken]

theorem State.applyEnable_on {s : State} {n : Lane} {o : Origin} (h : (s.lane n).rx.state = .off) :
    s.applyEnable n true o = (s.modRx n fun x =>
      { x with state := .searching, health := 0, average := none, periods := 0, acquisition := none }).offer
        (laneStateReport n .off .searching .enabled (s.lane n).rx.health (s.lane n).rx.attempts o) := by
  unfold State.applyEnable
  rw [h]
  simp only [State.enable, h]

theorem State.applyEnable_same {s : State} {n : Lane} {on : Bool} {o : Origin}
    (h : on = true ↔ (s.lane n).rx.state ≠ .off) : s.applyEnable n on o = s := by
  unfold State.applyEnable
  cases on with
  | true =>
    split
    · exact absurd ‹_› (h.1 rfl)
    · rfl
    · rfl
    · rename_i hon _
      cases hon
  | false =>
    have hoff : (s.lane n).rx.state = .off := by simpa using h
    rw [hoff]

theorem State.applyEnable_off {s : State} {n : Lane} {o : Origin} (h : (s.lane n).rx.state ≠ .off) :
    s.applyEnable n false o = s.disable n o := by
  unfold State.applyEnable
  cases hstate : (s.lane n).rx.state <;> first | rfl | exact absurd hstate h

/-- FAULT after a lane has left LOCKED_OUT, or any other state but that one. -/
theorem State.faultLine_modRx {s : State} {n : Lane} {f : Receiver → Receiver} (h : (f (s.lane n).rx).state ≠ .lockedOut) :
    (s.modRx n f).faultLine = true ↔ s.chan.supervision = .limp ∨ ∃ k, k ≠ n ∧ (s.lane k).rx.state = .lockedOut := by
  rw [State.faultLine_iff]
  refine or_congr Iff.rfl (exists_congr fun k => ?_)
  by_cases hk : k = n
  · subst hk
    simp [h]
  · simp [State.modRx, State.lane_modLane_other _ s hk, hk]

theorem State.judged_modRx (s : State) (n : Lane) (f : Receiver → Receiver) (k : Lane) (hk : k ≠ n) :
    (s.modRx n f).lane k = s.lane k := by rw [State.modRx, State.lane_modLane_other _ s hk]

/-- The lane down of a disable, with its release and the loss of the master. -/
theorem State.left_disable (n : Lane) (o : Origin) (s : State) : (s.modRx n Receiver.toOff).Left n (s.disable n o) := by
  unfold State.disable
  exact (((State.Left.offer _ _).trans (.deliverLaneDown _)).trans (.storeRelease _)).trans (.checkMaster n _)

theorem State.Left.video {n : Lane} {s t : State} (h : s.Left n t) (k : Lane) : (t.lane k).rx.video = (s.lane k).rx.video :=
  Receiver.video_of_judged (h.judged k)

/-- Settles O23. -/
theorem cameraConfigCompletes : Obligations.CameraConfigCompletes := by
  unfold Obligations.CameraConfigCompletes
  refine ⟨fun m s c n on hr hp => ?short, fun m s c n on fixed w1 w0 h1 h0 hr hp => ?full⟩
  case short =>
    intro r rx
    have run : exec (.cameraConfig m) s = .next (r.applyEnable n on c.origin).serve := exec_configShort hr hp
    refine ⟨fun hsame => ?_, fun hon hoff => ?_, fun hon hstate => ⟨_, run, ?_⟩⟩
    · rw [run, State.applyEnable_same (s := r) hsame]
    · subst hon
      rw [run, State.applyEnable_on (s := r) hoff]
      rfl
    · subst hon
      have off : (r.applyEnable n false c.origin) = r.disable n c.origin := State.applyEnable_off hstate
      rw [off]
      have left : (r.modRx n Receiver.toOff).Left n (r.disable n c.origin).serve :=
        (State.left_disable n c.origin r).trans (.serve _)
      have judged : (((r.disable n c.origin).serve).lane n).rx.judged = rx.toOff.judged := by
        rw [left.judged, lane_modRx_rx]
        rfl
      have queue : (((r.disable n c.origin).serve).lane n).relay.queue = [] := by
        unfold State.disable
        exact (((State.Left.storeRelease _).trans (.checkMaster n _)).trans (.serve _)).queue
          (State.queue_deliverLaneDown n _)
      have master : (r.disable n c.origin).serve.timing.master ≠ some n := by
        rw [State.serve_eq]
        unfold State.disable
        refine State.master_checkMaster ?_
        have before : (r.modRx n Receiver.toOff).Left n _ :=
          ((State.Left.offer (laneStateReport n rx.state .off .disabled rx.health rx.attempts c.origin) _).trans
            (.deliverLaneDown _)).trans (.storeRelease _)
        refine (before.video n).trans ?_
        rw [lane_modRx_rx]
        rfl
      refine ⟨rfl, (congrArg Receiver.state judged :), (congrArg Receiver.attempts judged :),
        (congrArg Receiver.acquisition judged :), (congrArg Receiver.geometry judged :), queue, master, fun role i hi => ?_,
        fun k hk => ?_, fun k => ?_, left.dram, left.pending, ?_⟩
      · unfold State.disable
        refine State.ring_released (role := role) ?_
        rw [State.offer_eq]
        show ((r.modRx n Receiver.toOff).lane n).store.slotOf role = some i
        rw [State.modRx, State.lane_modLane_same]
        exact hi
      · rw [left.judged, left.relay k hk, State.judged_modRx r n _ k hk]
        exact ⟨rfl, rfl⟩
      · rw [left.test]
        by_cases hk : k = n
        · subst hk
          rw [State.modRx, State.lane_modLane_same]
          rfl
        · rw [State.judged_modRx r n _ k hk]
          rfl
      · rw [State.faultLine_of_left left]
        exact State.faultLine_modRx (by simp [Receiver.toOff])
  case full =>
    intro g r u
    have body : exec (.cameraConfig m) s = .next ((s.taken m).configFull c n) := by
      show Host.Outcome.next _ = _
      rw [State.execute_taken hr, if_neg (by simp [hp]), if_pos (by rw [hp]; rfl), State.ofLane_of hp]
    have code : clampCode [g.w != wordOf w1 w0, g.h != wordOf h1 h0]
        = if g.w = wordOf w1 w0 ∧ g.h = wordOf h1 h0 then ReplyCode.ok else .clamped := by
      by_cases hw : g.w = wordOf w1 w0 <;> by_cases hh : g.h = wordOf h1 h0 <;> simp [clampCode, hw, hh]
    have mode : GeometryMode.ofCode (byteAt c.payload 2) = some (if fixed then .fixed else .auto) := by
      rw [hp]
      cases fixed <;> rfl
    have words : configGeometry (wordAt c.payload 3) (wordAt c.payload 5) = g ∧ wordAt c.payload 3 = wordOf w1 w0
        ∧ wordAt c.payload 5 = wordOf h1 h0 := by
      rw [wordAt_wordOf, wordAt_wordOf, hp]
      exact ⟨rfl, rfl, rfl⟩
    obtain ⟨hg, hw, hh⟩ := words
    have run (hoff : (s.lane n).rx.state = .off) : exec (.cameraConfig m) s = .next (u.applyEnable n on c.origin).serve := by
      rw [body]
      unfold State.configFull
      rw [State.ofOnOff_of (by rw [hp]; rfl), State.ofField_of mode, State.unless_of (by
        rw [State.lane_taken]
        simpa using hoff), hg, hw, hh]
      simp only [code]
      rw [State.modRx, State.answer_modLane]
      rfl
    refine ⟨fun hstate => ?_, fun hoff hon => ?_, fun hoff hon => ?_⟩
    · rw [body]
      unfold State.configFull
      rw [State.ofOnOff_of (by rw [hp]; rfl), State.ofField_of mode]
      refine congrArg Host.Outcome.next ((if_neg ?_).trans (State.refuse_taken s m c .wrongState))
      rw [State.lane_taken]
      simpa using hstate
    · rw [run hoff, State.applyEnable_same]
      have : (u.lane n).rx.state = .off := by
        rw [lane_modRx_rx]
        exact hoff
      simp [hon, this]
    · subst hon
      have state : (u.lane n).rx.state = .off ∧ (u.lane n).rx.health = (s.lane n).rx.health
          ∧ (u.lane n).rx.attempts = (s.lane n).rx.attempts := by
        rw [lane_modRx_rx]
        exact ⟨hoff, rfl, rfl⟩
      rw [run hoff, State.applyEnable_on state.1, state.2.1, state.2.2]

end Sys2Proof.Machine

/-! SUPPORT. The channel restart and the changes of lane mode (R17, R24, R25, R171, R172, R176). -/

namespace Sys2Proof.Machine

/-! ### The channel restart -/

theorem laneStateReport_eq (n : Lane) (before after : LaneState) (cause : LaneCause) (health attempts : Nat)
    (origin : Origin) : laneStateReport n before after cause health attempts origin
      = ⟨.laneState, origin, .ok, byte1 n.val ++ byte1 before.code ++ byte1 after.code ++ byte1 cause.code
        ++ byte1 health ++ byte1 attempts⟩ := rfl

/-- A channel restart but for its report: the Lane Receiver, the lane down, the loss of the master. -/
theorem State.left_channelRestart (n : Lane) (cause : LaneCause) (o : Origin) (s : State) :
    (s.modRx n Receiver.toSearching).Left n (s.channelRestart n cause o) := by
  unfold State.channelRestart
  refine .trans (.trans ?_ (.deliverLaneDown _)) (.checkMaster n _)
  split
  · exact .refl _
  · exact .offer _ _

theorem State.left_rearmRestart (n : Lane) (o : Origin) (s : State) :
    (s.modRx n fun r => { r.toSearching with attempts := 0 }).Left n (s.rearmRestart n o) := by
  unfold State.rearmRestart
  refine .trans (.trans ?_ (.deliverLaneDown _)) (.checkMaster n _)
  split
  · exact .refl _
  · exact .offer _ _

/-- What a lane down with the loss of the master leaves, whatever the Lane Receiver has become. -/
theorem State.left_down {n : Lane} {u t : State} (left : u.Left n t) (video : (u.lane n).rx.video = false) :
    (((t.deliverLaneDown n).checkMaster n).lane n).relay.queue = []
      ∧ ((t.deliverLaneDown n).checkMaster n).timing.master ≠ some n := by
  refine ⟨(State.Left.checkMaster n _).queue (State.queue_deliverLaneDown n t), State.master_checkMaster ?_⟩
  rw [(left.trans (.deliverLaneDown t)).video, video]

theorem State.channelRestart_down (n : Lane) (cause : LaneCause) (o : Origin) (s : State) :
    ((s.channelRestart n cause o).lane n).relay.queue = [] ∧ (s.channelRestart n cause o).timing.master ≠ some n := by
  unfold State.channelRestart
  refine State.left_down (u := s.modRx n Receiver.toSearching) ?_ ?_
  · split
    · exact .refl _
    · exact .offer _ _
  · rw [lane_modRx_rx]
    rfl

theorem State.rearmRestart_down (n : Lane) (o : Origin) (s : State) :
    ((s.rearmRestart n o).lane n).relay.queue = [] ∧ (s.rearmRestart n o).timing.master ≠ some n := by
  unfold State.rearmRestart
  refine State.left_down (u := s.modRx n fun r => { r.toSearching with attempts := 0 }) ?_ ?_
  · split
    · exact .refl _
    · exact .offer _ _
  · rw [lane_modRx_rx]
    rfl

/-- What leaves a lane with a Lane Receiver of its own leaves of the others. -/
theorem State.Left.others {n : Lane} {s t : State} {f : Receiver → Receiver} (h : (s.modRx n f).Left n t) :
    (t.lane n).rx.judged = (f (s.lane n).rx).judged
      ∧ (∀ k, k ≠ n → (t.lane k).rx.judged = (s.lane k).rx.judged ∧ (t.lane k).relay = (s.lane k).relay)
      ∧ ∀ k, (t.lane k).test = (s.lane k).test := by
  refine ⟨by rw [h.judged, lane_modRx_rx], fun k hk => ?_, fun k => ?_⟩
  · rw [h.judged, h.relay k hk, State.judged_modRx s n f k hk]
    exact ⟨rfl, rfl⟩
  · rw [h.test]
    by_cases hk : k = n
    · subst hk
      rw [State.modRx, State.lane_modLane_same]
    · rw [State.judged_modRx s n f k hk]

/-- Settles O24. -/
theorem channelRestartCompletes : Obligations.ChannelRestartCompletes := by
  unfold Obligations.ChannelRestartCompletes
  refine ⟨fun m s c n hp => ?commands, fun s n origin => ?restart⟩
  case commands =>
    intro rx restarted
    have restartedOf {f : Receiver → Receiver} {t : State}
        (left : ((s.replied m (c.reply .ok [])).modRx n f).Left n t)
        (judged : (f rx).judged = { rx.judged with
          state := .searching, health := 0, average := none, periods := 0, mark := none, openFrame := none
          periodError := false, expectedFrame := none, expectedLine := 0, cleanFrames := 0, lockedRun := 0
          silenceDue := none, recoveryDue := none, acquisition := none, attempts := (f rx).attempts })
        (down : (t.lane n).relay.queue = [] ∧ t.timing.master ≠ some n) : restarted t := by
      obtain ⟨here, others, test⟩ := left.others
      have attempts : (t.lane n).rx.attempts = (f rx).attempts := (congrArg Receiver.attempts here :)
      refine ⟨?_, down.1, down.2, others, test, left.dram, left.pending, (congrArg CommandChannel.queue left.reports :)⟩
      rw [here, attempts]
      exact judged
    have served {x : State} (down : (x.lane n).relay.queue = [] ∧ x.timing.master ≠ some n) :
        (x.serve.lane n).relay.queue = [] ∧ x.serve.timing.master ≠ some n :=
      ⟨(State.Left.serve x).queue down.1, by rw [State.timing_serve]; exact down.2⟩
    have fault {f : Receiver → Receiver} {t : State} (left : ((s.replied m (c.reply .ok [])).modRx n f).Left n t)
        (hf : (f rx).state ≠ .lockedOut) :
        t.faultLine = true ↔ s.chan.supervision = .limp ∨ ∃ k, k ≠ n ∧ (s.lane k).rx.state = .lockedOut := by
      rw [State.faultLine_of_left left]
      exact State.faultLine_modRx hf
    refine ⟨fun hr hoff hlocked => ⟨_, ?_, rfl, ?_, ?_, ?_⟩, fun hr hstate => ?_, fun hr hlocked => ⟨_, ?_, rfl, ?_, ?_, ?_⟩,
      fun hr hstate => ?_⟩
    case refine_1 =>
      show Host.Outcome.next _ = _
      rw [State.execute_taken hr, State.ofLength_of (by rw [hp]; rfl), State.ofLane_of hp, State.unless_of (by
        rw [State.lane_taken]
        exact Bool.and_eq_true_iff.2 ⟨bne_iff_ne.2 hoff, bne_iff_ne.2 hlocked⟩), State.answer_taken]
    case refine_2 =>
      exact restartedOf ((State.left_channelRestart n _ _ _).trans (.serve _)) rfl
        (served (State.channelRestart_down n _ _ _))
    case refine_3 =>
      have left := (State.left_channelRestart n .cameraRestart c.origin (s.replied m (c.reply .ok []))).trans (.serve _)
      exact (congrArg Receiver.attempts left.others.1 :)
    case refine_4 =>
      have left := (State.left_channelRestart n .cameraRestart c.origin (s.replied m (c.reply .ok []))).trans (.serve _)
      rw [Bool.eq_iff_iff, fault left (by simp [Receiver.toSearching]), State.faultLine_iff]
      refine or_congr Iff.rfl (exists_congr fun k => and_iff_right_of_imp fun hk hkn => ?_)
      subst hkn
      exact hlocked hk
    case refine_5 =>
      show Host.Outcome.next _ = _
      rw [State.execute_taken hr, State.ofLength_of (by rw [hp]; rfl), State.ofLane_of hp]
      refine congrArg Host.Outcome.next ((if_neg ?_).trans (State.refuse_taken s m c .wrongState))
      rw [State.lane_taken]
      rcases hstate with h | h <;> simp [rx] at h <;> simp [h]
    case refine_6 =>
      show Host.Outcome.next _ = _
      rw [State.execute_taken hr, State.ofLength_of (by rw [hp]; rfl), State.ofLane_of hp, State.unless_of (by
        rw [State.lane_taken]
        exact beq_iff_eq.2 hlocked), State.answer_taken]
    case refine_7 =>
      exact restartedOf ((State.left_rearmRestart n _ _).trans (.serve _)) rfl (served (State.rearmRestart_down n _ _))
    case refine_8 =>
      have left := (State.left_rearmRestart n c.origin (s.replied m (c.reply .ok []))).trans (.serve _)
      exact (congrArg Receiver.attempts left.others.1 :)
    case refine_9 =>
      exact fault ((State.left_rearmRestart n c.origin _).trans (.serve _)) (by simp [Receiver.toSearching])
    case refine_10 =>
      show Host.Outcome.next _ = _
      rw [State.execute_taken hr, State.ofLength_of (by rw [hp]; rfl), State.ofLane_of hp]
      refine congrArg Host.Outcome.next ((if_neg ?_).trans (State.refuse_taken s m c .wrongState))
      rw [State.lane_taken]
      exact fun h => hstate (beq_iff_eq.1 h)
  case restart =>
    intro rx state searching told
    have kept : s.modRx n Receiver.toSearching = searching rx.attempts :=
      congrArg (fun lanes => ({ s with lanes := lanes } : State)) (Four.modify_congr rfl)
    have report (cause : LaneCause) (u : State) : (if rx.state = .searching then u
        else u.offer (laneStateReport n rx.state .searching cause rx.health rx.attempts origin)) = told u cause.code := by
      have hstate : rx.state.code = state := by
        unfold state
        cases rx.state <;> rfl
      rw [laneStateReport_eq, hstate]
      rfl
    have restarts (cause : LaneCause) :
        s.channelRestart n cause origin = ((told (searching rx.attempts) cause.code).deliverLaneDown n).checkMaster n := by
      rw [← kept, ← report]
      rfl
    refine ⟨fun x hx => ?_, ?_⟩
    · simp only [List.mem_cons, List.not_mem_nil, or_false] at hx
      rcases hx with rfl | rfl | rfl
      · exact restarts .recovery
      · exact restarts .cameraRestart
      · exact restarts .mode
    · have cleared := report .cameraRearm (searching 0)
      rw [show (8 : Nat) = LaneCause.cameraRearm.code from rfl, ← cleared]
      rfl

/-! ### The changes of lane mode (R171, R172, R176) -/

/-- A lane that enters CHECK or INTERNAL (R171). -/
def LaneBlocks.enterTest (mode : LaneMode) (pattern : Pattern) (now freeRun : Nat) (l : LaneBlocks) : LaneBlocks :=
  { l with
    rx := l.rx.enterMode mode
    test := LinkTest.enterMode mode now freeRun l.rx.geometry { l.test with pattern := pattern } }

/-- A lane that returns to NORMAL (R172). -/
def LaneBlocks.leaveTest (pattern : Pattern) (l : LaneBlocks) : LaneBlocks :=
  { l with
    rx := { l.rx with mode := .normal }
    test := { l.test with pattern := pattern, genRun := none, injectPending := false } }

theorem Four.modify_self {α : Type} {v : Four α} {n : Fin 4} {f : α → α} (h : f (v.get n) = v.get n) : v.modify n f = v := by
  apply Four.ext_get
  intro i
  by_cases hi : i = n
  · subst hi
    simpa using h
  · rw [Four.get_modify_other _ _ hi]

section SetMode

variable {s : State} {n : Lane} {mode : LaneMode} {pattern : Pattern} {o : Origin}

theorem State.setLaneMode_same (hm : mode = (s.lane n).rx.mode) (hp : pattern = (s.lane n).test.pattern) :
    s.setLaneMode n mode pattern o = s := by
  unfold State.setLaneMode
  simp only [if_pos hm, if_pos hp]
  refine congrArg (fun lanes => ({ s with lanes := lanes } : State)) (Four.modify_self ?_)
  subst hp
  rfl

theorem State.setLaneMode_pattern (hm : mode = (s.lane n).rx.mode) (hp : pattern ≠ (s.lane n).test.pattern) :
    s.setLaneMode n mode pattern o
      = s.modLane n fun l => { l with test := LinkTest.changePattern mode { l.test with pattern := pattern } } := by
  unfold State.setLaneMode
  simp only [if_pos hm, if_neg hp]
  exact State.modLane_modLane n _ _ s

theorem State.setLaneMode_enter (hm : mode ≠ (s.lane n).rx.mode) (hnormal : mode ≠ .normal) :
    s.setLaneMode n mode pattern o
      = (((s.modLane n (LaneBlocks.enterTest mode pattern s.now s.timing.freeRun)).deliverLaneDown n).storeRelease n).checkMaster
        n := by
  have entered : ((s.modTest n fun t => { t with pattern := pattern }).modRx n (Receiver.enterMode mode)).modTest n
      (LinkTest.enterMode mode s.now s.timing.freeRun (s.lane n).rx.geometry)
      = s.modLane n (LaneBlocks.enterTest mode pattern s.now s.timing.freeRun) := by
    unfold State.modTest State.modRx
    rw [State.modLane_modLane, State.modLane_modLane]
    exact congrArg (fun lanes => ({ s with lanes := lanes } : State)) (Four.modify_congr rfl)
  have geometry : (((s.modTest n fun t => { t with pattern := pattern }).modRx n (Receiver.enterMode mode)).lane
      n).rx.geometry = (s.lane n).rx.geometry := by
    rw [lane_modRx_rx, State.modTest, State.lane_modLane_same]
    rfl
  have enters : s.setLaneMode n mode pattern o = (s.modTest n fun t => { t with pattern := pattern }).enterMode n mode := by
    refine (if_neg hm).trans ?_
    cases mode with
    | normal => exact absurd rfl hnormal
    | check => rfl
    | internal => rfl
  rw [enters, ← entered]
  exact congrArg (fun g => ((((((s.modTest n fun t => { t with pattern := pattern }).modRx n
    (Receiver.enterMode mode)).modTest n (LinkTest.enterMode mode s.now s.timing.freeRun g)).deliverLaneDown n).storeRelease
      n).checkMaster n)) geometry

theorem State.setLaneMode_normal (hm : .normal ≠ (s.lane n).rx.mode) : s.setLaneMode n .normal pattern o
    = if (s.lane n).rx.state = .off ∨ (s.lane n).rx.state = .lockedOut then s.modLane n (LaneBlocks.leaveTest pattern)
      else (s.modLane n (LaneBlocks.leaveTest pattern)).channelRestart n .mode o := by
  have left : ((s.modTest n fun t => { t with pattern := pattern }).modRx n fun r => { r with mode := .normal }).modTest n
      (fun t => { t.stopGenerator with injectPending := false }) = s.modLane n (LaneBlocks.leaveTest pattern) := by
    unfold State.modTest State.modRx
    rw [State.modLane_modLane, State.modLane_modLane]
    rfl
  have state : ((s.modTest n fun t => { t with pattern := pattern }).lane n).rx.state = (s.lane n).rx.state := by
    rw [State.modTest, State.lane_modLane_same]
  unfold State.setLaneMode
  simp only [if_neg hm]
  unfold State.returnToNormal
  simp only [state, left]

end SetMode

/-- What leaves a lane with blocks of its own leaves of the others. -/
theorem State.Left.others_modLane {n : Lane} {s t : State} {g : LaneBlocks → LaneBlocks} (h : (s.modLane n g).Left n t)
    (k : Lane) (hk : k ≠ n) : (t.lane k).rx.judged = (s.lane k).rx.judged ∧ (t.lane k).relay = (s.lane k).relay
      ∧ (t.lane k).test = (s.lane k).test := by
  rw [h.judged, h.relay k hk, h.test, State.lane_modLane_other g s hk]
  exact ⟨rfl, rfl, rfl⟩

theorem State.Left.here_modLane {n : Lane} {s t : State} {g : LaneBlocks → LaneBlocks} (h : (s.modLane n g).Left n t) :
    (t.lane n).rx.judged = (g (s.lane n)).rx.judged ∧ (t.lane n).test = (g (s.lane n)).test := by
  rw [h.judged, h.test, State.lane_modLane_same]
  exact ⟨rfl, rfl⟩

theorem exec_setLaneMode {m : Moment} {s : State} {c : CmdMessage} {n : Lane} {mode : LaneMode} {pattern : Pattern}
    (hr : s.ReadyFor 33 c) (hp : c.payload = [fourByte n, BitVec.ofNat 8 mode.code, BitVec.ofNat 8 pattern.code]) :
    exec (.setLaneMode m) s = .next (((s.replied m (c.reply .ok (byte1 (s.lane n).rx.mode.code))).setLaneMode n mode pattern
      c.origin).serve) := by
  have hmode : LaneMode.ofCode (byteAt c.payload 1) = some mode := by
    rw [hp]
    cases mode <;> rfl
  have hpattern : Pattern.ofCode (byteAt c.payload 2) = some pattern := by
    rw [hp]
    cases pattern <;> rfl
  show Host.Outcome.next _ = _
  rw [State.execute_taken hr, State.ofLength_of (by rw [hp]; rfl), State.ofLane_of hp, State.ofField_of hmode,
    State.ofField_of hpattern, State.lane_taken, State.answer_taken]

/-- What SET_LANE_MODE leaves, in each of its cases: one lane's Lane Receiver and Link Test Unit. -/
theorem State.left_setLaneMode (n : Lane) (mode : LaneMode) (pattern : Pattern) (o : Origin) (s : State) :
    ∃ g, (s.modLane n g).Left n (s.setLaneMode n mode pattern o) ∧ (g (s.lane n)).rx.mode = mode
      ∧ (g (s.lane n)).test.pattern = pattern := by
  by_cases hm : mode = (s.lane n).rx.mode
  · by_cases hp : pattern = (s.lane n).test.pattern
    · refine ⟨id, ?_, hm.symm, hp.symm⟩
      rw [State.setLaneMode_same hm hp]
      exact .of_eq (Four.modify_self (f := id) rfl).symm rfl rfl rfl rfl
    · rw [State.setLaneMode_pattern hm hp]
      refine ⟨_, .refl _, hm.symm, ?_⟩
      cases mode <;> rfl
  · by_cases hn : mode = .normal
    · subst hn
      rw [State.setLaneMode_normal hm]
      split
      · exact ⟨_, .refl _, rfl, rfl⟩
      · refine ⟨fun l => { l.leaveTest pattern with rx := (l.leaveTest pattern).rx.toSearching }, ?_, rfl, rfl⟩
        have searching := (s.modLane n (LaneBlocks.leaveTest pattern)).left_channelRestart n .mode o
        rwa [State.modRx, State.modLane_modLane] at searching
    · rw [State.setLaneMode_enter hm hn]
      refine ⟨_, ((State.Left.deliverLaneDown _).trans (.storeRelease _)).trans (.checkMaster n _), rfl, ?_⟩
      cases mode with
      | normal => exact absurd rfl hn
      | check => rfl
      | internal => rfl

/-- A FREE slot stays FREE through a lane down with release and loss of the master. -/
theorem State.ring_released_free {n : Lane} {s : State} {i : Fin 4} (h : (s.lane n).store.ring.get i = none) :
    (((((s.deliverLaneDown n).storeRelease n).checkMaster n).serve).lane n).store.ring.get i = none := by
  rw [State.serve_eq]
  refine State.ring_checkMaster ?_
  rw [State.lane_storeRelease, State.lane_deliverLaneDown]
  show (s.lane n).store.laneDown.release.ring.get i = none
  rw [LaneStore.get_release, LaneStore.get_laneDown, h, ite_self, ite_self]

/-- Settles O26. -/
theorem laneModeCompletes : Obligations.LaneModeCompletes := by
  unfold Obligations.LaneModeCompletes
  refine ⟨fun m s c n mode pattern hr hp => ?mode, fun m s c n hr hp => ?inject⟩
  case mode =>
    intro l r
    obtain ⟨g, left, hmode, hpattern⟩ := r.left_setLaneMode n mode pattern c.origin
    have left : (r.modLane n g).Left n (r.setLaneMode n mode pattern c.origin).serve := left.trans (.serve _)
    obtain ⟨judged, test⟩ := left.here_modLane
    refine ⟨_, exec_setLaneMode hr hp, rfl, (congrArg Receiver.mode judged).trans hmode,
      (congrArg LinkTest.pattern test).trans hpattern, fun hm hpat => ?same, fun hm hpat => ?pattern,
      fun hm hnormal => ?enter, fun hm hnormal => ?normal, fun k hk => left.others_modLane k hk, left.dram, left.pending,
      (congrArg CommandChannel.queue left.reports :)⟩
    case same => rw [State.setLaneMode_same (s := r) hm hpat]
    case pattern =>
      intro hunting
      rw [State.setLaneMode_pattern (s := r) hm hpat]
      refine congrArg State.serve (congrArg (fun lanes => ({ r with lanes := lanes } : State)) (Four.modify_congr ?_))
      cases mode with
      | normal => rfl
      | check => rfl
      | internal => cases pattern <;> rfl
    case enter =>
      have entered := State.setLaneMode_enter (s := r) (o := c.origin) (pattern := pattern) hm hnormal
      generalize htest : LinkTest.enterMode mode r.now r.timing.freeRun l.rx.geometry { l.test with pattern := pattern } = u
      have before : r.modLane n (LaneBlocks.enterTest mode pattern r.now r.timing.freeRun)
          = { r with lanes := s.lanes.modify n fun l => { l with rx := l.rx.enterMode mode, test := u } } := by
        rw [← htest]
        exact congrArg (fun lanes => ({ r with lanes := lanes } : State)) (Four.modify_congr rfl)
      rw [before] at entered
      have down : (State.modLane n (fun l => { l with rx := l.rx.enterMode mode, test := u }) r).Left n
          (r.setLaneMode n mode pattern c.origin).serve := by
        rw [entered]
        exact (((State.Left.deliverLaneDown _).trans (.storeRelease _)).trans (.checkMaster n _)).trans (.serve _)
      obtain ⟨hjudged, htested⟩ := down.here_modLane
      have ring (role : Role) (i : Fin 4) (hi : l.store.slotOf role = some i) :
          ((r.setLaneMode n mode pattern c.origin).serve.lane n).store.ring.get i = none := by
        rw [entered]
        refine State.ring_released (role := role) ?_
        show ((State.modLane n _ r).lane n).store.slotOf role = some i
        rw [State.lane_modLane_same]
        exact hi
      have hu : ((r.setLaneMode n mode pattern c.origin).serve.lane n).test = u := htested
      have video : (State.lane { r with lanes := s.lanes.modify n fun l =>
          { l with rx := l.rx.enterMode mode, test := u } } n).rx.video = false := by
        show ((State.modLane n _ r).lane n).rx.video = false
        rw [State.lane_modLane_same]
        show (((_ : LaneState) == .locked) && mode == .normal) = false
        rw [beq_eq_false_iff_ne.2 hnormal, Bool.and_false]
      refine ⟨hjudged, ?_, ?_, ring, fun hring i => ?_, ?_, fun hcheck => ?_, fun hinternal => ?_⟩
      · rw [entered]
        exact (((State.Left.storeRelease _).trans (.checkMaster n _)).trans (.serve _)).queue
          (State.queue_deliverLaneDown n _)
      · rw [State.timing_serve, entered]
        exact State.master_checkMaster ((((State.Left.deliverLaneDown _).trans (.storeRelease _)).video n).trans video)
      · cases hget : l.store.ring.get i with
        | some held => exact ring held.role i (LaneStore.slotOf_of_ringOk hring hget)
        | none =>
          rw [entered]
          refine State.ring_released_free ?_
          show ((State.modLane n _ r).lane n).store.ring.get i = none
          rw [State.lane_modLane_same]
          exact hget
      · rw [hu, entered]
        rfl
      · rw [hu, ← htest, hcheck]
        rfl
      · rw [hu, ← htest, hinternal]
        cases pattern <;> rfl
    case normal =>
      subst hnormal
      have run := State.setLaneMode_normal (s := r) (o := c.origin) (pattern := pattern) hm
      have stopped : ((r.setLaneMode n .normal pattern c.origin).serve.lane n).test = (l.leaveTest pattern).test := by
        rw [run]
        split
        · rw [State.serve_eq]
          exact (congrArg LaneBlocks.test (State.lane_modLane_same (n := n) (s := r) ..) :)
        · have searching := ((r.modLane n (LaneBlocks.leaveTest pattern)).left_channelRestart n .mode c.origin).trans
            (.serve _)
          rw [searching.others.2.2, State.lane_modLane_same]
          rfl
      have here : ((r.modLane n (LaneBlocks.leaveTest pattern)).lane n).rx = { l.rx with mode := .normal } := by
        rw [State.lane_modLane_same]
        rfl
      have congr (u : LinkTest) (hu : u = (l.leaveTest pattern).test) : ({ r with lanes := s.lanes.modify n fun l => { l with
          rx := { l.rx with mode := .normal }, test := u } } : State) = r.modLane n (LaneBlocks.leaveTest pattern) := by
        subst hu
        exact congrArg (fun lanes => ({ r with lanes := lanes } : State)) (Four.modify_congr rfl)
      refine ⟨stopped, ⟨fun hoff hlocked => ?_, fun hstate => ?_⟩, fun hoff hlocked => ?_, fun hstate => ?_⟩
      · rw [congr _ stopped, run]
        exact congrArg State.serve (if_neg (not_or.2 ⟨hoff, hlocked⟩))
      · rw [congr _ stopped, run]
        exact congrArg State.serve (if_pos hstate)
      · have searching := ((r.modLane n (LaneBlocks.leaveTest pattern)).left_channelRestart n .mode c.origin).trans
          (.serve _)
        rw [run, if_neg (show ¬((r.lane n).rx.state = .off ∨ (r.lane n).rx.state = .lockedOut) from
          not_or.2 ⟨hoff, hlocked⟩)]
        have judged := searching.others.1
        rw [here] at judged
        exact ⟨(congrArg Receiver.state judged :), (congrArg Receiver.attempts judged :)⟩
      · rw [run, if_pos (show (r.lane n).rx.state = .off ∨ (r.lane n).rx.state = .lockedOut from hstate), State.serve_eq]
        exact (congrArg Receiver.state here :)
  case inject =>
    have hlane := State.lane_taken m s n
    show Host.Outcome.next _ = _
    rw [State.execute_taken hr, State.ofLength_of (by rw [hp]; rfl), State.ofLane_of hp]
    by_cases hmode : (s.lane n).rx.mode = .internal
    · rw [if_neg (Classical.not_not.2 hmode), State.unless_of (by rw [hlane]; exact beq_iff_eq.2 hmode)]
      by_cases hpending : (s.lane n).test.injectPending = true
      · rw [if_pos hpending]
        refine congrArg Host.Outcome.next ((if_neg ?_).trans (State.refuse_taken s m c .busy))
        rw [hlane, hpending]
        decide
      · rw [if_neg hpending, State.unless_of (by rw [hlane]; simpa using hpending), State.modTest, State.answer_modLane]
    · rw [if_pos hmode]
      refine congrArg Host.Outcome.next ((if_neg ?_).trans (State.refuse_taken s m c .wrongState))
      rw [hlane]
      exact fun h => hmode (beq_iff_eq.1 h)

end Sys2Proof.Machine

/-! SUPPORT. The relay context's messages: appended, flushed, failed by the progress timer (R30, R34, R37, R38, R40). -/

namespace Sys2Proof.Machine

/-- A message appended to a queue that holds fewer than four (R38): it goes in flight at once when none is in flight and
no abort words are owed. -/
theorem Relay.append_eq (now : Nat) (msg : RelayMessage) (r : Relay) : r.append now msg
    = if r.inFlight = none ∧ r.abortOwed = 0 then { r with
        queue := r.queue ++ [msg], inFlight := some .sending, byteIndex := 0, offered := false, taken := 0, reply := []
        progressDue := some (now + msTicks r.timeout) }
      else { r with queue := r.queue ++ [msg] } := by
  unfold Relay.append Relay.launch
  by_cases hflight : r.inFlight = none <;> by_cases howed : r.abortOwed = 0 <;> simp [hflight, howed]

theorem Receiver.takesMessages_iff {r : Receiver} :
    r.takesMessages = true ↔ (r.state = .acquiring ∨ r.state = .locked) ∧ r.mode = .normal := by
  have receiving : r.state.receiving = true ↔ r.state = .acquiring ∨ r.state = .locked := by
    cases r.state <;> simp [LaneState.receiving]
  rw [Receiver.takesMessages, Bool.and_eq_true, receiving, beq_iff_eq]

/-- The context after a flush (R40). -/
theorem Relay.flush_context (n : Lane) (r : Relay) : (r.flush n).1
    = if r.inFlight.isSome = true then { r with
        queue := [], inFlight := none, progressDue := none, abortOwed := 2, sendToggle := true
        acceptedToggle := false, candidate := none }
      else { r with queue := [], inFlight := none, progressDue := none } := by
  simp only [Relay.flush, Relay.failAll, Relay.failInFlight]
  cases r.inFlight <;> cases r.queue <;> rfl

/-- The reports of a flush: the message in flight first, with its phase and counts, then the others (R37, R40). -/
theorem Relay.reports_flush (n : Lane) (r : Relay) : (r.flush n).2 = match r.inFlight, r.queue with
    | some phase, k :: rest => relayFailedReport n k .flushed phase.code r.taken r.reply.length
      :: rest.map fun k => relayFailedReport n k .flushed 0 0 0
    | _, queue => queue.map fun k => relayFailedReport n k .flushed 0 0 0 := by
  simp only [Relay.flush, Relay.failAll, Relay.failInFlight]
  cases r.inFlight <;> cases hqueue : r.queue <;> simp [hqueue]

theorem Relay.timeOut_of {r : Relay} {phase : RelayPhase} {k : RelayMessage} {rest : List RelayMessage}
    (hflight : r.inFlight = some phase) (hqueue : r.queue = k :: rest) (n : Lane) : r.timeOut n
    = ({ r with queue := rest, inFlight := none, progressDue := none, reply := [], abortOwed := 2, sendToggle := true
                acceptedToggle := false, candidate := none },
       [relayFailedReport n k .timeout phase.code r.taken r.reply.length]) := by
  simp only [Relay.timeOut, Relay.failInFlight, hflight, hqueue]
  rfl

theorem State.relayEvent_eq (n : Lane) (f : Relay → Relay × List Notice) (s : State) :
    s.relayEvent n f = (s.modRelay n fun _ => (f (s.lane n).relay).1).offerAll (f (s.lane n).relay).2 :=
  congrArg (fun lanes => State.offerAll (f (s.lane n).relay).2 { s with lanes := lanes }) (Four.modify_congr rfl)

/-- Settles O25. -/
theorem relayMessagesComplete : Obligations.RelayMessagesComplete := by
  unfold Obligations.RelayMessagesComplete
  refine ⟨fun m s c n bytes => ?commands, fun m s n due phase k rest hreset hle => ?timeout⟩
  case commands =>
    intro l holds
    have hlane := State.lane_taken m s n
    refine ⟨fun hr hp h1 h32 => ?message, fun hr hp hflight => ?flush⟩
    case message =>
      have hlen : ¬(c.payload.length < 2 ∨ 33 < c.payload.length) := by
        rw [hp, List.length_cons]
        omega
      show Host.Outcome.next _ = _
      rw [State.execute_taken hr, if_neg hlen, State.ofLane_of hp]
      by_cases hholds : holds
      · rw [if_neg (Classical.not_not.2 hholds), State.unless_of (by rw [hlane]; exact Receiver.takesMessages_iff.2 hholds)]
        by_cases hfull : 4 ≤ l.relay.queue.length
        · rw [if_pos hfull]
          refine congrArg Host.Outcome.next ((if_neg ?_).trans (State.refuse_taken s m c .full))
          rw [hlane]
          exact fun h => absurd (of_decide_eq_true h) (Nat.not_lt.2 hfull)
        · rw [if_neg hfull, State.unless_of (by rw [hlane]; exact decide_eq_true (Nat.not_le.1 hfull)), State.modRelay,
            State.answer_modLane]
          refine congrArg (fun lanes => Host.Outcome.next { s.replied m (c.reply .ok []) with lanes := lanes })
            (Four.modify_congr ?_)
          simp only [Relay.append_eq, hp, List.drop_one, List.tail_cons]
          rfl
      · rw [if_pos hholds]
        refine congrArg Host.Outcome.next ((if_neg ?_).trans (State.refuse_taken s m c .laneDown))
        rw [hlane]
        exact fun h => hholds (Receiver.takesMessages_iff.1 h)
    case flush =>
      intro r fate
      show Host.Outcome.next _ = _
      rw [State.execute_taken hr, State.ofLength_of (by rw [hp]; rfl), State.ofLane_of hp, hlane, State.answer_taken]
      refine congrArg Host.Outcome.next (congr_both (fun lanes list => State.offerAll list { r with lanes := lanes })
        (Four.modify_congr (congrArg (fun x => { s.lane n with relay := x }) (Relay.flush_context n _))) ?_)
      refine (Relay.reports_flush n l.relay).trans ?_
      cases l.relay.inFlight with
      | none => exact rfl
      | some phase => cases l.relay.queue <;> cases phase <;> exact rfl
  case timeout =>
    intro r hflight hqueue hdue
    have due : (((s.advance m).lane n).relay.inFlight.isSome && expired ((s.advance m).lane n).relay.progressDue
        (s.advance m).now) = true := by
      show (r.inFlight.isSome && expired r.progressDue (max s.now m.tick)) = true
      rw [hflight, hdue]
      simpa [expired] using hle
    show Host.Outcome.next _ = _
    rw [State.onEvent_of_due hreset due, State.relayEvent_eq]
    refine congrArg Host.Outcome.next ?_
    rw [show ((s.advance m).lane n).relay = r from rfl, Relay.timeOut_of hflight hqueue]
    cases phase <;> rfl

end Sys2Proof.Machine

/-! SUPPORT. The purge commands and the purge timers, and the PURGEn lines (R109, R111 to R117). -/

namespace Sys2Proof.Machine

theorem State.purgeEvent_eq (n : Lane) (f : Purge → Purge × List Notice) (s : State) :
    s.purgeEvent n f = (s.modPurge n fun _ => (f (s.lane n).purge).1).offerAll (f (s.lane n).purge).2 :=
  congrArg (fun lanes => State.offerAll (f (s.lane n).purge).2 { s with lanes := lanes }) (Four.modify_congr rfl)

/-! ### The PURGEn lines -/

theorem State.purgeLine_iff (s : State) (n : Lane) : s.purgeLine n = true ↔ (s.lane n).purge.state = .pulse := by
  rw [State.purgeLine, beq_iff_eq]

/-- An event that changes lane `n`'s purge alone leaves every other lane's line. -/
theorem State.purgeLine_of_lanes {s t : State} {n : Lane} {f : LaneBlocks → LaneBlocks}
    (h : t.lanes = s.lanes.modify n f) :
    t.purgeLine n = ((f (s.lane n)).purge.state == .pulse) ∧ ∀ k, k ≠ n → t.purgeLine k = s.purgeLine k := by
  refine ⟨?_, fun k hk => ?_⟩
  · rw [State.purgeLine, State.lane, h, Four.get_modify_same]
    rfl
  · rw [State.purgeLine, State.lane, h, Four.get_modify_other _ _ hk]
    rfl

@[simp] theorem State.purgeLine_offer (nt : Notice) (s : State) (n : Lane) : (s.offer nt).purgeLine n = s.purgeLine n := by
  rw [State.offer_eq]
  rfl

/-! ### PURGE_NOW and PURGE_REARM (R116, R117) -/

section Commands

variable {m : Moment} {s : State} {c : CmdMessage} {n : Lane}

theorem exec_purgeNow_busy (hr : s.ReadyFor 23 c) (hp : c.payload = [fourByte n])
    (hfreezes : (s.lane n).purge.freezes = true) : exec (.purgeNow m) s = .next (s.replied m (c.reply .busy [])) := by
  show Host.Outcome.next _ = _
  rw [State.execute_taken hr, State.ofLength_of (by rw [hp]; rfl), State.ofLane_of hp]
  refine congrArg Host.Outcome.next ((if_neg ?_).trans (State.refuse_taken s m c .busy))
  rw [State.lane_taken, hfreezes]
  exact Bool.false_ne_true

theorem exec_purgeNow_blows (hr : s.ReadyFor 23 c) (hp : c.payload = [fourByte n])
    (hfreezes : (s.lane n).purge.freezes = false) : exec (.purgeNow m) s = .next
      (({ s.replied m (c.reply .ok []) with
        lanes := s.lanes.modify n fun l => { l with purge :=
          (l.purge.manualBlow n (max s.now m.tick) c.origin).1 } }).offerAll
        ((s.lane n).purge.manualBlow n (max s.now m.tick) c.origin).2) := by
  show Host.Outcome.next _ = _
  rw [State.execute_taken hr, State.ofLength_of (by rw [hp]; rfl), State.ofLane_of hp,
    State.unless_of (by rw [State.lane_taken, hfreezes]; rfl), State.answer_taken]
  rfl

theorem exec_purgeRearm_halted (hr : s.ReadyFor 24 c) (hp : c.payload = [fourByte n])
    (hhalted : (s.lane n).purge.state = .halted) : exec (.purgeRearm m) s = .next { s.replied m (c.reply .ok []) with
      lanes := s.lanes.modify n fun l => { l with purge := l.purge.rearm } } := by
  show Host.Outcome.next _ = _
  rw [State.execute_taken hr, State.ofLength_of (by rw [hp]; rfl), State.ofLane_of hp,
    State.unless_of (by rw [State.lane_taken, hhalted]; rfl), State.modPurge, State.answer_modLane]

theorem exec_purgeRearm_refused (hr : s.ReadyFor 24 c) (hp : c.payload = [fourByte n])
    (hhalted : (s.lane n).purge.state ≠ .halted) :
    exec (.purgeRearm m) s = .next (s.replied m (c.reply .wrongState [])) := by
  show Host.Outcome.next _ = _
  rw [State.execute_taken hr, State.ofLength_of (by rw [hp]; rfl), State.ofLane_of hp]
  refine congrArg Host.Outcome.next ((if_neg ?_).trans (State.refuse_taken s m c .wrongState))
  rw [State.lane_taken, beq_iff_eq]
  exact hhalted

end Commands

theorem Purge.freezes_iff {p : Purge} : p.freezes = true ↔ p.state = .pulse ∨ p.state = .settle := by
  rw [Purge.freezes, Bool.or_eq_true, beq_iff_eq, beq_iff_eq]

/-! ### The rest's end (R113) -/

theorem Purge.soiled_iff {p : Purge} : p.soiled = true ↔ ∃ k, p.lastSoiled = some k ∧ p.settings.nsoil ≤ k := by
  unfold Purge.soiled
  cases p.lastSoiled <;> simp

section Rest

variable {p : Purge} {video : Bool}

theorem Purge.restOutcome_halt (hreturn : p.returnHalted = false) (hsoiled : p.soiled = true)
    (hlimit : p.settings.kmax ≤ p.consecutive) : p.restOutcome video = .halt := by
  simp [Purge.restOutcome, hreturn, hsoiled, hlimit]

theorem Purge.restOutcome_again (hreturn : p.returnHalted = false) (hsoiled : p.soiled = true)
    (hlimit : p.consecutive < p.settings.kmax) (hauto : p.settings.auto = true) (hvideo : video = true) :
    p.restOutcome video = .again := by
  simp [Purge.restOutcome, hreturn, hsoiled, Nat.not_le.2 hlimit, hauto, hvideo]

theorem Purge.restOutcome_idle (hreturn : p.returnHalted = false)
    (h : ¬p.soiled = true ∨ (p.consecutive < p.settings.kmax ∧ ¬(p.settings.auto = true ∧ video = true))) :
    p.restOutcome video = .idle := by
  rcases h with h | ⟨hlimit, hauto⟩
  · simp [Purge.restOutcome, hreturn, h]
  · simp only [Purge.restOutcome, hreturn, Bool.and_eq_true, decide_eq_true_eq, Nat.not_le.2 hlimit, and_false,
      Bool.false_eq_true, if_false, and_assoc, hauto]

theorem Purge.endCooldown_returnHalted (h : p.restOutcome video = .returnHalted) (n : Lane) (now : Nat) :
    p.endCooldown n now video = ({ p with cooldownDue := none, state := .halted, returnHalted := false }, []) := by
  simp only [Purge.endCooldown, h]

theorem Purge.endCooldown_halt (h : p.restOutcome video = .halt) (n : Lane) (now : Nat) :
    p.endCooldown n now video = ({ p with cooldownDue := none, state := .halted, halts := count p.halts 1 },
      [purgeHaltedReport n p.consecutive p.lastSoiled]) := by
  simp only [Purge.endCooldown, h]

theorem Purge.endCooldown_again (h : p.restOutcome video = .again) (n : Lane) (now : Nat) :
    p.endCooldown n now video = ({ p with cooldownDue := none }.autoBlow now,
      [purgeStartedReport n .repeated (satAdd 255 p.consecutive 1) p.lastSoiled none]) := by
  simp only [Purge.endCooldown, h]
  rfl

theorem Purge.endCooldown_idle (h : p.restOutcome video = .idle) (n : Lane) (now : Nat) :
    p.endCooldown n now video = ({ p with cooldownDue := none, state := .idle }, []) := by
  simp only [Purge.endCooldown, h]

/-- The end of a rest that does not halt the purge raises no flag. -/
theorem State.endRest_of {s : State} {n : Lane} (hp : (s.lane n).purge = p) (hv : (s.lane n).rx.video = video)
    (h : p.restOutcome video ≠ .halt) : s.endRest n = s.purgeEvent n fun _ => p.endCooldown n s.now video := by
  subst hp hv
  refine (congrArg (fun t : State => t.purgeEvent n (Purge.endCooldown n t.now (s.lane n).rx.video)) (if_neg h)).trans ?_
  rw [State.purgeEvent_eq, State.purgeEvent_eq]

theorem State.endRest_halt {s : State} {n : Lane} (hp : (s.lane n).purge = p) (hv : (s.lane n).rx.video = video)
    (h : p.restOutcome video = .halt) :
    s.endRest n = (s.raise (.lensSoiled n)).purgeEvent n fun _ => p.endCooldown n s.now video := by
  subst hp hv
  refine (congrArg (fun t : State => t.purgeEvent n (Purge.endCooldown n t.now (s.lane n).rx.video)) (if_pos h)).trans ?_
  rw [State.purgeEvent_eq, State.purgeEvent_eq]
  rfl

end Rest

/-- Settles O27. -/
theorem purgeCompletes : Obligations.PurgeCompletes := by
  unfold Obligations.PurgeCompletes
  refine ⟨State.purgeLine_iff, fun m s c n hp => ⟨fun hr => ?now, fun hr => ?rearm⟩, fun m s n due hreset hle => ?timers⟩
  case now =>
    intro t
    by_cases hfreezes : (s.lane n).purge.freezes = true
    · have ht : t = s.replied m (c.reply .busy []) := if_pos (Purge.freezes_iff.1 hfreezes)
      refine ⟨(exec_purgeNow_busy hr hp hfreezes).trans (congrArg _ ht.symm), ?_, fun k _ =>
        (congrArg (State.purgeLine · k) ht :)⟩
      rw [ht, State.purgeLine_iff]
      show (s.lane n).purge.state = .pulse ↔ _
      rcases Purge.freezes_iff.1 hfreezes with h | h <;> simp [h]
    · have ht : t = _ := if_neg (mt Purge.freezes_iff.2 hfreezes)
      obtain ⟨-, -, hnumber, -⟩ := id hr
      have hlanes : t.lanes = s.lanes.modify n fun l => { l with purge :=
          (l.purge.manualBlow n (max s.now m.tick) c.origin).1 } := by
        rw [ht, State.offer_eq]
        rfl
      obtain ⟨line, others⟩ := State.purgeLine_of_lanes hlanes
      refine ⟨(exec_purgeNow_blows hr hp (Bool.eq_false_iff.2 hfreezes)).trans (congrArg Host.Outcome.next ?_), ?_, others⟩
      · rw [ht, CmdMessage.origin, hnumber]
        rfl
      · rw [line]
        exact iff_of_true rfl fun h => hfreezes (Purge.freezes_iff.2 (.inr h))
  case rearm =>
    intro t
    by_cases hhalted : (s.lane n).purge.state = .halted
    · have ht : t = _ := if_pos hhalted
      refine ⟨(exec_purgeRearm_halted hr hp hhalted).trans (congrArg _ ht.symm), fun k => ?_⟩
      have hlanes : t.lanes = s.lanes.modify n fun l => { l with purge := l.purge.rearm } := congrArg State.lanes ht
      obtain ⟨line, others⟩ := State.purgeLine_of_lanes hlanes
      by_cases hk : k = n
      · subst hk
        rw [line, State.purgeLine, hhalted]
        rfl
      · exact others k hk
    · have ht : t = _ := if_neg hhalted
      exact ⟨(exec_purgeRearm_refused hr hp hhalted).trans (congrArg _ ht.symm), fun k =>
        (congrArg (State.purgeLine · k) ht :)⟩
  case timers =>
    intro p now set goes soiled video
    have changed {q : Purge} {t : State} (h : t.lanes = ((s.advance m).modPurge n fun _ => q).lanes) :
        t.purgeLine n = (q.state == .pulse) ∧ ∀ k, k ≠ n → t.purgeLine k = s.purgeLine k :=
      State.purgeLine_of_lanes (f := fun l => { l with purge := q }) h
    have hnow : decide (due ≤ (s.advance m).now) = true := decide_eq_true hle
    refine ⟨fun hstate hdue => ⟨?_, changed rfl⟩, fun hstate hdue => ⟨?_, changed rfl⟩, fun hstate hdue => ?rest⟩
    · have running : (((s.advance m).lane n).purge.state == .pulse
          && expired ((s.advance m).lane n).purge.pulseDue (s.advance m).now) = true := by
        show (p.state == .pulse && expired p.pulseDue _) = true
        rw [hstate, hdue]
        exact hnow
      refine congrArg Host.Outcome.next ((State.onEvent_of_due hreset running _).trans ?_)
      exact congrArg (fun lanes => { s.advance m with lanes := lanes }) (Four.modify_congr rfl)
    · have running : (((s.advance m).lane n).purge.state == .settle
          && expired ((s.advance m).lane n).purge.settleDue (s.advance m).now) = true := by
        show (p.state == .settle && expired p.settleDue _) = true
        rw [hstate, hdue]
        exact hnow
      refine congrArg Host.Outcome.next ((State.onEvent_of_due hreset running _).trans ?_)
      exact congrArg (fun lanes => { s.advance m with lanes := lanes }) (Four.modify_congr rfl)
    case rest =>
      have hsoiled : p.soiled = true ↔ soiled := Purge.soiled_iff
      have hvideo : (s.lane n).rx.video = true ↔ video := Receiver.video_iff
      have hexec : exec (.cooldownTimerExpiry m n) s = .next ((s.advance m).endRest n) := by
        have running : (((s.advance m).lane n).purge.state == .cooldown
            && expired ((s.advance m).lane n).purge.cooldownDue (s.advance m).now) = true := by
          show (p.state == .cooldown && expired p.cooldownDue _) = true
          rw [hstate, hdue]
          exact hnow
        exact congrArg Host.Outcome.next (State.onEvent_of_due hreset running _)
      have ends {t : State} {x y : Purge × List Notice} (h : x = y) :
          (t.purgeEvent n fun _ => x) = (t.modPurge n fun _ => y.1).offerAll y.2 :=
        congrArg (fun z => t.purgeEvent n fun _ => z) h
      refine ⟨fun hreturn => ?_, fun hreturn hs hlimit => ?_, fun hreturn hs hlimit hauto hv => ?_, fun hreturn h => ?_⟩
      · have outcome : p.restOutcome (s.lane n).rx.video = .returnHalted := if_pos hreturn
        exact ⟨hexec.trans (congrArg _ ((State.endRest_of (s := s.advance m) rfl rfl
          fun h => nomatch outcome.symm.trans h).trans (ends (Purge.endCooldown_returnHalted outcome n _)))), changed rfl⟩
      · have outcome := Purge.restOutcome_halt (video := (s.lane n).rx.video) hreturn (hsoiled.2 hs) hlimit
        refine ⟨hexec.trans (congrArg _ ((State.endRest_halt (s := s.advance m) rfl rfl outcome).trans
          (ends (Purge.endCooldown_halt outcome n _)))), ?_⟩
        simp only [State.purgeLine_offer]
        exact changed rfl
      · have outcome := Purge.restOutcome_again hreturn (hsoiled.2 hs) hlimit hauto (hvideo.2 hv)
        refine ⟨hexec.trans (congrArg _ ((State.endRest_of (s := s.advance m) rfl rfl
          fun h => nomatch outcome.symm.trans h).trans (ends (Purge.endCooldown_again outcome n _)))), ?_⟩
        simp only [State.purgeLine_offer]
        exact changed rfl
      · have outcome := Purge.restOutcome_idle (video := (s.lane n).rx.video) hreturn (by rwa [hsoiled, hvideo])
        exact ⟨hexec.trans (congrArg _ ((State.endRest_of (s := s.advance m) rfl rfl
          fun h => nomatch outcome.symm.trans h).trans (ends (Purge.endCooldown_idle outcome n _)))), changed rfl⟩

end Sys2Proof.Machine

/-! SUPPORT. What a camera packet is parsed as (R179, R180). -/

namespace Sys2Proof.Machine

/-- A header with a good check: kind and frame number, words 1 and 3, the reply byte and the relay flags (R180). -/
def packetHeader (kind number w1 w3 : Nat) (reply flags : Byte) : List Byte :=
  withCrc ([BitVec.ofNat 8 (16 * kind + number)] ++ byte2 w1 ++ byte2 w3 ++ [reply, flags])

section Header

variable {kind number w1 w3 : Nat} {reply flags : Byte} (rest : List Byte)

theorem length_packetHeader_append : (packetHeader kind number w1 w3 reply flags ++ rest).length = 9 + rest.length :=
  List.length_append

theorem headerGood_packetHeader : headerGood (packetHeader kind number w1 w3 reply flags ++ rest) = true := by
  rw [headerGood, beq_iff_eq]
  rfl

theorem byteAt_packetHeader_zero (hk : kind < 16) (hn : number < 16) :
    byteAt (packetHeader kind number w1 w3 reply flags ++ rest) 0 = 16 * kind + number := by
  show (BitVec.ofNat 8 (16 * kind + number)).toNat = _
  rw [BitVec.toNat_ofNat]
  omega

theorem wordAt_packetHeader_one (h : w1 < 65536) :
    wordAt (packetHeader kind number w1 w3 reply flags ++ rest) 1 = w1 := by
  rw [wordAt_wordOf]
  exact wordOf_byte2 h

theorem wordAt_packetHeader_three (h : w3 < 65536) :
    wordAt (packetHeader kind number w1 w3 reply flags ++ rest) 3 = w3 := by
  rw [wordAt_wordOf]
  exact wordOf_byte2 h

theorem relayFields_packetHeader : relayFields (packetHeader kind number w1 w3 reply flags ++ rest)
    = ⟨flags.getLsbD 7, reply, flags.getLsbD 6, flags.getLsbD 5, flags.getLsbD 4⟩ := rfl

theorem drop_packetHeader (k : Nat) :
    (packetHeader kind number w1 w3 reply flags ++ rest).drop (9 + k) = rest.drop k := by
  rw [← List.drop_drop]
  rfl

theorem packetKind_packetHeader (hk : kind < 16) (hn : number < 16) :
    packetKind (packetHeader kind number w1 w3 reply flags ++ rest) = if kind = 1 then some .frameStart
      else if kind = 2 then some .line else if kind = 3 then some .frameEnd else none := by
  rw [packetKind, byteAt_packetHeader_zero rest hk hn, show (16 * kind + number) / 16 = kind by omega]
  match kind with
  | 0 | 1 | 2 | 3 => rfl
  | _ + 4 => rfl

end Header

/-! ### The cases of the parse -/

theorem parsePacket_short {bytes : List Byte} (h : bytes.length < 9) : parsePacket bytes = none :=
  if_pos (by rw [decide_eq_true h, Bool.true_or])

theorem parsePacket_badCheck {bytes : List Byte} (h : headerGood bytes = false) : parsePacket bytes = none :=
  if_pos (by rw [h, Bool.not_false, Bool.or_true])

section Parse

variable {bytes : List Byte} (hlen : 9 ≤ bytes.length) (hgood : headerGood bytes = true)
include hlen hgood

theorem headerGood_passes : ¬(decide (bytes.length < 9) || !headerGood bytes) = true := by
  rw [hgood, decide_eq_false (Nat.not_lt.2 hlen)]
  exact Bool.false_ne_true

theorem parsePacket_unknown (hkind : packetKind bytes = none) : parsePacket bytes = none := by
  rw [parsePacket, if_neg (headerGood_passes hlen hgood), hkind]

theorem parsePacket_line (hkind : packetKind bytes = some .line) : parsePacket bytes =
    if bytes.length < 11 then none
    else some ⟨.line, byteAt bytes 0 % 16, wordAt bytes 1, 0, relayFields bytes, linePayload bytes,
      crcBytes (linePayload bytes) == bytes.drop (bytes.length - 2)⟩ := by
  rw [parsePacket, if_neg (headerGood_passes hlen hgood), hkind]

theorem parsePacket_frame {kind : PacketKind} (hkind : packetKind bytes = some kind) (hne : kind ≠ .line) :
    parsePacket bytes = if bytes.length = 9 then
      some ⟨kind, byteAt bytes 0 % 16, wordAt bytes 1, wordAt bytes 3, relayFields bytes, [], true⟩ else none := by
  rw [parsePacket, if_neg (headerGood_passes hlen hgood), hkind]
  cases kind with
  | line => exact absurd rfl hne
  | frameStart | frameEnd => rfl

end Parse

section Header

variable {kind number w1 w3 : Nat} {reply flags : Byte} {rest : List Byte}

theorem parsePacket_packetHeader_frame {k : PacketKind} (hn : number < 16) (h1 : w1 < 65536) (h3 : w3 < 65536)
    (hk : kind = 1 ∧ k = .frameStart ∨ kind = 3 ∧ k = .frameEnd) :
    parsePacket (packetHeader kind number w1 w3 reply flags ++ rest) = if rest = [] then
      some ⟨k, number, w1, w3, ⟨flags.getLsbD 7, reply, flags.getLsbD 6, flags.getLsbD 5, flags.getLsbD 4⟩, [], true⟩
      else none := by
  have hlen := length_packetHeader_append (kind := kind) (number := number) (w1 := w1) (w3 := w3) (reply := reply)
    (flags := flags) rest
  have hk16 : kind < 16 := by omega
  have hkind : packetKind (packetHeader kind number w1 w3 reply flags ++ rest) = some k ∧ k ≠ .line := by
    rw [packetKind_packetHeader rest hk16 hn]
    rcases hk with ⟨rfl, rfl⟩ | ⟨rfl, rfl⟩ <;> exact ⟨rfl, nofun⟩
  have hempty : 9 + rest.length = 9 ↔ rest = [] := by
    rw [← List.length_eq_zero_iff]
    omega
  rw [parsePacket_frame (by omega) (headerGood_packetHeader rest) hkind.1 hkind.2, hlen, ite_of_iff hempty rfl rfl,
    byteAt_packetHeader_zero rest hk16 hn, wordAt_packetHeader_one rest h1, wordAt_packetHeader_three rest h3,
    relayFields_packetHeader, show (16 * kind + number) % 16 = number by omega]

theorem parsePacket_packetHeader_line (hn : number < 16) (h1 : w1 < 65536) {payload : List Byte} {a b : Byte}
    (hrest : rest = payload ++ [a, b]) : parsePacket (packetHeader 2 number w1 w3 reply flags ++ rest)
      = some ⟨.line, number, w1, 0, ⟨flags.getLsbD 7, reply, flags.getLsbD 6, flags.getLsbD 5, flags.getLsbD 4⟩,
        payload, crcBytes payload == [a, b]⟩ := by
  have hlen := length_packetHeader_append (kind := 2) (number := number) (w1 := w1) (w3 := w3) (reply := reply)
    (flags := flags) rest
  have hrestLen : rest.length = payload.length + 2 := by rw [hrest, List.length_append]; rfl
  have hpayload : linePayload (packetHeader 2 number w1 w3 reply flags ++ rest) = payload := by
    rw [linePayload, hlen, drop_packetHeader rest 0, List.drop_zero,
      show 9 + rest.length - 11 = payload.length by omega, hrest, List.take_left]
  have hcheck : (packetHeader 2 number w1 w3 reply flags ++ rest).drop (9 + rest.length - 2) = [a, b] := by
    rw [show 9 + rest.length - 2 = 9 + payload.length by omega, drop_packetHeader, hrest, List.drop_left]
  rw [parsePacket_line (by omega) (headerGood_packetHeader rest) (packetKind_packetHeader rest (kind := 2) (by decide) hn), hlen,
    if_neg (by omega), hpayload, hcheck, byteAt_packetHeader_zero rest (by decide) hn, wordAt_packetHeader_one rest h1,
    relayFields_packetHeader, show (16 * 2 + number) % 16 = number by omega]

end Header

/-- Settles O28. -/
theorem packetsAreParsed : Obligations.PacketsAreParsed := by
  unfold Obligations.PacketsAreParsed
  intro number w1 w3 reply flags payload hn h1 h3 header relay
  have good (kind : Nat) (rest : List Byte) : headerGood (header kind ++ rest) = true := headerGood_packetHeader rest
  have length (kind : Nat) (rest : List Byte) : (header kind ++ rest).length = 9 + rest.length :=
    length_packetHeader_append rest
  have frame {kind : Nat} {k : PacketKind} (rest : List Byte)
      (hk : kind = 1 ∧ k = .frameStart ∨ kind = 3 ∧ k = .frameEnd) : parsePacket (header kind ++ rest)
        = if rest = [] then some ⟨k, number, w1, w3, relay, [], true⟩ else none :=
    parsePacket_packetHeader_frame hn h1 h3 hk
  have line {rest : List Byte} (a b : Byte) (hrest : rest = payload ++ [a, b]) :
      parsePacket (header 2 ++ rest) = some ⟨.line, number, w1, 0, relay, payload, crcBytes payload == [a, b]⟩ :=
    parsePacket_packetHeader_line hn h1 hrest
  refine ⟨?_, ?_, ?_, fun a b hne => ?_, fun kind hk hne1 hne2 hne3 => ?_, fun hne => ⟨?_, ?_⟩, fun hshort => ?_,
    fun bytes => parsePacket_short, fun bytes h => parsePacket_badCheck (beq_eq_false_iff_ne.2 h)⟩
  · exact (congrArg parsePacket (List.append_nil _).symm).trans (frame [] (.inl ⟨rfl, rfl⟩))
  · exact (congrArg parsePacket (List.append_nil _).symm).trans (frame [] (.inr ⟨rfl, rfl⟩))
  · obtain ⟨a, b, hcrc⟩ := crcBytes_pair payload
    rw [line a b (by rw [withCrc, hcrc]), hcrc, beq_self_eq_true]
  · rw [List.append_assoc, line a b rfl, beq_eq_false_iff_ne.2 hne.symm]
  · refine parsePacket_unknown (by rw [length]; omega) (good kind payload) ((packetKind_packetHeader payload hk hn).trans ?_)
    rw [if_neg hne1, if_neg hne2, if_neg hne3]
  · exact (frame payload (.inl ⟨rfl, rfl⟩)).trans (if_neg hne)
  · exact (frame payload (.inr ⟨rfl, rfl⟩)).trans (if_neg hne)
  · rw [parsePacket_line (by rw [length]; omega) (good 2 payload) (packetKind_packetHeader payload (kind := 2) (by decide) hn), length,
      if_pos (by omega)]

end Sys2Proof.Machine

/-! SUPPORT. A camera packet as the lane takes it: counted, handed to the relay, and judged by the lane's state; what a
change of one lane's blocks leaves; and the packets that open nothing (R2, R4, R7, R28). -/

namespace Sys2Proof.Machine

/-! ### Reception -/

/-- A counter raised `k` times at once, as the statements write it: unchanged when `k` is 0. -/
def raised (x k : Nat) : Nat := if k = 0 then x else min 4294967295 (x + k)

@[simp] theorem raised_zero (x : Nat) : raised x 0 = x := rfl

/-- A lane's blocks with the packet counted and the relay's answer taken (R2, R28). -/
def LaneBlocks.receive (relay : Relay) (l : LaneBlocks) : LaneBlocks :=
  { l with
    relay := relay
    rx := { l.rx with counters := { l.rx.counters with
      packetsReceived := min 4294967295 (l.rx.counters.packetsReceived + 1) } } }

/-- The state in which a packet of lane `n` is judged: counted, and handed to the relay with its reports offered. -/
def State.received (m : Moment) (n : Lane) (fields : Option RelayFields) (s : State) : State :=
  let relay := Relay.takePacket n (max s.now m.tick) fields (s.lane n).relay
  ((s.advance m).modLane n (LaneBlocks.receive relay.1)).offerAll relay.2

theorem Receiver.hearsCamera_iff {r : Receiver} : r.hearsCamera = true ↔ r.state ≠ .off ∧ r.mode ≠ .internal := by
  rw [Receiver.hearsCamera, Bool.and_eq_true, bne_iff_ne, bne_iff_ne]

theorem exec_cameraPacket_of {m : Moment} {s : State} {n : Lane} (bytes : List Byte) (hreset : s.resetAsserted = false)
    (hoff : (s.lane n).rx.state ≠ .off) (hmode : (s.lane n).rx.mode ≠ .internal) : exec (.cameraPacket m n bytes) s
      = .next ((s.received m n ((parsePacket bytes).map (·.relay))).lanePacket n (parsePacket bytes)).serve := by
  have hears : ((s.advance m).lane n).rx.hearsCamera = true := Receiver.hearsCamera_iff.2 ⟨hoff, hmode⟩
  refine congrArg Host.Outcome.next ((State.onEvent_of_due hreset hears _).trans ?_)
  refine congrArg (fun t : State => (t.lanePacket n (parsePacket bytes)).serve) ((State.relayEvent_eq _ _ _).trans ?_)
  have hlane : ((s.advance m).countPacket n).lane n = LaneBlocks.receive (s.lane n).relay (s.lane n) :=
    State.lane_modLane_same n _ (s.advance m)
  rw [hlane]
  refine congrArg (fun t : State => t.offerAll _) ?_
  exact State.modLane_modLane n _ _ (s.advance m)

/-! ### A change of lane `n` alone -/

/-- From `s` to `t` lane `n`'s blocks became `l` and `reports` were offered; the other lanes, the output timing, the
Compositor, the DRAM, the job queue and the queue of events stayed. -/
structure State.LaneMoved (n : Lane) (l : LaneBlocks) (reports : List Notice) (s t : State) : Prop where
  here : t.lane n = l
  others : ∀ k, k ≠ n → t.lane k = s.lane k
  chan : t.chan = (s.offerAll reports).chan
  timing : t.timing = s.timing
  comp : t.comp = s.comp
  dram : t.dram = s.dram
  jobs : t.jobs = s.jobs
  pending : t.pending = s.pending

theorem State.chan_offerAll (l : List Notice) (s : State) : (s.offerAll l).chan = s.chan.takeReports l := by
  rw [State.offerAll_eq]

namespace State.LaneMoved

variable {n : Lane} {l : LaneBlocks} {reports : List Notice} {s t : State}

theorem modLane (h : LaneMoved n l reports s t) (f : LaneBlocks → LaneBlocks) :
    LaneMoved n (f l) reports s (t.modLane n f) :=
  { h with
    here := by rw [State.lane_modLane_same, h.here]
    others := fun k hk => by rw [State.lane_modLane_other _ _ hk, h.others k hk] }

theorem offer (h : LaneMoved n l reports s t) (nt : Notice) : LaneMoved n l (reports ++ [nt]) s (t.offer nt) := by
  have hoffer := State.offer_eq nt t
  have lanes (k : Lane) : (t.offer nt).lane k = t.lane k := by rw [hoffer]; rfl
  have hchan : (s.offerAll (reports ++ [nt])) = (s.offerAll reports).offer nt := List.foldl_append
  refine ⟨(lanes n).trans h.here, fun k hk => (lanes k).trans (h.others k hk), ?_,
    (congrArg State.timing hoffer).trans h.timing, (congrArg State.comp hoffer).trans h.comp,
    (congrArg State.dram hoffer).trans h.dram, (congrArg State.jobs hoffer).trans h.jobs,
    (congrArg State.pending hoffer).trans h.pending⟩
  rw [hchan, State.offer_eq, State.offer_eq, h.chan]

theorem serve (h : LaneMoved n l reports s t) : LaneMoved n l reports s t.serve := by
  have hserve := State.serve_eq t
  have lanes (k : Lane) : t.serve.lane k = t.lane k := by rw [hserve]; rfl
  exact ⟨(lanes n).trans h.here, fun k hk => (lanes k).trans (h.others k hk),
    (congrArg State.chan hserve).trans h.chan, (congrArg State.timing hserve).trans h.timing,
    (congrArg State.comp hserve).trans h.comp, (congrArg State.dram hserve).trans h.dram,
    (congrArg State.jobs hserve).trans h.jobs, (congrArg State.pending hserve).trans h.pending⟩

theorem modArb (h : LaneMoved n l reports s t) (f : Arbiter → Arbiter) : LaneMoved n l reports s (t.modArb f) := { h with }

theorem rx (h : LaneMoved n l reports s t) : (t.lane n).rx = l.rx := congrArg LaneBlocks.rx h.here

theorem relay (h : LaneMoved n l reports s t) : (t.lane n).relay = l.relay := congrArg LaneBlocks.relay h.here

theorem store (h : LaneMoved n l reports s t) : (t.lane n).store = l.store := congrArg LaneBlocks.store h.here

theorem dust (h : LaneMoved n l reports s t) : (t.lane n).dust = l.dust := congrArg LaneBlocks.dust h.here

theorem motion (h : LaneMoved n l reports s t) : (t.lane n).motion = l.motion := congrArg LaneBlocks.motion h.here

theorem purge (h : LaneMoved n l reports s t) : (t.lane n).purge = l.purge := congrArg LaneBlocks.purge h.here

theorem test (h : LaneMoved n l reports s t) : (t.lane n).test = l.test := congrArg LaneBlocks.test h.here

theorem received (m : Moment) (n : Lane) (fields : Option RelayFields) (s : State) :
    let relay := Relay.takePacket n (max s.now m.tick) fields (s.lane n).relay
    LaneMoved n ((s.lane n).receive relay.1) relay.2 s (s.received m n fields) := by
  intro relay
  have hr : s.received m n fields = { s.advance m with
      lanes := s.lanes.modify n (LaneBlocks.receive relay.1), chan := s.chan.takeReports relay.2 } :=
    State.offerAll_eq _ _
  refine ⟨?_, fun k hk => ?_, ?_, ?_, ?_, ?_, ?_, ?_⟩
  · rw [hr]
    exact Four.get_modify_same _ _ _
  · rw [hr]
    exact Four.get_modify_other _ _ hk
  · rw [hr, State.chan_offerAll]
  all_goals rw [hr]; rfl

end State.LaneMoved

/-- What the judging of a packet sees of the lane that receives it. -/
theorem State.lane_received (m : Moment) (n : Lane) (fields : Option RelayFields) (s : State) :
    (s.received m n fields).lane n
      = (s.lane n).receive (Relay.takePacket n (max s.now m.tick) fields (s.lane n).relay).1 :=
  (State.LaneMoved.received m n fields s).here

theorem State.rx_received (m : Moment) (n : Lane) (fields : Option RelayFields) (s : State) :
    ((s.received m n fields).lane n).rx = { (s.lane n).rx with counters := { (s.lane n).rx.counters with
      packetsReceived := min 4294967295 ((s.lane n).rx.counters.packetsReceived + 1) } } := by
  rw [State.lane_received]
  rfl

theorem State.now_received (m : Moment) (n : Lane) (fields : Option RelayFields) (s : State) :
    (s.received m n fields).now = max s.now m.tick := by
  rw [State.received, State.offerAll_eq]
  rfl

theorem State.arb_received (m : Moment) (n : Lane) (fields : Option RelayFields) (s : State) :
    (s.received m n fields).arb = s.arb := by
  rw [State.received, State.offerAll_eq]
  rfl

/-! ### The packets that open nothing -/

theorem State.offerAll_modLane (n : Lane) (f : LaneBlocks → LaneBlocks) (l : List Notice) (s : State) :
    (s.offerAll l).modLane n f = (s.modLane n f).offerAll l := by
  rw [State.offerAll_eq, State.offerAll_eq]
  rfl

/-- A change of the lane that received a packet, made before the relay's reports are offered. -/
theorem State.received_modLane (m : Moment) (n : Lane) (fields : Option RelayFields) (f : LaneBlocks → LaneBlocks)
    (s : State) : let relay := Relay.takePacket n (max s.now m.tick) fields (s.lane n).relay
    (s.received m n fields).modLane n f
      = ((s.advance m).modLane n fun l => f (l.receive relay.1)).offerAll relay.2 :=
  (State.offerAll_modLane n f _ _).trans (congrArg _ (State.modLane_modLane n _ f (s.advance m)))

theorem State.lanePacket_none {s : State} {n : Lane} (h : (s.lane n).rx.state.receiving = false) :
    s.lanePacket n none = s.modCounters n fun k => { k with headerErrors := count k.headerErrors 1 } := by
  have hstate : ((s.modCounters n fun k => { k with headerErrors := count k.headerErrors 1 }).lane n).rx.state.receiving
      = false := by
    rw [State.modCounters, lane_modRx_rx]
    exact h
  exact if_neg (by rw [hstate]; exact Bool.false_ne_true)

theorem State.lanePacket_idle {s : State} {n : Lane} {q : Packet}
    (h : (s.lane n).rx.state = .faulted ∨ (s.lane n).rx.state = .silent ∨ (s.lane n).rx.state = .lockedOut
      ∨ ((s.lane n).rx.state = .searching ∧ q.kind ≠ .frameStart)) : s.lanePacket n (some q) = s := by
  rcases h with h | h | h | ⟨h, hkind⟩
  · simp only [State.lanePacket, h]
  · simp only [State.lanePacket, h]
  · simp only [State.lanePacket, h]
  · cases hk : q.kind with
    | frameStart => exact absurd hk hkind
    | line | frameEnd => simp only [State.lanePacket, h, hk]

theorem State.lanePacket_opensNothing {m : Moment} {s : State} {n : Lane} {p : Option Packet}
    (hstate : (s.lane n).rx.state = .faulted ∨ (s.lane n).rx.state = .silent ∨ (s.lane n).rx.state = .lockedOut
      ∨ ((s.lane n).rx.state = .searching ∧ ∀ q, p = some q → q.kind ≠ .frameStart)) :
    let relay := Relay.takePacket n (max s.now m.tick) (p.map (·.relay)) (s.lane n).relay
    (s.received m n (p.map (·.relay))).lanePacket n p = (((s.advance m).modLane n fun l =>
      { l with
        relay := relay.1
        rx := { l.rx with counters := { l.rx.counters with
          packetsReceived := min 4294967295 (l.rx.counters.packetsReceived + 1)
          headerErrors :=
            if p = none then min 4294967295 (l.rx.counters.headerErrors + 1) else l.rx.counters.headerErrors } }
          }).offerAll relay.2) := by
  have hrx : ((s.received m n (p.map (·.relay))).lane n).rx.state = (s.lane n).rx.state := by rw [State.rx_received]
  rw [← hrx] at hstate
  cases p with
  | none =>
    refine (State.lanePacket_none ?_).trans (State.received_modLane ..)
    rcases hstate with h | h | h | ⟨h, -⟩ <;> rw [h] <;> rfl
  | some q =>
    exact State.lanePacket_idle (hstate.imp_right (.imp_right (.imp_right fun ⟨h, hkind⟩ => ⟨h, hkind q rfl⟩)))

/-- Settles O29. -/
theorem packetsThatOpenNothing : Obligations.PacketsThatOpenNothing := by
  unfold Obligations.PacketsThatOpenNothing
  intro m s n bytes hreset rx p relay
  refine ⟨fun hdeaf => ?_, fun hmode hstate => ?_⟩
  · have deaf : ¬((s.lane n).rx.hearsCamera = true) := by
      rw [Receiver.hearsCamera_iff, Classical.not_and_iff_not_or_not, Classical.not_not, Classical.not_not]
      exact hdeaf
    refine congrArg Host.Outcome.next (if_neg fun h => deaf ?_)
    exact (Bool.and_eq_true_iff.1 h).2
  · have hoff : rx.state ≠ .off := by
      rcases hstate with h | h | h | ⟨h, -⟩ <;> rw [h] <;> nofun
    exact (exec_cameraPacket_of bytes hreset hoff hmode).trans
      (congrArg (fun t : State => Host.Outcome.next t.serve) (State.lanePacket_opensNothing hstate))

end Sys2Proof.Machine

/-! SUPPORT. A FRAME_START: what it does to the lane's blocks, and its write on the port (R4, R6, R13, R47, R51, R88). -/

namespace Sys2Proof.Machine

/-! ### One lane's blocks -/

/-- One fault short of the 32nd (R13). -/
def LaneBlocks.fault (l : LaneBlocks) : LaneBlocks := { l with rx := { l.rx with health := satAdd 32 l.rx.health 1 } }

/-- A frame opened for the lane (R6, R47, R88). -/
def LaneBlocks.openFrame (number : Nat) (g : Geometry) (l : LaneBlocks) : LaneBlocks :=
  if l.rx.mode.stores then { l with
    rx := l.rx.openAs number, store := l.store.openFrame number g, dust := l.dust.openSet number g }
  else { l with rx := l.rx.openAs number }

theorem LaneBlocks.openFrame_stores {number : Nat} {g : Geometry} {l : LaneBlocks} (h : l.rx.mode.stores = true) :
    l.openFrame number g = { l with
      rx := l.rx.openAs number, store := l.store.openFrame number g, dust := l.dust.openSet number g } := if_pos h

theorem LaneBlocks.openFrame_check {number : Nat} {g : Geometry} {l : LaneBlocks} (h : l.rx.mode.stores ≠ true) :
    l.openFrame number g = { l with rx := l.rx.openAs number } := if_neg h

theorem LaneBlocks.rx_openFrame (number : Nat) (g : Geometry) (l : LaneBlocks) :
    (l.openFrame number g).rx = l.rx.openAs number := by
  unfold LaneBlocks.openFrame
  split <;> rfl

/-- The lane's blocks after an acceptance (R4). -/
def LaneBlocks.acquire (g : Geometry) (now : Nat) (l : LaneBlocks) : LaneBlocks := { l with rx := l.rx.acquire g now }

/-- The open frame overtaken by a FRAME_START (R6, R51). -/
def LaneBlocks.overtake (l : LaneBlocks) : LaneBlocks :=
  { l with
    rx := { l.rx with
      openFrame := none, cleanFrames := 0, lockedRun := 0
      counters := { l.rx.counters with
        framesDiscarded := count l.rx.counters.framesDiscarded 1
        sequenceErrors := count l.rx.counters.sequenceErrors 1 } }
    store := l.store.abandon, dust := l.dust.dropGathering }

/-- Whether a FRAME_START carries another frame number than the expected one (R6). -/
def Receiver.misnumbered (number : Nat) (r : Receiver) : Bool := r.expectedFrame.any fun e => e != number

/-- Whether a FRAME_START that announces the acquisition geometry is faulty (R6). -/
def Receiver.startFault (number : Nat) (r : Receiver) : Bool := r.openFrame.isSome || r.misnumbered number

/-- The lane's blocks with the errors of a FRAME_START counted (R6). -/
def LaneBlocks.startCounts (number : Nat) (l : LaneBlocks) : LaneBlocks :=
  let counted := if l.rx.openFrame.isSome then l.overtake else l
  if l.rx.misnumbered number then { counted with rx := { counted.rx with counters := { counted.rx.counters with
    frameNumberErrors := count counted.rx.counters.frameNumberErrors 1 } } }
  else counted

/-! ### The model's steps as changes of one lane -/

section Steps

variable {n : Lane} {s : State}

theorem State.modLane_congr {f g : LaneBlocks → LaneBlocks} (h : f (s.lane n) = g (s.lane n)) :
    s.modLane n f = s.modLane n g := congrArg (fun lanes => { s with lanes := lanes }) (Four.modify_congr h)

theorem State.faultyPacket_eq (h : (s.lane n).rx.health + 1 < 32) : s.faultyPacket n = s.modLane n LaneBlocks.fault :=
  State.faultyPacket_of_short h

theorem State.openFrame_eq (number : Nat) (g : Geometry) (s : State) :
    s.openFrame n number g = s.modLane n (LaneBlocks.openFrame number g) := by
  have hmode : ((s.modRx n (Receiver.openAs number)).lane n).rx.mode = (s.lane n).rx.mode := by
    rw [lane_modRx_rx]
    rfl
  unfold State.openFrame
  simp only [hmode]
  by_cases hstores : (s.lane n).rx.mode.stores = true
  · rw [if_pos hstores, State.storeOpen, State.modRx, State.modStore, State.modDust, State.modLane_modLane,
      State.modLane_modLane]
    exact State.modLane_congr (LaneBlocks.openFrame_stores hstores).symm
  · rw [if_neg hstores]
    exact State.modLane_congr (LaneBlocks.openFrame_check hstores).symm

/-- The data of a write of the lane on the port no longer counts when the head line is the open frame's (R48). -/
theorem State.discardHead_eq (n : Lane) (s : State) : s.discardHead n =
    let cut := (s.lane n).store.buffer.head?.any fun b => b.tag == .current
    s.modArb fun a => { a with port := a.port.map fun tr =>
      { tr with live := tr.live && !(cut && tr.kind.writesLane n) } } := by
  have cut : s.discardHead n = if (s.lane n).store.buffer.head?.any (fun b => b.tag == .current) = true then
      s.discardTransfer (TransferKind.writesLane n) else s := by
    unfold State.discardHead
    cases (s.lane n).store.buffer <;> rfl
  rw [cut]
  cases (s.lane n).store.buffer.head?.any (fun b => b.tag == .current) with
  | true => exact congrArg s.modArb (funext fun a => congrArg (fun f => { a with port := a.port.map f })
      (funext fun tr => Transfer.discard_eq (tr.kind.writesLane n) tr))
  | false =>
    show s = { s with arb := { s.arb with port := s.arb.port.map fun tr => { tr with live := tr.live && true } } }
    simp only [Bool.and_true, Option.map_id']

/-- What an overtaken frame's head line leaves of the port. -/
def State.cutHead (n : Lane) (s : State) : State := if (s.lane n).rx.openFrame.isSome then s.discardHead n else s

theorem State.discardHead_modRx (n : Lane) (f : Receiver → Receiver) (s : State) :
    (s.modRx n f).discardHead n = (s.discardHead n).modRx n f := by
  have hstore : ((s.modRx n f).lane n).store = (s.lane n).store := by rw [State.lane_modRx_same]
  rw [State.discardHead_eq, State.discardHead_eq, hstore]
  rfl

theorem State.overtake_eq (n : Lane) (s : State) : s.overtake n = (s.discardHead n).modLane n LaneBlocks.overtake := by
  rw [State.overtake, State.storeAbandon, State.discardHead_modRx, State.countSequence, State.countDiscarded]
  simp only [State.modCounters, State.modRx, State.modStore, State.modDust, State.modLane_modLane]
  exact State.modLane_congr rfl

theorem State.modLane_self {f : LaneBlocks → LaneBlocks} (h : f (s.lane n) = s.lane n) : s.modLane n f = s := by
  rw [State.modLane, Four.modify_self h]

/-- The errors a FRAME_START counts, before it is judged faulty. -/
theorem State.startCounts_eq (n : Lane) (number : Nat) (s : State) :
    (let t := if (s.lane n).rx.openFrame.isSome then s.overtake n else s
     if (s.lane n).rx.misnumbered number then t.countFrameNumber n else t)
      = (s.cutHead n).modLane n (LaneBlocks.startCounts number) := by
  have hlane : (s.cutHead n).lane n = s.lane n := by
    rw [State.cutHead, State.discardHead_eq]
    split <;> rfl
  have overtaken : (if (s.lane n).rx.openFrame.isSome then s.overtake n else s) = (s.cutHead n).modLane n fun l =>
      if l.rx.openFrame.isSome then l.overtake else l := by
    by_cases hopen : (s.lane n).rx.openFrame.isSome = true
    · rw [if_pos hopen, State.overtake_eq, State.cutHead, if_pos hopen]
      refine State.modLane_congr (if_pos ?_).symm
      rw [State.cutHead, if_pos hopen] at hlane
      rw [hlane, hopen]
    · rw [if_neg hopen, State.cutHead, if_neg hopen]
      exact (State.modLane_self (if_neg hopen)).symm
  show (if (s.lane n).rx.misnumbered number = true then State.countFrameNumber n (if _ then _ else _) else _) = _
  rw [overtaken]
  by_cases hnumber : (s.lane n).rx.misnumbered number = true
  · rw [if_pos hnumber, State.countFrameNumber, State.modCounters, State.modRx, State.modLane_modLane]
    refine State.modLane_congr (if_pos ?_).symm
    rw [hlane, hnumber]
  · rw [if_neg hnumber]
    refine State.modLane_congr (if_neg ?_).symm
    rwa [hlane]

theorem State.takeFrameStart_eq (n : Lane) (number : Nat) (g : Geometry) (s : State) : s.takeFrameStart n number g =
    let t := (s.cutHead n).modLane n (LaneBlocks.startCounts number)
    let u := if (s.lane n).rx.startFault number then t.faultyPacket n else t
    if (u.lane n).rx.state.receiving then u.openFrame n number g else u := by
  have judge (wrong : Bool) (h : wrong = (s.lane n).rx.misnumbered number) :
      (let t := if (s.lane n).rx.openFrame.isSome then s.overtake n else s
       let t := if wrong then t.countFrameNumber n else t
       let t := if (s.lane n).rx.openFrame.isSome || wrong then t.faultyPacket n else t
       if (t.lane n).rx.state.receiving then t.openFrame n number g else t)
        = let t := (s.cutHead n).modLane n (LaneBlocks.startCounts number)
          let u := if (s.lane n).rx.startFault number then t.faultyPacket n else t
          if (u.lane n).rx.state.receiving then u.openFrame n number g else u := by
    subst h
    exact congrArg (fun t : State =>
      let u := if (s.lane n).rx.startFault number then t.faultyPacket n else t
      if (u.lane n).rx.state.receiving then u.openFrame n number g else u) (State.startCounts_eq n number s)
  refine judge _ ?_
  unfold Receiver.misnumbered
  cases (s.lane n).rx.expectedFrame <;> exact rfl

/-- The lane's blocks after a FRAME_START that opens its frame, whether or not it was faulty (R6, R13, R47). -/
def LaneBlocks.startFrame (number : Nat) (g : Geometry) (l : LaneBlocks) : LaneBlocks :=
  LaneBlocks.openFrame number g
    (if l.rx.startFault number then (l.startCounts number).fault else l.startCounts number)

theorem LaneBlocks.startCounts_judged (number : Nat) (l : LaneBlocks) :
    (l.startCounts number).rx.state = l.rx.state ∧ (l.startCounts number).rx.health = l.rx.health := by
  unfold LaneBlocks.startCounts
  split <;> split <;> exact ⟨rfl, rfl⟩

/-- A FRAME_START with no frame open and no other number expected opens its frame without a fault (R6). -/
theorem LaneBlocks.startFrame_quiet {number : Nat} {l : LaneBlocks} (g : Geometry) (hopen : l.rx.openFrame = none)
    (hnumber : l.rx.misnumbered number = false) : l.startFrame number g = l.openFrame number g := by
  have quiet : l.rx.startFault number = false := by
    rw [Receiver.startFault, hopen, hnumber]
    rfl
  have counts : l.startCounts number = l := by
    rw [LaneBlocks.startCounts, hopen, hnumber]
    rfl
  rw [LaneBlocks.startFrame, quiet, counts]
  rfl

/-- What a FRAME_START leaves of the lane's blocks. -/
theorem LaneBlocks.startFrame_kept (number : Nat) (g : Geometry) (l : LaneBlocks) :
    (l.startFrame number g).relay = l.relay ∧ (l.startFrame number g).test = l.test
      ∧ (l.startFrame number g).purge = l.purge ∧ (l.startFrame number g).motion = l.motion := by
  have counts : (l.startCounts number).relay = l.relay ∧ (l.startCounts number).test = l.test
      ∧ (l.startCounts number).purge = l.purge ∧ (l.startCounts number).motion = l.motion := by
    unfold LaneBlocks.startCounts
    split <;> split <;> exact ⟨rfl, rfl, rfl, rfl⟩
  unfold LaneBlocks.startFrame LaneBlocks.openFrame
  split <;> split <;> exact counts

theorem State.lane_cutHead (n k : Lane) (s : State) : (s.cutHead n).lane k = s.lane k := by
  rw [State.cutHead, State.discardHead_eq]
  split <;> rfl

/-- A FRAME_START that announces the acquisition geometry, short of the 32nd fault (R6). -/
theorem State.takeFrameStart_short {number : Nat} (g : Geometry) (hreceiving : (s.lane n).rx.state.receiving = true)
    (hshort : (s.lane n).rx.startFault number = true → (s.lane n).rx.health + 1 < 32) :
    s.takeFrameStart n number g = (s.cutHead n).modLane n (LaneBlocks.startFrame number g) := by
  obtain ⟨hstate, hhealth⟩ := LaneBlocks.startCounts_judged number (s.lane n)
  have hlane : ((s.cutHead n).modLane n (LaneBlocks.startCounts number)).lane n = (s.lane n).startCounts number := by
    rw [State.lane_modLane_same, State.lane_cutHead]
  have judged : (if (s.lane n).rx.startFault number then
      ((s.cutHead n).modLane n (LaneBlocks.startCounts number)).faultyPacket n
      else (s.cutHead n).modLane n (LaneBlocks.startCounts number)) = (s.cutHead n).modLane n fun l =>
        if l.rx.startFault number then (l.startCounts number).fault else l.startCounts number := by
    by_cases hfault : (s.lane n).rx.startFault number = true
    · rw [if_pos hfault, State.faultyPacket_eq (by rw [hlane, hhealth]; exact hshort hfault), State.modLane_modLane]
      exact State.modLane_congr (by rw [State.lane_cutHead, if_pos hfault])
    · rw [if_neg hfault]
      exact State.modLane_congr (by rw [State.lane_cutHead, if_neg hfault])
  have hopen : (((s.cutHead n).modLane n fun l =>
      if l.rx.startFault number then (l.startCounts number).fault else l.startCounts number).lane n).rx.state.receiving
      = true := by
    rw [State.lane_modLane_same, State.lane_cutHead]
    split <;> exact (congrArg _ hstate).trans hreceiving
  rw [State.takeFrameStart_eq]
  simp only [judged, if_pos hopen, State.openFrame_eq, State.modLane_modLane]
  rfl

theorem State.LaneMoved.cutHead {l : LaneBlocks} {reports : List Notice} {t : State}
    (h : State.LaneMoved n l reports s t) : State.LaneMoved n l reports s (t.cutHead n) := by
  rw [State.cutHead, State.discardHead_eq]
  split
  · exact h.modArb _
  · exact h

/-! ### FRAME_START in SEARCHING (R4) -/

theorem State.lanePacket_search {q : Packet} (hstate : (s.lane n).rx.state = .searching) (hkind : q.kind = .frameStart) :
    s.lanePacket n (some q) = s.searchFrameStart n q.number ⟨q.word1, q.word3⟩ := by
  simp only [State.lanePacket, hstate, hkind]

variable {number : Nat} {g : Geometry}

theorem State.searchFrameStart_waits (hstores : (s.lane n).rx.mode.stores = true) (hready : s.arb.storeReady = false) :
    s.searchFrameStart n number g = s := if_pos (by rw [hstores, hready]; rfl)

theorem State.searchFrameStart_refused (hready : (s.lane n).rx.mode.stores = true → s.arb.storeReady = true)
    (hrefused : (s.lane n).rx.accepts g = false) : s.searchFrameStart n number g = s.countGeometry n := by
  have hno : ¬((s.lane n).rx.mode.stores && !s.arb.storeReady) = true := by simpa using hready
  exact (if_neg hno).trans (if_neg (by rw [hrefused]; exact Bool.false_ne_true))

theorem State.searchFrameStart_accepted (hready : (s.lane n).rx.mode.stores = true → s.arb.storeReady = true)
    (haccepts : (s.lane n).rx.accepts g = true) : s.searchFrameStart n number g =
      ((s.modRx n (Receiver.acquire g s.now)).offer (laneStateReport n .searching .acquiring .acquired
        (s.lane n).rx.health (s.lane n).rx.attempts none)).takeFrameStart n number g := by
  have hno : ¬((s.lane n).rx.mode.stores && !s.arb.storeReady) = true := by simpa using hready
  exact (if_neg hno).trans (if_pos haccepts)

end Steps

theorem Receiver.accepts_iff {g : Geometry} {r : Receiver} : r.accepts g = true ↔ match r.geometryMode with
    | .auto => 320 ≤ g.w ∧ g.w ≤ 1280 ∧ g.w % 64 = 0 ∧ 256 ≤ g.h ∧ g.h ≤ 800 ∧ g.h % 32 = 0
    | .fixed => g.w = r.configured.w ∧ g.h = r.configured.h := by
  unfold Receiver.accepts
  cases r.geometryMode with
  | auto => simp [and_assoc]
  | fixed =>
    cases g
    cases r.configured
    simp

theorem LaneStore.openFrame_eq (number : Nat) (g : Geometry) (st : LaneStore) : st.openFrame number g =
    if st.pendingCommit.isSome then { st with opening := .deferred number g [] }
    else match ([0, 1, 2, 3] : List (Fin 4)).find? fun i => (st.ring.get i).isNone with
      | some i => { st with
        ring := st.ring.set i (some ⟨.filling, ⟨number, g, [], none⟩⟩), opening := .stored i }
      | none => { st with opening := .unstored } := rfl

/-- Settles O30. -/
theorem searchingTakesAFrameStart : Obligations.SearchingTakesAFrameStart := by
  unfold Obligations.SearchingTakesAFrameStart
  intro m s n bytes q rx store dust relay heard hreset hstate hmode hparse hkind acceptable received kept
  have hrx := State.rx_received m n (some q.relay) s
  have arrived := State.LaneMoved.received m n (some q.relay) s
  have hexec : exec (.cameraPacket m n bytes) s
      = .next ((s.received m n (some q.relay)).searchFrameStart n q.number ⟨q.word1, q.word3⟩).serve := by
    rw [exec_cameraPacket_of bytes hreset (by rw [show (s.lane n).rx.state = .searching from hstate]; nofun) hmode, hparse,
      Option.map_some, State.lanePacket_search (by rw [hrx]; exact hstate) hkind]
  have haccepts : ((s.received m n (some q.relay)).lane n).rx.accepts ⟨q.word1, q.word3⟩ = true ↔ acceptable := by
    have h := Receiver.accepts_iff (g := ⟨q.word1, q.word3⟩) (r := ((s.received m n (some q.relay)).lane n).rx)
    rw [hrx] at h ⊢
    exact h
  have hstores : rx.mode.stores = true ↔ rx.mode ≠ .check := by cases rx.mode <;> simp [LaneMode.stores]
  have frame {l : LaneBlocks} {reports : List Notice} {t : State} (moved : State.LaneMoved n l reports s t)
      (hrelay : l.relay = relay.1) (htest : l.test = (s.lane n).test) (hpurge : l.purge = (s.lane n).purge)
      (hmotion : l.motion = (s.lane n).motion) : (∀ k, k ≠ n → t.lane k = s.lane k) ∧ t.timing = s.timing
        ∧ t.comp = s.comp ∧ t.dram = s.dram ∧ t.jobs = s.jobs ∧ (t.lane n).relay = relay.1
        ∧ (t.lane n).test = (s.lane n).test ∧ (t.lane n).purge = (s.lane n).purge
        ∧ (t.lane n).motion = (s.lane n).motion ∧ t.pending = s.pending := by
    rw [moved.here]
    exact ⟨moved.others, moved.timing, moved.comp, moved.dram, moved.jobs, hrelay, htest, hpurge, hmotion, moved.pending⟩
  by_cases hwaits : rx.mode.stores = true ∧ s.arb.storeReady = false
  case pos =>
    obtain ⟨hs, hidle⟩ := hwaits
    have notReady : ¬(rx.mode = .check ∨ s.arb.storeReady = true) :=
      not_or.2 ⟨hstores.1 hs, by rw [hidle]; exact Bool.false_ne_true⟩
    rw [State.searchFrameStart_waits (by rw [hrx]; exact hs) (by rw [State.arb_received]; exact hidle)] at hexec
    have moved := arrived.serve
    refine ⟨_, hexec, fun _ _ => ⟨?_, ?_, moved.chan⟩, fun h => absurd h notReady, fun h => absurd h notReady,
      frame moved rfl rfl rfl rfl⟩
    · exact moved.rx
    · exact ⟨moved.store, moved.dust⟩
  case neg =>
    have hready : ((s.received m n (some q.relay)).lane n).rx.mode.stores = true →
        (s.received m n (some q.relay)).arb.storeReady = true := by
      rw [hrx, State.arb_received]
      exact fun hs => Bool.not_eq_false _ ▸ fun hidle => hwaits ⟨hs, hidle⟩
    have waits (hnormal : rx.mode = .normal) (hidle : s.arb.storeReady = false) : False :=
      hwaits ⟨by rw [hnormal]; rfl, hidle⟩
    by_cases hacc : acceptable
    case neg =>
      rw [State.searchFrameStart_refused hready (Bool.eq_false_iff.2 (mt haccepts.1 hacc))] at hexec
      have moved := (arrived.modLane (fun l => { l with rx := { l.rx with counters := { l.rx.counters with
        geometryErrors := count l.rx.counters.geometryErrors 1 } } })).serve
      refine ⟨_, hexec, fun hnormal hidle => (waits hnormal hidle).elim, fun _ _ => ⟨?_, ?_, moved.chan⟩,
        fun _ h => absurd h hacc, frame moved rfl rfl rfl rfl⟩
      · exact moved.rx
      · exact ⟨moved.store, moved.dust⟩
    case pos =>
      rw [State.searchFrameStart_accepted hready (haccepts.2 hacc)] at hexec
      have acquired : State.LaneMoved n _ _ s (((s.received m n (some q.relay)).modRx n
          (Receiver.acquire ⟨q.word1, q.word3⟩ (max s.now m.tick))).offer
            (laneStateReport n .searching .acquiring .acquired rx.health rx.attempts none)) :=
        (arrived.modLane (LaneBlocks.acquire ⟨q.word1, q.word3⟩ (max s.now m.tick))).offer _
      rw [State.now_received, hrx, State.takeFrameStart_short _ (by rw [acquired.rx]; rfl)
        (by rw [acquired.rx]; exact fun _ => Nat.lt_of_lt_of_le Nat.one_lt_two (by decide))] at hexec
      have moved := (acquired.cutHead.modLane (LaneBlocks.startFrame q.number ⟨q.word1, q.word3⟩)).serve
      obtain ⟨hrelay, htest, hpurge, hmotion⟩ := LaneBlocks.startFrame_kept q.number ⟨q.word1, q.word3⟩
        (((s.lane n).receive relay.1).acquire ⟨q.word1, q.word3⟩ (max s.now m.tick))
      refine ⟨_, hexec, fun hnormal hidle => (waits hnormal hidle).elim, fun _ h => absurd hacc h,
        fun _ _ hopen hexpected => ?_, frame moved hrelay htest hpurge hmotion⟩
      rw [LaneBlocks.startFrame_quiet (l := ((s.lane n).receive relay.1).acquire ⟨q.word1, q.word3⟩ (max s.now m.tick)) _
        hopen (congrArg (Option.any fun e => e != q.number) hexpected)] at moved
      have hmode : ((((s.lane n).receive relay.1).acquire ⟨q.word1, q.word3⟩ (max s.now m.tick))).rx.mode = rx.mode := rfl
      refine ⟨?_, ?_, fun hnormal => ?_, fun hcheck => ?_⟩
      · rw [moved.rx, LaneBlocks.rx_openFrame]
        rfl
      · rw [moved.chan]
        exact congrArg State.chan List.foldl_append
      · rw [moved.store, moved.dust, LaneBlocks.openFrame_stores (by rw [hmode, hnormal]; rfl)]
        exact ⟨rfl, rfl⟩
      · rw [LaneBlocks.openFrame_check (by rw [hmode, hcheck]; exact Bool.false_ne_true)] at moved
        exact ⟨moved.store, moved.dust⟩

end Sys2Proof.Machine

/-! SUPPORT. A FRAME_START in ACQUIRING or LOCKED, short of the 32nd fault (R5, R6, R13, R47, R51). -/

namespace Sys2Proof.Machine

/-! ### The packet by the lane's state -/

section Packet

variable {n : Lane} {s : State} {q : Packet}

theorem LaneState.receiving_iff {st : LaneState} : st.receiving = true ↔ st = .acquiring ∨ st = .locked := by
  cases st <;> simp [LaneState.receiving]

theorem State.lanePacket_receiving (h : (s.lane n).rx.state.receiving = true) :
    s.lanePacket n (some q) = s.receivePacket n q := by
  rcases LaneState.receiving_iff.1 h with h | h <;> simp only [State.lanePacket, h]

/-- A packet with a good check restarts the silence timer (R3). -/
def LaneBlocks.hear (q : Packet) (now : Nat) (l : LaneBlocks) : LaneBlocks :=
  { l with rx := { l.rx with
      silenceDue :=
        if q.goodCheck l.rx.acquisition then some (now + msTicks l.rx.silenceTimeout) else l.rx.silenceDue } }

theorem State.heard_eq (n : Lane) (q : Packet) (s : State) : s.heard n q = s.modLane n (LaneBlocks.hear q s.now) := by
  unfold State.heard
  by_cases h : q.goodCheck (s.lane n).rx.acquisition = true
  · rw [if_pos h]
    refine State.modLane_congr ?_
    rw [LaneBlocks.hear, if_pos h]
    rfl
  · rw [if_neg h]
    refine (State.modLane_self ?_).symm
    rw [LaneBlocks.hear, if_neg h]

/-- The state in which a packet with a good header is judged in ACQUIRING or LOCKED: counted, relayed, heard. -/
def State.heardFrom (m : Moment) (n : Lane) (q : Packet) (s : State) : State :=
  (s.received m n (some q.relay)).modLane n (LaneBlocks.hear q (max s.now m.tick))

/-- The lane's blocks in that state. -/
def LaneBlocks.heardFrom (relay : Relay) (q : Packet) (now : Nat) (l : LaneBlocks) : LaneBlocks :=
  (l.receive relay).hear q now

theorem LaneBlocks.rx_heardFrom (relay : Relay) (q : Packet) (now : Nat) (l : LaneBlocks) :
    (l.heardFrom relay q now).rx = { l.rx with
      silenceDue := if q.goodCheck l.rx.acquisition then some (now + msTicks l.rx.silenceTimeout) else l.rx.silenceDue
      counters := { l.rx.counters with packetsReceived := min 4294967295 (l.rx.counters.packetsReceived + 1) } } := rfl

/-- A packet but a LINE has a good check with a good header (R2). -/
theorem LaneBlocks.rx_heardFrom_frame (hkind : q.kind ≠ .line) (relay : Relay) (now : Nat) (l : LaneBlocks) :
    (l.heardFrom relay q now).rx = { l.rx with
      silenceDue := some (now + msTicks l.rx.silenceTimeout)
      counters := { l.rx.counters with packetsReceived := min 4294967295 (l.rx.counters.packetsReceived + 1) } } := by
  have hgood : q.goodCheck l.rx.acquisition = true := by
    unfold Packet.goodCheck
    cases hk : q.kind with
    | line => exact absurd hk hkind
    | frameStart | frameEnd => rfl
  rw [LaneBlocks.rx_heardFrom, if_pos hgood]

theorem State.LaneMoved.heardFrom (m : Moment) (n : Lane) (q : Packet) (s : State) :
    let relay := Relay.takePacket n (max s.now m.tick) (some q.relay) (s.lane n).relay
    State.LaneMoved n ((s.lane n).heardFrom relay.1 q (max s.now m.tick)) relay.2 s (s.heardFrom m n q) :=
  (State.LaneMoved.received m n (some q.relay) s).modLane _

/-- A packet with a good header in ACQUIRING or LOCKED, by its kind (R6, R7, R10). -/
theorem exec_cameraPacket_receiving {m : Moment} {bytes : List Byte} (hreset : s.resetAsserted = false)
    (hstate : (s.lane n).rx.state = .acquiring ∨ (s.lane n).rx.state = .locked) (hmode : (s.lane n).rx.mode ≠ .internal)
    (hparse : parsePacket bytes = some q) : exec (.cameraPacket m n bytes) s = .next
      (match q.kind with
        | .frameStart => (s.heardFrom m n q).frameStart n q.number ⟨q.word1, q.word3⟩
        | .line => (s.heardFrom m n q).line n q
        | .frameEnd => (s.heardFrom m n q).frameEnd n q.number).serve := by
  have hoff : (s.lane n).rx.state ≠ .off := by rcases hstate with h | h <;> rw [h] <;> nofun
  have hreceiving : ((s.received m n (some q.relay)).lane n).rx.state.receiving = true := by
    rw [State.rx_received]
    exact LaneState.receiving_iff.2 hstate
  rw [exec_cameraPacket_of bytes hreset hoff hmode, hparse, Option.map_some, State.lanePacket_receiving hreceiving]
  refine congrArg (fun t : State => Host.Outcome.next t.serve) ?_
  cases hkind : q.kind <;>
    simp only [State.receivePacket, hkind, State.heard_eq, State.now_received, State.heardFrom]

end Packet

/-- The blocks of a lane beside its receiver are the same. -/
structure LaneBlocks.RxOnly (l l' : LaneBlocks) : Prop where
  relay : l'.relay = l.relay
  store : l'.store = l.store
  motion : l'.motion = l.motion
  dust : l'.dust = l.dust
  purge : l'.purge = l.purge
  test : l'.test = l.test

theorem LaneBlocks.RxOnly.of_rx (r : Receiver) (l : LaneBlocks) : l.RxOnly { l with rx := r } :=
  ⟨rfl, rfl, rfl, rfl, rfl, rfl⟩

theorem LaneBlocks.RxOnly.trans {l l' l'' : LaneBlocks} (h : l.RxOnly l') (k : l'.RxOnly l'') : l.RxOnly l'' :=
  ⟨k.relay.trans h.relay, k.store.trans h.store, k.motion.trans h.motion, k.dust.trans h.dust, k.purge.trans h.purge,
    k.test.trans h.test⟩

theorem LaneBlocks.rxOnly_heardFrom (relay : Relay) (q : Packet) (now : Nat) (l : LaneBlocks) :
    { l with relay := relay }.RxOnly (l.heardFrom relay q now) := .of_rx _ { l with relay := relay }

/-- The lane's blocks after a FRAME_START that announces another geometry (R5, R13). -/
def LaneBlocks.countGeometry (l : LaneBlocks) : LaneBlocks :=
  { l with rx := { l.rx with counters := { l.rx.counters with
    geometryErrors := count l.rx.counters.geometryErrors 1 } } }

theorem State.frameStart_other {n : Lane} {s : State} {g : Geometry} (number : Nat) (hg : (s.lane n).rx.acquisition ≠ some g)
    (hshort : (s.lane n).rx.health + 1 < 32) :
    s.frameStart n number g = s.modLane n fun l => l.countGeometry.fault := by
  have hhealth : ((s.countGeometry n).lane n).rx.health = (s.lane n).rx.health := by
    rw [State.countGeometry, State.modCounters, lane_modRx_rx]
  rw [State.frameStart, if_neg hg, State.faultyPacket_eq (by rw [hhealth]; exact hshort), State.countGeometry,
    State.modCounters, State.modRx, State.modLane_modLane]
  rfl

/-! ### The port while a transfer holds it -/

theorem State.arb_serve_of_busy {s : State} (h : s.arb.port ≠ none) : s.serve.arb = s.arb := by
  rw [State.serve, State.grant_of_busy (.inr (by rw [State.arb_completeNext]; exact h)), State.arb_completeNext]

theorem State.cutHead_eq (n : Lane) (s : State) : s.cutHead n =
    let cut := (s.lane n).rx.openFrame.isSome && (s.lane n).store.buffer.head?.any fun b => b.tag == .current
    s.modArb fun a => { a with port := a.port.map fun tr =>
      { tr with live := tr.live && !(cut && tr.kind.writesLane n) } } := by
  unfold State.cutHead
  cases (s.lane n).rx.openFrame.isSome with
  | true => exact State.discardHead_eq n s
  | false =>
    show s = { s with arb := { s.arb with port := s.arb.port.map fun tr => { tr with live := tr.live && true } } }
    simp only [Bool.and_true, Option.map_id']

/-! ### The lane's blocks after a FRAME_START -/

theorem satAdd_health {k : Nat} (h : k + 1 < 32) : satAdd 32 k 1 = k + 1 := by
  unfold satAdd
  omega

theorem LaneStore.abandon_eq (st : LaneStore) : st.abandon = { st with
    ring := match st.opening with
      | .stored i => st.ring.set i none
      | _ => st.ring
    opening := .closed, buffer := st.buffer.filter fun b => b.tag != .current } := by
  unfold LaneStore.abandon
  cases st.opening <;> exact rfl

theorem LaneBlocks.rx_startFrame (number : Nat) (g : Geometry) (l : LaneBlocks) : (l.startFrame number g).rx =
    let overtaken := l.rx.openFrame.isSome
    let misnumbered := l.rx.misnumbered number
    { l.rx with
      health := if overtaken || misnumbered then satAdd 32 l.rx.health 1 else l.rx.health
      cleanFrames := if overtaken then 0 else l.rx.cleanFrames, lockedRun := if overtaken then 0 else l.rx.lockedRun
      openFrame := some ⟨number, l.rx.state.opens⟩, expectedFrame := some ((number + 1) % 16), expectedLine := 0
      damagedCount := 0, periodError := false, mark := none
      counters := { l.rx.counters with
        framesStarted := count l.rx.counters.framesStarted 1
        framesDiscarded := if overtaken then count l.rx.counters.framesDiscarded 1 else l.rx.counters.framesDiscarded
        sequenceErrors := if overtaken then count l.rx.counters.sequenceErrors 1 else l.rx.counters.sequenceErrors
        frameNumberErrors := if misnumbered then count l.rx.counters.frameNumberErrors 1
          else l.rx.counters.frameNumberErrors } } := by
  unfold LaneBlocks.startFrame
  rw [LaneBlocks.rx_openFrame]
  unfold Receiver.startFault LaneBlocks.startCounts
  cases l.rx.openFrame.isSome <;> cases l.rx.misnumbered number <;> rfl

theorem LaneBlocks.store_startFrame (number : Nat) (g : Geometry) (l : LaneBlocks) :
    let left := if l.rx.openFrame.isSome then l.store.abandon else l.store
    (l.startFrame number g).store = if l.rx.mode.stores then left.openFrame number g else left := by
  unfold LaneBlocks.startFrame LaneBlocks.openFrame Receiver.startFault LaneBlocks.startCounts
  cases l.rx.openFrame.isSome <;> cases l.rx.misnumbered number <;> exact apply_ite LaneBlocks.store _ _ _

theorem LaneBlocks.dust_startFrame (number : Nat) (g : Geometry) (l : LaneBlocks) : (l.startFrame number g).dust =
    if l.rx.mode.stores then l.dust.openSet number g
    else if l.rx.openFrame.isSome then l.dust.dropGathering else l.dust := by
  unfold LaneBlocks.startFrame LaneBlocks.openFrame Receiver.startFault LaneBlocks.startCounts
  cases l.rx.openFrame.isSome <;> cases l.rx.misnumbered number <;> exact apply_ite LaneBlocks.dust _ _ _

/-- Settles O31. -/
theorem frameStartsWhileReceiving : Obligations.FrameStartsWhileReceiving := by
  unfold Obligations.FrameStartsWhileReceiving
  intro m s n bytes q g rx store dust relay up hreset hstate hmode hparse hkind hacq hshort heard overtaken misnumbered left
  have hexec : exec (.cameraPacket m n bytes) s
      = .next ((s.heardFrom m n q).frameStart n q.number ⟨q.word1, q.word3⟩).serve :=
    (exec_cameraPacket_receiving hreset hstate hmode hparse).trans (by rw [hkind])
  have arrived := State.LaneMoved.heardFrom m n q s
  have hrx : ((s.lane n).heardFrom relay.1 q (max s.now m.tick)).rx = heard :=
    LaneBlocks.rx_heardFrom_frame (by rw [hkind]; nofun) ..
  have frame {l : LaneBlocks} {t : State} (moved : State.LaneMoved n l relay.2 s t)
      (hrelay : l.relay = relay.1) (htest : l.test = (s.lane n).test) (hpurge : l.purge = (s.lane n).purge)
      (hmotion : l.motion = (s.lane n).motion) : (t.lane n).relay = relay.1 ∧ t.chan = (s.offerAll relay.2).chan
        ∧ (t.lane n).motion = (s.lane n).motion ∧ (t.lane n).purge = (s.lane n).purge
        ∧ (t.lane n).test = (s.lane n).test ∧ (∀ k, k ≠ n → t.lane k = s.lane k) ∧ t.jobs = s.jobs ∧ t.comp = s.comp
        ∧ t.timing = s.timing ∧ t.dram = s.dram ∧ t.pending = s.pending := by
    rw [moved.here]
    exact ⟨hrelay, moved.chan, hmotion, hpurge, htest, moved.others, moved.jobs, moved.comp, moved.timing, moved.dram,
      moved.pending⟩
  have hreceiving : ((s.heardFrom m n q).lane n).rx.state.receiving = true := by
    rw [arrived.rx]
    exact LaneState.receiving_iff.2 hstate
  have hacquisition : ((s.heardFrom m n q).lane n).rx.acquisition = some g := by
    rw [arrived.rx]
    exact hacq
  have hmisnumbered : heard.misnumbered q.number = misnumbered := by
    show Option.any _ rx.expectedFrame = misnumbered
    cases hexpected : rx.expectedFrame with
    | none => simp only [misnumbered, hexpected, Option.any_none]
    | some e => simp only [misnumbered, hexpected, Option.any_some]
  have quiet (hnumber : ∀ e, rx.expectedFrame = some e → e = q.number) : misnumbered = false := by
    rw [← hmisnumbered]
    show Option.any _ rx.expectedFrame = false
    cases hexpected : rx.expectedFrame with
    | none => rfl
    | some e => simpa using hnumber e hexpected
  have hleft : (if rx.openFrame.isSome = true then store.abandon else store) = left :=
    congrArg (fun x => if rx.openFrame.isSome = true then x else store) (LaneStore.abandon_eq store)
  by_cases hg : g = ⟨q.word1, q.word3⟩
  case neg =>
    have short : rx.health + 1 < 32 := hshort.resolve_right fun h => hg h.1
    rw [State.frameStart_other _ (by rw [hacquisition]; exact fun h => hg (Option.some.inj h))
      (by rw [arrived.rx, hrx]; exact short)] at hexec
    have moved := (arrived.modLane fun l => l.countGeometry.fault).serve
    have kept := (LaneBlocks.rxOnly_heardFrom relay.1 q (max s.now m.tick) (s.lane n)).trans
      ((LaneBlocks.RxOnly.of_rx _ _).trans (.of_rx _ _) : LaneBlocks.RxOnly _ (LaneBlocks.countGeometry _).fault)
    refine ⟨_, hexec, fun _ => ⟨?_, moved.store.trans kept.store, moved.dust.trans kept.dust⟩, fun h => absurd h hg,
      frame moved kept.relay kept.test kept.purge kept.motion⟩
    refine moved.rx.trans ((congrArg (fun r : Receiver => { r with
      health := satAdd 32 r.health 1
      counters := { r.counters with geometryErrors := count r.counters.geometryErrors 1 } }) hrx).trans ?_)
    rw [show satAdd 32 heard.health 1 = rx.health + 1 from satAdd_health short]
    rfl
  case pos =>
    have short (hfault : (overtaken || misnumbered) = true) : rx.health + 1 < 32 := by
      refine hshort.resolve_right fun ⟨_, hopen, hnumber⟩ => ?_
      rw [quiet hnumber, show overtaken = false from congrArg Option.isSome hopen] at hfault
      exact Bool.false_ne_true hfault
    have hsame : (s.heardFrom m n q).frameStart n q.number ⟨q.word1, q.word3⟩
        = ((s.heardFrom m n q).cutHead n).modLane n (LaneBlocks.startFrame q.number ⟨q.word1, q.word3⟩) := by
      refine (if_pos (by rw [hacquisition, hg])).trans (State.takeFrameStart_short _ hreceiving ?_)
      rw [arrived.rx, hrx, Receiver.startFault, hmisnumbered]
      exact short
    rw [hsame] at hexec
    have moved := (arrived.cutHead.modLane (LaneBlocks.startFrame q.number ⟨q.word1, q.word3⟩)).serve
    obtain ⟨hrelay, htest, hpurge, hmotion⟩ := LaneBlocks.startFrame_kept q.number ⟨q.word1, q.word3⟩
      ((s.lane n).heardFrom relay.1 q (max s.now m.tick))
    refine ⟨_, hexec, fun h => absurd hg h, fun _ => ⟨?_, fun hnormal => ?_, fun hcheck => ?_, fun tr hport => ?_⟩,
      frame moved hrelay htest hpurge hmotion⟩
    · rw [moved.rx, LaneBlocks.rx_startFrame, hrx, hmisnumbered]
      have hhealth : (if overtaken || misnumbered then satAdd 32 rx.health 1 else rx.health)
          = if overtaken || misnumbered then rx.health + 1 else rx.health := by
        by_cases hfault : (overtaken || misnumbered) = true
        · rw [if_pos hfault, if_pos hfault, satAdd_health (short hfault)]
        · rw [if_neg hfault, if_neg hfault]
      have hopens : rx.state.opens = if rx.state = .locked then .locked else .acquiring := by
        rcases hstate with h | h <;> rw [h] <;> rfl
      exact congr_both (fun health opened => { heard with
        health := health
        cleanFrames := if overtaken then 0 else rx.cleanFrames, lockedRun := if overtaken then 0 else rx.lockedRun
        openFrame := some ⟨q.number, opened⟩
        expectedFrame := some ((q.number + 1) % 16), expectedLine := 0, damagedCount := 0, periodError := false
        mark := none
        counters := { heard.counters with
          framesStarted := up rx.counters.framesStarted
          framesDiscarded := if overtaken then up rx.counters.framesDiscarded else rx.counters.framesDiscarded
          sequenceErrors := if overtaken then up rx.counters.sequenceErrors else rx.counters.sequenceErrors
          frameNumberErrors := if misnumbered then up rx.counters.frameNumberErrors
            else rx.counters.frameNumberErrors } }) hhealth hopens
    · rw [moved.store, moved.dust, LaneBlocks.store_startFrame, LaneBlocks.dust_startFrame]
      have hstores : ((s.lane n).heardFrom relay.1 q (max s.now m.tick)).rx.mode.stores = true := by
        rw [hrx]
        exact congrArg LaneMode.stores hnormal
      rw [if_pos hstores, if_pos hstores, ← hg]
      exact ⟨congrArg (LaneStore.openFrame q.number g) hleft, rfl⟩
    · rw [moved.store, moved.dust, LaneBlocks.store_startFrame, LaneBlocks.dust_startFrame]
      have hstores : ((s.lane n).heardFrom relay.1 q (max s.now m.tick)).rx.mode.stores ≠ true := by
        rw [hrx]
        exact fun h => Bool.false_ne_true ((congrArg LaneMode.stores hcheck).symm.trans h)
      rw [if_neg hstores, if_neg hstores]
      exact ⟨hleft, rfl⟩
    · intro cut
      have harb : (((s.heardFrom m n q).cutHead n).modLane n (LaneBlocks.startFrame q.number ⟨q.word1, q.word3⟩)).arb.port
          = some { tr with live := tr.live && !cut } := by
        rw [State.cutHead_eq, arrived.rx, arrived.store]
        show (s.received m n (some q.relay)).arb.port.map _ = _
        rw [State.arb_received, hport]
        refine congrArg (fun writes : Bool => some { tr with
          live := tr.live && !(overtaken && (store.buffer.head?.any fun b : BufferedLine => b.tag == FrameTag.current) && writes) }) ?_
        cases tr.kind <;> exact rfl
      rw [State.arb_serve_of_busy (by rw [harb]; nofun), harb]

end Sys2Proof.Machine

/-! SUPPORT. A LINE out of sequence (R7, R13), and what a packet of one lane leaves of the command channel. -/

namespace Sys2Proof.Machine

section Line

variable {n : Lane} {s : State} {q : Packet} {g : Geometry}

/-- The lane's blocks with a frame-number error or a sequence error counted (R7, R10). -/
def LaneBlocks.countWrong (number : Bool) (l : LaneBlocks) : LaneBlocks :=
  { l with rx := { l.rx with counters := { l.rx.counters with
    sequenceErrors := if number then l.rx.counters.sequenceErrors else count l.rx.counters.sequenceErrors 1
    frameNumberErrors := if number then count l.rx.counters.frameNumberErrors 1 else l.rx.counters.frameNumberErrors } } }

theorem State.countSequence_eq (n : Lane) (s : State) : s.countSequence n = s.modLane n (LaneBlocks.countWrong false) :=
  rfl

theorem State.countFrameNumber_eq (n : Lane) (s : State) :
    s.countFrameNumber n = s.modLane n (LaneBlocks.countWrong true) := rfl

/-- A LINE that carries another frame number than the open frame's (R7). -/
theorem State.line_wrongNumber (h : ∃ f, (s.lane n).rx.openFrame = some f ∧ f.number ≠ q.number) :
    s.line n q = (s.modLane n (LaneBlocks.countWrong true)).faultyPacket n := by
  obtain ⟨f, hopen, hnumber⟩ := h
  simp only [State.line, hopen, if_pos hnumber, State.countFrameNumber_eq]

/-- A LINE without an open frame, beyond the frame, or below the expected line (R7). -/
theorem State.line_wrongLine (hacq : (s.lane n).rx.acquisition = some g) (h : (s.lane n).rx.openFrame = none
      ∨ ∃ f, (s.lane n).rx.openFrame = some f ∧ f.number = q.number
        ∧ (g.h ≤ q.word1 ∨ q.word1 < (s.lane n).rx.expectedLine)) :
    s.line n q = (s.modLane n (LaneBlocks.countWrong false)).faultyPacket n := by
  have hheight : (s.lane n).rx.height = g.h := by rw [Receiver.height, hacq]; rfl
  rcases h with hopen | ⟨f, hopen, hnumber, hline⟩
  · simp only [State.line, hopen, State.countSequence_eq]
  · simp only [State.line, hopen, if_neg (Classical.not_not.2 hnumber), hheight, State.countSequence_eq]
    by_cases hbeyond : g.h ≤ q.word1
    · rw [if_pos hbeyond]
    · rw [if_neg hbeyond, if_pos (hline.resolve_left hbeyond)]

end Line

/-- A good payload, as the statements write it (R2). -/
theorem Packet.goodCheck_line {q : Packet} {g : Geometry} (hkind : q.kind = .line) :
    q.goodCheck (some g) = (q.payloadOk && q.payload.length == 2 * g.w) := by
  rw [Packet.goodCheck, hkind]
  rfl

theorem LaneBlocks.rx_heardFrom_line {q : Packet} {g : Geometry} {l : LaneBlocks} (hkind : q.kind = .line)
    (hacq : l.rx.acquisition = some g) (relay : Relay) (now : Nat) : (l.heardFrom relay q now).rx = { l.rx with
      silenceDue := if q.payloadOk && q.payload.length == 2 * g.w then some (now + msTicks l.rx.silenceTimeout)
        else l.rx.silenceDue
      counters := { l.rx.counters with packetsReceived := min 4294967295 (l.rx.counters.packetsReceived + 1) } } := by
  have hgood : q.goodCheck l.rx.acquisition = (q.payloadOk && q.payload.length == 2 * g.w) := by
    rw [hacq, Packet.goodCheck_line hkind]
  rw [LaneBlocks.rx_heardFrom, hgood]

theorem State.LaneMoved.apart {n : Lane} {l : LaneBlocks} {reports : List Notice} {s t : State}
    (h : State.LaneMoved n l reports s t) : t.chan.apartReports = s.chan.apartReports := by
  rw [h.chan, State.chan_offerAll, CommandChannel.apartReports_takeReports]

/-- Settles O32. -/
theorem linesOutOfSequenceAreFaulty : Obligations.LinesOutOfSequenceAreFaulty := by
  unfold Obligations.LinesOutOfSequenceAreFaulty
  intro m s n bytes q g rx hreset hstate hmode hparse hkind hacq hshort wrongNumber wrongLine hwrong
  have hexec : exec (.cameraPacket m n bytes) s = .next ((s.heardFrom m n q).line n q).serve :=
    (exec_cameraPacket_receiving hreset hstate hmode hparse).trans (by rw [hkind])
  have arrived := State.LaneMoved.heardFrom m n q s
  have hrx := LaneBlocks.rx_heardFrom_line hkind hacq
    (Relay.takePacket n (max s.now m.tick) (some q.relay) (s.lane n).relay).1 (max s.now m.tick)
  have hsilence : (if (q.payloadOk && q.payload.length == 2 * g.w) = true
      then some (max s.now m.tick + msTicks rx.silenceTimeout) else rx.silenceDue)
      = if q.payloadOk = true ∧ q.payload.length = 2 * g.w then some (max s.now m.tick + msTicks rx.silenceTimeout)
        else rx.silenceDue := ite_of_iff (by rw [Bool.and_eq_true, beq_iff_eq]) rfl rfl
  obtain ⟨number, hline, hnumber, hplace⟩ : ∃ number : Bool, (s.heardFrom m n q).line n q
      = ((s.heardFrom m n q).modLane n (LaneBlocks.countWrong number)).faultyPacket n
        ∧ (wrongNumber → number = true) ∧ (wrongLine → number = false) := by
    have apart : wrongNumber → ¬wrongLine := by
      rintro ⟨f, hopen, hother⟩ (hnone | ⟨f', hopen', hsame, -⟩)
      · exact absurd (hopen.symm.trans hnone) nofun
      · exact hother (Option.some.inj (hopen.symm.trans hopen') ▸ hsame)
    have hlane := arrived.rx.trans hrx
    rcases hwrong with h | h
    · exact ⟨true, State.line_wrongNumber (by rw [hlane]; exact h), fun _ => rfl, fun h' => absurd h' (apart h)⟩
    · exact ⟨false, State.line_wrongLine (g := g) (by rw [hlane]; exact hacq) (by rw [hlane]; exact h),
        fun h' => absurd h (apart h'), fun _ => rfl⟩
  have counted := arrived.modLane (LaneBlocks.countWrong number)
  rw [hline, State.faultyPacket_eq (by rw [counted.rx, LaneBlocks.countWrong, hrx]; exact hshort)] at hexec
  have moved := (counted.modLane LaneBlocks.fault).serve
  have kept := (LaneBlocks.rxOnly_heardFrom (Relay.takePacket n (max s.now m.tick) (some q.relay) (s.lane n).relay).1 q
    (max s.now m.tick) (s.lane n)).trans
      ((LaneBlocks.RxOnly.of_rx _ _).trans (.of_rx _ _) : LaneBlocks.RxOnly _ (LaneBlocks.countWrong number _).fault)
  have hfinal := moved.rx.trans ((congrArg (fun r : Receiver => { r with
    health := satAdd 32 r.health 1
    counters := { r.counters with
      sequenceErrors := if number then r.counters.sequenceErrors else count r.counters.sequenceErrors 1
      frameNumberErrors := if number then count r.counters.frameNumberErrors 1 else r.counters.frameNumberErrors } })
    hrx :))
  refine ⟨_, hexec, ?_, fun h => ?_, fun h => ?_, moved.relay.trans kept.relay, moved.store.trans kept.store,
    moved.dust.trans kept.dust, moved.test.trans kept.test, moved.others, moved.timing, moved.dram, moved.jobs,
    moved.apart, moved.pending⟩
  · rw [hfinal]
    exact congr_both (fun due health => { rx with
      silenceDue := due, health := health
      counters := { rx.counters with
        packetsReceived := min 4294967295 (rx.counters.packetsReceived + 1)
        sequenceErrors := if number then rx.counters.sequenceErrors else count rx.counters.sequenceErrors 1
        frameNumberErrors := if number then count rx.counters.frameNumberErrors 1
          else rx.counters.frameNumberErrors } }) hsilence (satAdd_health hshort)
  · rw [hfinal, hnumber h]
    exact ⟨rfl, rfl⟩
  · rw [hfinal, hplace h]
    exact ⟨rfl, rfl⟩

end Sys2Proof.Machine

/-! SUPPORT. Damaged lines and a LINE that is taken, as changes of the lane's blocks (R8, R9, R11, R12, R46 to R48). -/

namespace Sys2Proof.Machine

/-! ### Damaged lines (R9, R46) -/

/-- Damaged lines at the end of a slot's list. -/
def HeldSlot.addLines (lines : List Nat) (h : HeldSlot) : HeldSlot :=
  { h with record := { h.record with damaged := h.record.damaged ++ lines } }

theorem HeldSlot.addLines_nil (h : HeldSlot) : h.addLines [] = h := by
  rw [HeldSlot.addLines, List.append_nil]

theorem HeldSlot.addLines_addLines (a b : List Nat) (h : HeldSlot) : (h.addLines a).addLines b = h.addLines (a ++ b) := by
  simp only [HeldSlot.addLines, List.append_assoc]

/-- Damaged lines entered in the open frame's record, or kept with its deferred opening. -/
def LaneStore.enterLines (lines : List Nat) (st : LaneStore) : LaneStore :=
  match st.opening with
  | .stored i => { st with ring := st.ring.modify i (Option.map (HeldSlot.addLines lines)) }
  | .deferred number g damaged => { st with opening := .deferred number g (damaged ++ lines) }
  | _ => st

theorem LaneStore.enterLines_nil (st : LaneStore) : st.enterLines [] = st := by
  obtain ⟨ring, buffer, pending, opening⟩ := st
  cases opening with
  | stored i =>
    refine congrArg (fun ring => LaneStore.mk ring buffer pending (.stored i)) (Four.modify_self ?_)
    rw [funext HeldSlot.addLines_nil, Option.map_id']
  | deferred number g damaged =>
    exact congrArg (fun l => LaneStore.mk ring buffer pending (.deferred number g l)) (List.append_nil damaged)
  | closed | unstored => rfl

theorem LaneStore.enterLines_enterLines (a b : List Nat) (st : LaneStore) :
    (st.enterLines a).enterLines b = st.enterLines (a ++ b) := by
  obtain ⟨ring, buffer, pending, opening⟩ := st
  cases opening with
  | stored i =>
    refine congrArg (fun ring => LaneStore.mk ring buffer pending (.stored i)) ((Four.modify_modify ..).trans
      (Four.modify_congr ?_))
    simp only [Option.map_map, Function.comp_def, HeldSlot.addLines_addLines]
  | deferred number g damaged =>
    exact congrArg (fun l => LaneStore.mk ring buffer pending (.deferred number g l)) (List.append_assoc ..)
  | closed | unstored => rfl

theorem LaneStore.enterDamaged_eq (line : Nat) (st : LaneStore) : st.enterDamaged line = st.enterLines [line] := by
  obtain ⟨ring, buffer, pending, opening⟩ := st
  cases opening <;> exact rfl

/-- What entering damaged lines leaves. -/
theorem LaneStore.enterLines_kept (lines : List Nat) (st : LaneStore) :
    (st.enterLines lines).buffer = st.buffer ∧ (st.enterLines lines).pendingCommit = st.pendingCommit := by
  unfold LaneStore.enterLines
  cases st.opening <;> exact ⟨rfl, rfl⟩

/-- Damaged lines counted, and entered in the frame's record while they are among its first 32 and the lane mode stores
frames (R9). -/
def LaneBlocks.hurt (lines : List Nat) (l : LaneBlocks) : LaneBlocks :=
  { l with
    rx := { l.rx with
      damagedCount := l.rx.damagedCount + lines.length
      counters := { l.rx.counters with damagedLines := raised l.rx.counters.damagedLines lines.length } }
    store := if l.rx.mode.stores then l.store.enterLines (lines.take (32 - l.rx.damagedCount)) else l.store }

theorem LaneBlocks.hurt_nil (l : LaneBlocks) : l.hurt [] = l := by
  unfold LaneBlocks.hurt
  rw [List.take_nil, LaneStore.enterLines_nil, ite_self]
  rfl

theorem raised_raised (x a b : Nat) : raised (raised x a) b = raised x (a + b) := by
  unfold raised
  split <;> split <;> split <;> omega

theorem LaneBlocks.hurt_hurt (a b : List Nat) (l : LaneBlocks) : (l.hurt a).hurt b = l.hurt (a ++ b) := by
  have entered : (if l.rx.mode.stores then (if l.rx.mode.stores then l.store.enterLines (a.take (32 - l.rx.damagedCount))
      else l.store).enterLines (b.take (32 - (l.rx.damagedCount + a.length)))
      else if l.rx.mode.stores then l.store.enterLines (a.take (32 - l.rx.damagedCount)) else l.store)
      = if l.rx.mode.stores then l.store.enterLines ((a ++ b).take (32 - l.rx.damagedCount)) else l.store := by
    by_cases hstores : l.rx.mode.stores = true
    · simp only [if_pos hstores, LaneStore.enterLines_enterLines, List.take_append, Nat.sub_sub]
    · simp only [if_neg hstores]
  unfold LaneBlocks.hurt
  rw [List.length_append]
  simp only [raised_raised, Nat.add_assoc]
  exact congrArg (fun store => { l with
    rx := { l.rx with
      damagedCount := l.rx.damagedCount + (a.length + b.length)
      counters := { l.rx.counters with damagedLines := raised l.rx.counters.damagedLines (a.length + b.length) } }
    store := store }) entered

section Steps

variable {n : Lane} {s : State}

theorem State.addDamaged_eq (n : Lane) (line : Nat) (s : State) :
    s.addDamaged n line = s.modLane n (LaneBlocks.hurt [line]) := by
  have entered : (if ((s.lane n).rx.mode.stores && (s.lane n).rx.damagedCount < 32) = true
      then (s.lane n).store.enterDamaged line else (s.lane n).store)
      = if (s.lane n).rx.mode.stores = true
        then (s.lane n).store.enterLines ([line].take (32 - (s.lane n).rx.damagedCount)) else (s.lane n).store := by
    cases (s.lane n).rx.mode.stores with
    | false => rfl
    | true =>
      by_cases h : (s.lane n).rx.damagedCount < 32
      · rw [Bool.true_and, if_pos (decide_eq_true h), if_pos rfl, LaneStore.enterDamaged_eq,
          List.take_of_length_le (by rw [List.length_singleton]; omega)]
      · rw [Bool.true_and, if_neg (by rwa [decide_eq_true_eq]), if_pos rfl,
          show 32 - (s.lane n).rx.damagedCount = 0 by omega, List.take_zero, LaneStore.enterLines_nil]
  unfold State.addDamaged
  simp only
  by_cases h : ((s.lane n).rx.mode.stores && (s.lane n).rx.damagedCount < 32) = true
  · rw [if_pos h, State.modStore, State.modRx, State.modLane_modLane]
    refine State.modLane_congr ?_
    rw [LaneBlocks.hurt, ← entered, if_pos h]
    rfl
  · rw [if_neg h]
    refine State.modLane_congr ?_
    rw [LaneBlocks.hurt, ← entered, if_neg h]
    rfl

theorem State.addDamagedRun_eq (n : Lane) (first k : Nat) (s : State) :
    s.addDamagedRun n first k = s.modLane n (LaneBlocks.hurt ((List.range k).map (first + ·))) := by
  induction k with
  | zero => exact (State.modLane_self (LaneBlocks.hurt_nil _)).symm
  | succ k ih =>
    unfold State.addDamagedRun at ih ⊢
    rw [List.range_succ, List.foldl_append, ih, List.foldl_cons, List.foldl_nil, State.addDamaged_eq,
      State.modLane_modLane, List.map_append]
    exact State.modLane_congr (LaneBlocks.hurt_hurt _ [first + k] _)

end Steps

/-! ### A LINE that is taken -/

/-- The counters and the damage of a line with this period and this payload (R8, R12). -/
def LaneBlocks.countLine (line : Nat) (out : Bool) (fate : PayloadFate) (l : LaneBlocks) : LaneBlocks :=
  let hurt := if fate = .kept then l else l.hurt [line]
  { hurt with rx := { hurt.rx with counters := { hurt.rx.counters with
    periodErrors := raised l.rx.counters.periodErrors (if out then 1 else 0)
    payloadErrors := raised l.rx.counters.payloadErrors (if fate = .bad then 1 else 0)
    bufferOverflows := raised l.rx.counters.bufferOverflows (if fate = .lost then 1 else 0) } } }

/-- A good payload goes to the write buffer and the tile accumulator, or in CHECK to the checker when its LINE is clean
(R8, R20, R87). -/
def LaneBlocks.keepPayload (q : Packet) (clean : Bool) (l : LaneBlocks) : LaneBlocks :=
  if l.rx.mode.stores then
    { l with store := l.store.enter q.word1 q.payload, dust := l.dust.gather q.word1 q.payload }
  else if clean then { l with test := l.test.takePayload q.payload } else l

/-- The receiver past a LINE: the average, the mark, and the health count, which a fault of the LINE itself raises and a
clean LINE lowers (R7, R11 to R13). -/
def Receiver.pastLine (line now : Nat) (period : PeriodOutcome) (ahead fault : Bool) (r : Receiver) : Receiver :=
  { r.passLine line now period with
    health := if ahead then r.health else if fault then satAdd 32 r.health 1 else r.health - 1 }

/-- The lane's blocks after a LINE was taken (R7, R8). -/
def LaneBlocks.passLine (q : Packet) (ahead : Bool) (now : Nat) (l : LaneBlocks) : LaneBlocks :=
  let period := l.rx.measurePeriod q.word1 now
  let fate := l.payloadFate q
  let fault := period.outOfTolerance || fate != .kept
  let counted := l.countLine q.word1 period.outOfTolerance fate
  let past := { counted with rx := counted.rx.pastLine q.word1 now period ahead fault }
  if fate = .kept then past.keepPayload q (!fault && !ahead) else past

section Taken

variable {n : Lane} {s : State}

theorem State.countLine_eq (n : Lane) (line : Nat) (out : Bool) (fate : PayloadFate) (s : State) :
    (s.countPeriod n out).countPayload n line fate = s.modLane n (LaneBlocks.countLine line out fate) := by
  have period : s.countPeriod n out = s.modLane n fun l => { l with rx := { l.rx with counters := { l.rx.counters with
      periodErrors := raised l.rx.counters.periodErrors (if out then 1 else 0) } } } := by
    cases out with
    | true => rfl
    | false => exact (State.modLane_self rfl).symm
  rw [period]
  cases fate with
  | kept => rfl
  | bad | lost =>
    simp only [State.countPayload, State.addDamaged_eq, State.modCounters, State.modRx, State.modLane_modLane]
    exact State.modLane_congr rfl

theorem State.keepPayload_eq (n : Lane) (q : Packet) (clean : Bool) (s : State) :
    s.keepPayload n q clean .kept = s.modLane n (LaneBlocks.keepPayload q clean) := by
  unfold State.keepPayload
  by_cases hstores : (s.lane n).rx.mode.stores = true
  · simp only [if_pos hstores, State.storeLine, State.modStore, State.modDust, State.modLane_modLane]
    exact State.modLane_congr (if_pos hstores : LaneBlocks.keepPayload q clean (s.lane n) = _).symm
  · simp only [if_neg hstores]
    cases clean with
    | true => exact State.modLane_congr (if_neg hstores : LaneBlocks.keepPayload q true (s.lane n) = _).symm
    | false => exact (State.modLane_self (if_neg hstores : LaneBlocks.keepPayload q false (s.lane n) = _)).symm

theorem State.pastLine_eq (line now : Nat) (period : PeriodOutcome) {ahead fault : Bool}
    (hshort : fault = true → ahead = false → (s.lane n).rx.health + 1 < 32) :
    (let u := s.modRx n (Receiver.passLine line now period)
     let u := if fault && !ahead then u.faultyPacket n else u
     if !fault && !ahead then u.modRx n fun r => { r with health := r.health - 1 } else u)
      = s.modLane n fun l => { l with rx := l.rx.pastLine line now period ahead fault } := by
  cases ahead with
  | true =>
    simp only [Bool.not_true, Bool.and_false, Bool.false_eq_true, if_false]
    rfl
  | false =>
    cases fault with
    | true =>
      have short : ((s.modRx n (Receiver.passLine line now period)).lane n).rx.health + 1 < 32 := by
        rw [lane_modRx_rx]
        exact hshort rfl rfl
      show (s.modRx n (Receiver.passLine line now period)).faultyPacket n = _
      rw [State.faultyPacket_eq short, State.modRx, State.modLane_modLane]
      rfl
    | false =>
      exact modRx_modRx s n (Receiver.passLine line now period) fun r => { r with health := r.health - 1 }

theorem LaneBlocks.health_countLine (line : Nat) (out : Bool) (fate : PayloadFate) (l : LaneBlocks) :
    (l.countLine line out fate).rx.health = l.rx.health := by
  cases fate <;> rfl

/-- A LINE that is taken and is no 32nd fault (R7, R8, R13). -/
theorem State.takeLine_eq {q : Packet} {ahead : Bool}
    (hshort : ((s.lane n).rx.measurePeriod q.word1 s.now).outOfTolerance = true ∨ (s.lane n).payloadFate q ≠ .kept →
      ahead = false → (s.lane n).rx.health + 1 < 32) :
    s.takeLine n q ahead = (s.modLane n (LaneBlocks.passLine q ahead s.now)).lineToTiming n q.word1 q.number := by
  have hpass : (s.lane n).passLine q ahead s.now =
      let period := (s.lane n).rx.measurePeriod q.word1 s.now
      let fate := (s.lane n).payloadFate q
      let fault := period.outOfTolerance || fate != .kept
      let counted := (s.lane n).countLine q.word1 period.outOfTolerance fate
      let past := { counted with rx := counted.rx.pastLine q.word1 s.now period ahead fault }
      if fate = .kept then past.keepPayload q (!fault && !ahead) else past := rfl
  generalize hperiod : (s.lane n).rx.measurePeriod q.word1 s.now = period at *
  generalize hfate : (s.lane n).payloadFate q = fate at *
  have short : (period.outOfTolerance || fate != .kept) = true → ahead = false → (s.lane n).rx.health + 1 < 32 :=
    fun h => hshort (by simpa using h)
  have notLast : ¬((period.outOfTolerance || fate != .kept) && !ahead && decide ((s.lane n).rx.health + 1 ≥ 32)) = true := by
    simp only [Bool.and_eq_true, Bool.not_eq_true', decide_eq_true_eq]
    exact fun ⟨⟨hfault, hahead⟩, hlast⟩ => Nat.not_lt.2 hlast (short hfault hahead)
  have hlane : ((s.modLane n (LaneBlocks.countLine q.word1 period.outOfTolerance fate)).lane n).rx.health
      = (s.lane n).rx.health := by
    rw [State.lane_modLane_same, LaneBlocks.health_countLine]
  have past := State.pastLine_eq (n := n) (s := s.modLane n (LaneBlocks.countLine q.word1 period.outOfTolerance fate))
    q.word1 s.now period (ahead := ahead) (fault := period.outOfTolerance || fate != .kept) (by rw [hlane]; exact short)
  rw [State.takeLine]
  simp only [hperiod, hfate, State.countLine_eq, if_neg notLast]
  refine congrArg (fun t : State => t.lineToTiming n q.word1 q.number) ((congrArg (State.keepPayload n q
    (!(period.outOfTolerance || fate != .kept) && !ahead) fate) past).trans ?_)
  rw [State.modLane_modLane]
  cases fate with
  | kept =>
    rw [State.keepPayload_eq, State.modLane_modLane]
    exact State.modLane_congr hpass.symm
  | bad | lost => exact State.modLane_congr hpass.symm

end Taken

end Sys2Proof.Machine

/-! SUPPORT. The lane's blocks after a LINE of the open frame, in closed form (R7 to R9, R11 to R13, R46 to R48). -/

namespace Sys2Proof.Machine

/-- The lane's blocks after a LINE at the expected number or ahead of it (R7). -/
def LaneBlocks.takeLine (q : Packet) (now : Nat) (l : LaneBlocks) : LaneBlocks :=
  if q.word1 = l.rx.expectedLine then l.passLine q false now
  else (((l.hurt ((List.range (q.word1 - l.rx.expectedLine)).map (l.rx.expectedLine + ·))).countWrong
    false).fault).passLine q true now

/-- Whether a LINE at the expected number or ahead of it is faulty (R7, R8, R12). -/
def LaneBlocks.lineFault (q : Packet) (now : Nat) (l : LaneBlocks) : Bool :=
  decide (0 < q.word1 - l.rx.expectedLine) || (l.rx.measurePeriod q.word1 now).outOfTolerance || l.payloadFate q != .kept

/-- The lines that a LINE damages: those it passes over, and its own when its payload is not taken (R8, R9). -/
def LaneBlocks.lineHurt (q : Packet) (l : LaneBlocks) : List Nat :=
  (List.range (q.word1 - l.rx.expectedLine)).map (l.rx.expectedLine + ·) ++
    if l.payloadFate q = .kept then [] else [q.word1]

section Taken

variable {n : Lane} {s : State} {q : Packet} {g : Geometry} {f : OpenFrame}

/-- The errors of a LINE ahead of the expected number, before it is judged (R7). -/
theorem State.line_ahead (hacq : (s.lane n).rx.acquisition = some g) (hopen : (s.lane n).rx.openFrame = some f)
    (hnumber : f.number = q.number) (hahead : (s.lane n).rx.expectedLine < q.word1) (hlt : q.word1 < g.h) :
    s.line n q =
      let t := (s.modLane n fun l => (l.hurt ((List.range (q.word1 - (s.lane n).rx.expectedLine)).map
        ((s.lane n).rx.expectedLine + ·))).countWrong false).faultyPacket n
      if (t.lane n).rx.state.receiving then t.takeLine n q true else t := by
  have hheight : (s.lane n).rx.height = g.h := by rw [Receiver.height, hacq]; rfl
  simp only [State.line, hopen, if_neg (Classical.not_not.2 hnumber), hheight, if_neg (Nat.not_le.2 hlt),
    if_neg (Nat.lt_asymm hahead), if_neg (Nat.ne_of_gt hahead), State.addDamagedRun_eq, State.countSequence_eq,
    State.modLane_modLane]

theorem State.line_expected (hacq : (s.lane n).rx.acquisition = some g) (hopen : (s.lane n).rx.openFrame = some f)
    (hnumber : f.number = q.number) (hline : q.word1 = (s.lane n).rx.expectedLine) (hlt : q.word1 < g.h) :
    s.line n q = s.takeLine n q false := by
  have hheight : (s.lane n).rx.height = g.h := by rw [Receiver.height, hacq]; rfl
  simp only [State.line, hopen, if_neg (Classical.not_not.2 hnumber), hheight, if_neg (Nat.not_le.2 hlt),
    if_neg (Nat.not_lt.2 (Nat.le_of_eq hline.symm)), if_pos hline]

/-- A LINE of the open frame at the expected number or ahead of it, short of the 32nd fault (R7, R8). -/
theorem State.line_taken (hreceiving : (s.lane n).rx.state.receiving = true)
    (hacq : (s.lane n).rx.acquisition = some g) (hopen : (s.lane n).rx.openFrame = some f)
    (hnumber : f.number = q.number) (hle : (s.lane n).rx.expectedLine ≤ q.word1) (hlt : q.word1 < g.h)
    (hshort : (s.lane n).lineFault q s.now = true → (s.lane n).rx.health + 1 < 32) :
    s.line n q = (s.modLane n (LaneBlocks.takeLine q s.now)).lineToTiming n q.word1 q.number := by
  by_cases hline : q.word1 = (s.lane n).rx.expectedLine
  · rw [State.line_expected hacq hopen hnumber hline hlt, State.takeLine_eq fun h _ => hshort ?_]
    · exact congrArg (State.lineToTiming n q.word1 q.number) (State.modLane_congr
        (if_pos hline : LaneBlocks.takeLine q s.now (s.lane n) = _).symm)
    · simp only [LaneBlocks.lineFault, Bool.or_eq_true, bne_iff_ne]
      exact h.imp .inr id
  · have hahead : (s.lane n).rx.expectedLine < q.word1 := Nat.lt_of_le_of_ne hle (Ne.symm hline)
    have short : (s.lane n).rx.health + 1 < 32 := hshort (by
      simp only [LaneBlocks.lineFault, decide_eq_true (Nat.sub_pos_of_lt hahead), Bool.true_or])
    have hlane (k : LaneBlocks → LaneBlocks) : (s.modLane n k).lane n = k (s.lane n) := State.lane_modLane_same ..
    rw [State.line_ahead hacq hopen hnumber hahead hlt, State.faultyPacket_eq (by rw [hlane]; exact short),
      State.modLane_modLane]
    simp only [hlane]
    refine (if_pos hreceiving).trans ?_
    rw [State.takeLine_eq (ahead := true) fun _ h => absurd h nofun, State.modLane_modLane]
    exact congrArg (State.lineToTiming n q.word1 q.number) (State.modLane_congr
      (if_neg hline : LaneBlocks.takeLine q s.now (s.lane n) = _).symm)

end Taken

/-! ### Closed forms -/

/-- The lane's blocks past a LINE whose payload is taken on. -/
theorem LaneBlocks.passLine_kept {q : Packet} {ahead : Bool} {now : Nat} {l : LaneBlocks} (h : l.payloadFate q = .kept) :
    let period := l.rx.measurePeriod q.word1 now
    l.passLine q ahead now = LaneBlocks.keepPayload q (!period.outOfTolerance && !ahead) { l with rx :=
      { l.rx.pastLine q.word1 now period ahead period.outOfTolerance with counters := { l.rx.counters with
        periodErrors := raised l.rx.counters.periodErrors (if period.outOfTolerance then 1 else 0) } } } := by
  intro period
  unfold LaneBlocks.passLine
  simp only [h]
  cases (l.rx.measurePeriod q.word1 now).outOfTolerance <;>
  · simp only [period]
    rfl

/-- The lane's blocks past a LINE whose payload is not taken on: it is damaged. -/
theorem LaneBlocks.passLine_damaged {q : Packet} {ahead : Bool} {now : Nat} {l : LaneBlocks}
    (h : l.payloadFate q ≠ .kept) :
    let period := l.rx.measurePeriod q.word1 now
    let hurt := l.hurt [q.word1]
    l.passLine q ahead now = { hurt with rx :=
      { hurt.rx.pastLine q.word1 now period ahead true with counters := { hurt.rx.counters with
        periodErrors := raised l.rx.counters.periodErrors (if period.outOfTolerance then 1 else 0)
        payloadErrors := raised l.rx.counters.payloadErrors (if l.payloadFate q = .bad then 1 else 0)
        bufferOverflows := raised l.rx.counters.bufferOverflows (if l.payloadFate q = .lost then 1 else 0) } } } := by
  intro period hurt
  have hfault : (period.outOfTolerance || l.payloadFate q != .kept) = true := by
    rw [bne_iff_ne.2 h, Bool.or_true]
  unfold LaneBlocks.passLine LaneBlocks.countLine
  simp only [if_neg h, period] at hfault ⊢
  rw [hfault]
  rfl

/-- The receiver after a LINE of the open frame (R7, R11 to R13). -/
def LaneBlocks.lineRx (q : Packet) (now : Nat) (l : LaneBlocks) : Receiver :=
  let period := l.rx.measurePeriod q.word1 now
  { (l.hurt (l.lineHurt q)).rx with
    health := if l.lineFault q now then satAdd 32 l.rx.health 1 else l.rx.health - 1
    expectedLine := q.word1 + 1, mark := some ⟨q.word1, now⟩, average := period.average, periods := period.periods
    periodError := l.rx.periodError || period.outOfTolerance
    counters := { (l.hurt (l.lineHurt q)).rx.counters with
      sequenceErrors := raised l.rx.counters.sequenceErrors (if q.word1 = l.rx.expectedLine then 0 else 1)
      payloadErrors := raised l.rx.counters.payloadErrors (if l.payloadFate q = .bad then 1 else 0)
      bufferOverflows := raised l.rx.counters.bufferOverflows (if l.payloadFate q = .lost then 1 else 0)
      periodErrors := raised l.rx.counters.periodErrors (if period.outOfTolerance then 1 else 0) } }

theorem LaneBlocks.hurt_fault (lines : List Nat) (l : LaneBlocks) :
    ((l.countWrong false).fault).hurt lines = ((l.hurt lines).countWrong false).fault := rfl

theorem LaneBlocks.payloadFate_hurt (lines : List Nat) (q : Packet) (l : LaneBlocks) :
    (((l.hurt lines).countWrong false).fault).payloadFate q = l.payloadFate q := by
  have full : (((l.hurt lines).countWrong false).fault).store.full = l.store.full := by
    show (if _ then _ else _ : LaneStore).full = _
    split
    · rw [LaneStore.full, (LaneStore.enterLines_kept ..).1]
      rfl
    · rfl
  unfold LaneBlocks.payloadFate
  rw [full]
  rfl

theorem Receiver.measurePeriod_congr {r r' : Receiver} (hmark : r'.mark = r.mark) (haverage : r'.average = r.average)
    (hperiods : r'.periods = r.periods) (line now : Nat) : r'.measurePeriod line now = r.measurePeriod line now := by
  simp only [Receiver.measurePeriod, Receiver.foldPeriod, hmark, haverage, hperiods]

theorem LaneBlocks.measurePeriod_hurt (lines : List Nat) (line now : Nat) (l : LaneBlocks) :
    (((l.hurt lines).countWrong false).fault).rx.measurePeriod line now = l.rx.measurePeriod line now :=
  Receiver.measurePeriod_congr rfl rfl rfl line now

section Cases

variable {q : Packet} {now : Nat} {l : LaneBlocks}

theorem LaneBlocks.takeLine_expected_kept (hline : q.word1 = l.rx.expectedLine) (hkept : l.payloadFate q = .kept) :
    l.takeLine q now
      = LaneBlocks.keepPayload q (!l.lineFault q now) { l.hurt (l.lineHurt q) with rx := l.lineRx q now } := by
  have none : q.word1 - l.rx.expectedLine = 0 := by omega
  have hlines : l.lineHurt q = [] := by rw [LaneBlocks.lineHurt, none, if_pos hkept]; rfl
  have hfault : l.lineFault q now = (l.rx.measurePeriod q.word1 now).outOfTolerance := by
    rw [LaneBlocks.lineFault, none, hkept]
    exact Bool.or_false _
  rw [LaneBlocks.takeLine, if_pos hline, LaneBlocks.passLine_kept hkept]
  simp only [LaneBlocks.lineRx, hlines, LaneBlocks.hurt_nil, hfault, if_pos hline, hkept, Bool.not_false, Bool.and_true,
    Receiver.pastLine, Receiver.passLine, Bool.false_eq_true, if_false, reduceCtorEq, raised_zero]

theorem LaneBlocks.takeLine_expected_damaged (hline : q.word1 = l.rx.expectedLine) (hkept : l.payloadFate q ≠ .kept) :
    l.takeLine q now = { l.hurt (l.lineHurt q) with rx := l.lineRx q now } := by
  have none : q.word1 - l.rx.expectedLine = 0 := by omega
  have hlines : l.lineHurt q = [q.word1] := by rw [LaneBlocks.lineHurt, none, if_neg hkept]; rfl
  have hfault : l.lineFault q now = true := by
    rw [LaneBlocks.lineFault, bne_iff_ne.2 hkept, Bool.or_true]
  rw [LaneBlocks.takeLine, if_pos hline, LaneBlocks.passLine_damaged hkept]
  simp only [LaneBlocks.lineRx, hlines, hfault, if_pos hline, Receiver.pastLine, Receiver.passLine, raised_zero,
    LaneBlocks.hurt, Bool.false_eq_true, if_false, if_true]

theorem LaneBlocks.takeLine_ahead_kept (hline : q.word1 ≠ l.rx.expectedLine) (hfault : l.lineFault q now = true)
    (hkept : l.payloadFate q = .kept) : l.takeLine q now
      = LaneBlocks.keepPayload q (!l.lineFault q now) { l.hurt (l.lineHurt q) with rx := l.lineRx q now } := by
  have hlines : l.lineHurt q = (List.range (q.word1 - l.rx.expectedLine)).map (l.rx.expectedLine + ·) := by
    rw [LaneBlocks.lineHurt, if_pos hkept, List.append_nil]
  rw [LaneBlocks.takeLine, if_neg hline, LaneBlocks.passLine_kept ((LaneBlocks.payloadFate_hurt ..).trans hkept)]
  simp only [LaneBlocks.lineRx, hlines, hfault, if_neg hline, hkept, Bool.not_true, Bool.and_false,
    Receiver.pastLine, Receiver.passLine, LaneBlocks.fault, LaneBlocks.countWrong,
    LaneBlocks.hurt, if_true, Bool.false_eq_true, if_false, reduceCtorEq, raised_zero]
  rfl

theorem LaneBlocks.takeLine_ahead_damaged (hline : q.word1 ≠ l.rx.expectedLine) (hfault : l.lineFault q now = true)
    (hkept : l.payloadFate q ≠ .kept) : l.takeLine q now = { l.hurt (l.lineHurt q) with rx := l.lineRx q now } := by
  have hlines : l.lineHurt q = (List.range (q.word1 - l.rx.expectedLine)).map (l.rx.expectedLine + ·) ++ [q.word1] := by
    rw [LaneBlocks.lineHurt, if_neg hkept]
  rw [LaneBlocks.takeLine, if_neg hline, LaneBlocks.passLine_damaged (by rw [LaneBlocks.payloadFate_hurt]; exact hkept)]
  simp only [LaneBlocks.payloadFate_hurt, LaneBlocks.hurt_fault, LaneBlocks.hurt_hurt, LaneBlocks.lineRx, hlines, hfault,
    if_neg hline, LaneBlocks.measurePeriod_hurt]
  simp only [LaneBlocks.fault, LaneBlocks.countWrong, LaneBlocks.hurt, Receiver.pastLine, Receiver.passLine, if_true,
    Bool.false_eq_true, if_false]
  rfl

/-- What a LINE of the open frame makes of the lane's blocks (R7 to R9, R46, R48, R87). -/
theorem LaneBlocks.takeLine_eq (hle : l.rx.expectedLine ≤ q.word1) :
    let hurt := l.hurt (l.lineHurt q)
    l.takeLine q now = if l.payloadFate q = .kept
      then LaneBlocks.keepPayload q (!l.lineFault q now) { hurt with rx := l.lineRx q now }
      else { hurt with rx := l.lineRx q now } := by
  intro hurt
  by_cases hline : q.word1 = l.rx.expectedLine
  · by_cases hkept : l.payloadFate q = .kept
    · exact (LaneBlocks.takeLine_expected_kept hline hkept).trans (if_pos hkept).symm
    · exact (LaneBlocks.takeLine_expected_damaged hline hkept).trans (if_neg hkept).symm
  · have hfault : l.lineFault q now = true := by
      rw [LaneBlocks.lineFault, decide_eq_true (by omega), Bool.true_or, Bool.true_or]
    by_cases hkept : l.payloadFate q = .kept
    · exact (LaneBlocks.takeLine_ahead_kept hline hfault hkept).trans (if_pos hkept).symm
    · exact (LaneBlocks.takeLine_ahead_damaged hline hfault hkept).trans (if_neg hkept).symm

end Cases

end Sys2Proof.Machine

/-! SUPPORT. A clean LINE, the line period and the tile accumulator (R7, R8, R11, R12, R48, R87). -/

namespace Sys2Proof.Machine

/-! ### The line period (R11, R12) -/

theorem absDiff_eq (a b : Nat) : absDiff a b = ((a : Int) - b).natAbs := by
  unfold absDiff
  split <;> omega

section Period

variable {r : Receiver} {line now : Nat}

theorem Receiver.measurePeriod_untested (h : ∀ k, r.mark = some k → k.line + 1 ≠ line) :
    r.measurePeriod line now = ⟨r.average, r.periods, false⟩ := by
  unfold Receiver.measurePeriod
  cases hmark : r.mark with
  | none => rfl
  | some k => exact if_neg (h k hmark)

theorem Receiver.measurePeriod_tested {k tick : Nat} (hline : k + 1 = line) (hmark : r.mark = some ⟨k, tick⟩) :
    r.measurePeriod line now = r.foldPeriod (min 16777215 (now - tick)) := by
  simp only [Receiver.measurePeriod, hmark, if_pos hline]

theorem Receiver.foldPeriod_none {m : Nat} (h : r.average = none) : r.foldPeriod m = ⟨some (16 * m), 1, false⟩ := by
  simp only [Receiver.foldPeriod, h]

theorem Receiver.foldPeriod_some {m avg : Nat} (h : r.average = some avg) : r.foldPeriod m =
    let moved := ((avg : Int) + (16 * (m : Int) - avg).tdiv 8).toNat
    if r.periods < 16 then ⟨some moved, r.periods + 1, false⟩
    else if (16 * (m : Int) - avg).natAbs ≤ avg / 32 then ⟨some moved, r.periods, false⟩
    else ⟨some avg, r.periods, true⟩ := by
  simp only [Receiver.foldPeriod, h, foldEighth_sixteenfold, absDiff_eq, Int.natCast_mul, Int.cast_ofNat_Int]

end Period

/-! ### The write buffer's entry (R48) -/

theorem LaneStore.enter_eq (line : Nat) (payload : List Byte) (st : LaneStore) :
    let longer := st.buffer ++ [⟨.current, line, payload, 0⟩]
    st.enter line payload = { st with buffer := match st.opening with
      | .unstored => longer.dropWhile fun b => b.tag == .current
      | _ => longer } := by
  obtain ⟨ring, buffer, pending, opening⟩ := st
  cases opening <;> exact rfl

/-! ### The clean LINE -/

theorem LaneBlocks.payloadFate_eq {q : Packet} {g : Geometry} {l : LaneBlocks} (hacq : l.rx.acquisition = some g) :
    l.payloadFate q = if (q.payloadOk && q.payload.length == 2 * g.w) = true then
      (if l.rx.mode.stores && decide (2 ≤ l.store.buffer.length) then .lost else .kept) else .bad := by
  have hgood : q.payloadGood l.rx.acquisition = (q.payloadOk && q.payload.length == 2 * g.w) := by
    rw [hacq]
    rfl
  unfold LaneBlocks.payloadFate
  rw [hgood]
  cases q.payloadOk && q.payload.length == 2 * g.w <;> exact rfl

theorem LaneMode.stores_iff {mode : LaneMode} : mode.stores = true ↔ mode ≠ .check := by
  cases mode <;> simp [LaneMode.stores]

/-- The lane's blocks after a clean LINE (R7, R8, R11 to R13). -/
theorem LaneBlocks.takeLine_clean {q : Packet} {now : Nat} {l : LaneBlocks} (hline : q.word1 = l.rx.expectedLine)
    (hkept : l.payloadFate q = .kept) (hperiod : (l.rx.measurePeriod q.word1 now).outOfTolerance = false) :
    l.takeLine q now = LaneBlocks.keepPayload q true { l with rx := { l.rx with
      health := l.rx.health - 1, expectedLine := q.word1 + 1, mark := some ⟨q.word1, now⟩
      average := (l.rx.measurePeriod q.word1 now).average, periods := (l.rx.measurePeriod q.word1 now).periods } } := by
  rw [LaneBlocks.takeLine, if_pos hline, LaneBlocks.passLine_kept hkept]
  simp only [hperiod, Receiver.pastLine, Receiver.passLine, Bool.or_false]
  rfl

theorem State.lineToTiming_other {n : Lane} {line frame : Nat} {s : State}
    (h : ¬(s.timing.master = some n ∧ line = s.timing.syncInForce)) : s.lineToTiming n line frame = s := if_neg h

theorem State.now_heardFrom (m : Moment) (n : Lane) (q : Packet) (s : State) :
    (s.heardFrom m n q).now = max s.now m.tick := State.now_received m n (some q.relay) s

theorem LaneBlocks.rx_keepPayload (q : Packet) (clean : Bool) (l : LaneBlocks) : (l.keepPayload q clean).rx = l.rx := by
  unfold LaneBlocks.keepPayload
  split
  · rfl
  · split <;> rfl

theorem LaneBlocks.keepPayload_stores {q : Packet} {clean : Bool} {l : LaneBlocks} (h : l.rx.mode ≠ .check) :
    l.keepPayload q clean = { l with store := l.store.enter q.word1 q.payload, dust := l.dust.gather q.word1 q.payload } :=
  if_pos (LaneMode.stores_iff.2 h)

theorem LaneBlocks.keepPayload_check {q : Packet} {clean : Bool} {l : LaneBlocks} (h : l.rx.mode = .check) :
    l.keepPayload q clean = if clean then { l with test := l.test.takePayload q.payload } else l :=
  if_neg fun hstores => LaneMode.stores_iff.1 hstores h

section Heard

variable (relay : Relay) (q : Packet) (now : Nat) (l : LaneBlocks)

theorem LaneBlocks.payloadFate_heardFrom : (l.heardFrom relay q now).payloadFate q = l.payloadFate q := rfl

theorem LaneBlocks.measurePeriod_heardFrom (line : Nat) :
    (l.heardFrom relay q now).rx.measurePeriod line now = l.rx.measurePeriod line now :=
  Receiver.measurePeriod_congr rfl rfl rfl line now

theorem LaneBlocks.lineFault_heardFrom : (l.heardFrom relay q now).lineFault q now = l.lineFault q now := by
  rw [LaneBlocks.lineFault, LaneBlocks.measurePeriod_heardFrom, LaneBlocks.payloadFate_heardFrom]
  rfl

end Heard

/-- A LINE of the open frame at the expected number or ahead of it, no 32nd fault (R7, R8). -/
theorem exec_cameraPacket_line {m : Moment} {s : State} {n : Lane} {bytes : List Byte} {q : Packet} {g : Geometry}
    {f : OpenFrame} (hreset : s.resetAsserted = false)
    (hstate : (s.lane n).rx.state = .acquiring ∨ (s.lane n).rx.state = .locked) (hmode : (s.lane n).rx.mode ≠ .internal)
    (hparse : parsePacket bytes = some q) (hkind : q.kind = .line) (hacq : (s.lane n).rx.acquisition = some g)
    (hopen : (s.lane n).rx.openFrame = some f) (hnumber : f.number = q.number)
    (hle : (s.lane n).rx.expectedLine ≤ q.word1) (hlt : q.word1 < g.h)
    (hshort : (s.lane n).lineFault q (max s.now m.tick) = true → (s.lane n).rx.health + 1 < 32) :
    exec (.cameraPacket m n bytes) s = .next (((s.heardFrom m n q).modLane n
      (LaneBlocks.takeLine q (max s.now m.tick))).lineToTiming n q.word1 q.number).serve := by
  have arrived := State.LaneMoved.heardFrom m n q s
  have hnow := State.now_heardFrom m n q s
  have htaken := State.line_taken (s := s.heardFrom m n q) (n := n) (q := q) (g := g) (f := f)
    (by rw [arrived.rx]; exact LaneState.receiving_iff.2 hstate) (by rw [arrived.rx]; exact hacq)
    (by rw [arrived.rx]; exact hopen) hnumber (by rw [arrived.rx]; exact hle) hlt
    (by rw [arrived.here, hnow, LaneBlocks.lineFault_heardFrom]; exact hshort)
  rw [hnow] at htaken
  exact (exec_cameraPacket_receiving hreset hstate hmode hparse).trans (by rw [hkind, ← htaken])

/-! ### The sums of the tile accumulator (R87) -/

theorem StatSet.addLine_eq (line : Nat) (payload : List Byte) (k : StatSet) :
    let luma := fun x : Nat => (payload.getD (2 * x) 0).toNat
    let columns := k.geometry.w / 64
    let grown := fun (sum : Nat → Nat) (l : List Nat) =>
      l.mapIdx fun i v => if i / columns = line / 32 then v + sum (64 * (i % columns)) else v
    StatSet.addLine line payload k = { k with
      valid := k.valid.mapIdx fun row v => if row = line / 32 then v + 1 else v
      luma := grown (fun first => ((List.range 64).map fun i => luma (first + i)).sum) k.luma
      detail := grown (fun first => ((List.range 63).map fun i =>
        ((luma (first + i + 1) : Int) - luma (first + i)).natAbs).sum) k.detail } := by
  simp only [StatSet.addLine, addRow, tileLuma, tileDetail, lumaAt, byteAt, absDiff_eq]

/-- Settles O33. -/
theorem cleanLineIsTaken : Obligations.CleanLineIsTaken := by
  unfold Obligations.CleanLineIsTaken
  refine ⟨?taken, fun rx line now => ⟨fun tick h => ?_, fun k tick hline hmark => ?_, fun k tick hline hmark => ⟨?_, ?_⟩⟩,
    StatSet.addLine_eq⟩
  case taken =>
    intro m s n bytes q g f rx now hreset hstate hmode hparse hkind hacq hok hlength hopen hnumber hline hlt hroom hperiod
      hmaster
    have hgood : (q.payloadOk && q.payload.length == 2 * g.w) = true := by
      rw [hok, Bool.true_and, beq_iff_eq]
      exact hlength
    have hfate : (s.lane n).payloadFate q = .kept := by
      rw [LaneBlocks.payloadFate_eq hacq, if_pos hgood]
      refine if_neg ?_
      rw [Bool.and_eq_true, LaneMode.stores_iff, decide_eq_true_eq, Classical.not_and_iff_not_or_not, Classical.not_not]
      exact hroom.imp id Nat.not_le.2
    have hfault : (s.lane n).lineFault q now = false := by
      rw [LaneBlocks.lineFault, hfate, show (Receiver.measurePeriod q.word1 now (s.lane n).rx).outOfTolerance = false from
        hperiod, show q.word1 - (s.lane n).rx.expectedLine = 0 from Nat.sub_eq_zero_of_le (Nat.le_of_eq hline)]
      rfl
    have hexec := exec_cameraPacket_line hreset hstate hmode hparse hkind hacq hopen hnumber (Nat.le_of_eq hline.symm) hlt
      fun h => absurd h (Bool.not_eq_true _ ▸ hfault)
    have arrived := State.LaneMoved.heardFrom m n q s
    rw [State.lineToTiming_other (by rw [(arrived.modLane _).timing]; exact hmaster)] at hexec
    have moved := (arrived.modLane (LaneBlocks.takeLine q now)).serve
    rw [LaneBlocks.takeLine_clean (l := (s.lane n).heardFrom _ q now) hline
      ((LaneBlocks.payloadFate_heardFrom ..).trans hfate)
      (by rw [LaneBlocks.measurePeriod_heardFrom]; exact hperiod), LaneBlocks.measurePeriod_heardFrom] at moved
    have hrx := LaneBlocks.rx_heardFrom_line hkind hacq
      (Relay.takePacket n now (some q.relay) (s.lane n).relay).1 now
    rw [if_pos hgood] at hrx
    have kept := LaneBlocks.rxOnly_heardFrom (Relay.takePacket n now (some q.relay) (s.lane n).relay).1 q now (s.lane n)
    have hmode' (h : rx.mode = .normal) : rx.mode ≠ .check := by
      rw [h]
      nofun
    refine ⟨_, hexec, ?_, fun hnormal hstored => ?_, fun hnormal => ?_, fun hcheck => ?_, moved.others, moved.timing,
      moved.dram, moved.jobs, moved.apart, moved.pending⟩
    · exact moved.rx.trans ((LaneBlocks.rx_keepPayload ..).trans (congrArg (fun r : Receiver => { r with
        health := r.health - 1, expectedLine := q.word1 + 1, mark := some ⟨q.word1, now⟩
        average := (rx.measurePeriod q.word1 now).average, periods := (rx.measurePeriod q.word1 now).periods }) hrx))
    · rw [LaneBlocks.keepPayload_stores (by exact hmode' hnormal)] at moved
      have entered : ∀ st : LaneStore, st.opening ≠ .unstored → st.enter q.word1 q.payload
          = { st with buffer := st.buffer ++ [⟨.current, q.word1, q.payload, 0⟩] } := by
        intro st hst
        rw [LaneStore.enter_eq]
        cases hopening : st.opening with
        | unstored => exact absurd hopening hst
        | closed | stored | deferred => rfl
      exact moved.store.trans ((congrArg (LaneStore.enter q.word1 q.payload) kept.store).trans (entered _ hstored))
    · rw [LaneBlocks.keepPayload_stores (by exact hmode' hnormal)] at moved
      exact ⟨moved.dust.trans (congrArg (Dust.gather q.word1 q.payload) kept.dust), moved.test.trans kept.test⟩
    · rw [LaneBlocks.keepPayload_check (by exact hcheck)] at moved
      exact ⟨moved.test.trans (congrArg (fun x : LinkTest => x.takePayload q.payload) kept.test), moved.store.trans kept.store,
        moved.dust.trans kept.dust⟩
  case refine_1 =>
    refine Receiver.measurePeriod_untested fun k hk hnext => ?_
    rcases h with h | h
    · obtain rfl := Option.some.inj (h.symm.trans hk)
      exact Nat.succ_ne_self line hnext
    · exact absurd (h.symm.trans hk) nofun
  case refine_2 => exact Receiver.measurePeriod_untested fun _ hk => Option.some.inj (hmark.symm.trans hk) ▸ hline
  case refine_3 =>
    intro haverage
    rw [Receiver.measurePeriod_tested hline hmark, Receiver.foldPeriod_none haverage]
  case refine_4 =>
    intro avg haverage moved
    rw [Receiver.measurePeriod_tested hline hmark, Receiver.foldPeriod_some haverage]
    refine ⟨fun h => if_pos h, fun h hnear => (if_neg (Nat.not_lt.2 h)).trans (if_pos hnear),
      fun h hfar => (if_neg (Nat.not_lt.2 h)).trans (if_neg (Nat.not_le.2 hfar))⟩

end Sys2Proof.Machine

/-! SUPPORT. A faulty LINE that is taken (R7 to R9, R11 to R13, R46 to R48). -/

namespace Sys2Proof.Machine

section Closed

variable {q : Packet} {now : Nat} {l : LaneBlocks}

theorem LaneBlocks.lineRx_eq (q : Packet) (now : Nat) (l : LaneBlocks) : l.lineRx q now =
    let period := l.rx.measurePeriod q.word1 now
    { l.rx with
      health := if l.lineFault q now then satAdd 32 l.rx.health 1 else l.rx.health - 1
      expectedLine := q.word1 + 1, mark := some ⟨q.word1, now⟩, average := period.average, periods := period.periods
      periodError := l.rx.periodError || period.outOfTolerance
      damagedCount := l.rx.damagedCount + (l.lineHurt q).length
      counters := { l.rx.counters with
        sequenceErrors := raised l.rx.counters.sequenceErrors (if q.word1 = l.rx.expectedLine then 0 else 1)
        payloadErrors := raised l.rx.counters.payloadErrors (if l.payloadFate q = .bad then 1 else 0)
        bufferOverflows := raised l.rx.counters.bufferOverflows (if l.payloadFate q = .lost then 1 else 0)
        periodErrors := raised l.rx.counters.periodErrors (if period.outOfTolerance then 1 else 0)
        damagedLines := raised l.rx.counters.damagedLines (l.lineHurt q).length } } := rfl

theorem LaneBlocks.rx_takeLine (hle : l.rx.expectedLine ≤ q.word1) : (l.takeLine q now).rx = l.lineRx q now := by
  rw [LaneBlocks.takeLine_eq hle]
  split
  · exact LaneBlocks.rx_keepPayload ..
  · rfl

/-- What a LINE of the open frame leaves of the lane's blocks. -/
theorem LaneBlocks.takeLine_apart (hle : l.rx.expectedLine ≤ q.word1) : (l.takeLine q now).relay = l.relay
    ∧ (l.takeLine q now).motion = l.motion ∧ (l.takeLine q now).purge = l.purge := by
  rw [LaneBlocks.takeLine_eq hle]
  unfold LaneBlocks.keepPayload
  split
  · split
    · exact ⟨rfl, rfl, rfl⟩
    · split <;> exact ⟨rfl, rfl, rfl⟩
  · exact ⟨rfl, rfl, rfl⟩

/-- A LINE whose payload is taken on, in NORMAL and INTERNAL (R8, R46, R48, R87). -/
theorem LaneBlocks.takeLine_stored (hle : l.rx.expectedLine ≤ q.word1) (hkept : l.payloadFate q = .kept)
    (hmode : l.rx.mode ≠ .check) : l.takeLine q now = { l with
      rx := l.lineRx q now
      store := (l.store.enterLines ((l.lineHurt q).take (32 - l.rx.damagedCount))).enter q.word1 q.payload
      dust := l.dust.gather q.word1 q.payload } := by
  rw [LaneBlocks.takeLine_eq hle, if_pos hkept, LaneBlocks.keepPayload_stores (by exact hmode), LaneBlocks.hurt,
    if_pos (LaneMode.stores_iff.2 hmode)]

/-- A LINE whose payload is damaged, in NORMAL and INTERNAL (R8, R46). -/
theorem LaneBlocks.takeLine_unstored (hle : l.rx.expectedLine ≤ q.word1) (hkept : l.payloadFate q ≠ .kept)
    (hmode : l.rx.mode ≠ .check) : l.takeLine q now = { l with
      rx := l.lineRx q now
      store := l.store.enterLines ((l.lineHurt q).take (32 - l.rx.damagedCount)) } := by
  rw [LaneBlocks.takeLine_eq hle, if_neg hkept, LaneBlocks.hurt, if_pos (LaneMode.stores_iff.2 hmode)]

/-- A faulty LINE in CHECK (R8, R20). -/
theorem LaneBlocks.takeLine_check (hle : l.rx.expectedLine ≤ q.word1) (hfault : l.lineFault q now = true)
    (hmode : l.rx.mode = .check) : l.takeLine q now = { l with rx := l.lineRx q now } := by
  have hstores : ¬l.rx.mode.stores = true := fun h => LaneMode.stores_iff.1 h hmode
  rw [LaneBlocks.takeLine_eq hle, LaneBlocks.hurt, if_neg hstores, hfault]
  split
  · exact LaneBlocks.keepPayload_check hmode
  · rfl

/-- The checker takes no faulty LINE (R8, R20). -/
theorem LaneBlocks.test_takeLine (hle : l.rx.expectedLine ≤ q.word1) (hfault : l.lineFault q now = true) :
    (l.takeLine q now).test = l.test := by
  rw [LaneBlocks.takeLine_eq hle, hfault]
  unfold LaneBlocks.keepPayload
  split
  · split <;> rfl
  · rfl

end Closed

theorem LaneStore.enterLines_eq (lines : List Nat) (st : LaneStore) : st.enterLines lines = match st.opening with
    | .stored i => { st with ring := st.ring.modify i (Option.map fun h =>
      { h with record := { h.record with damaged := h.record.damaged ++ lines } }) }
    | .deferred number size list => { st with opening := .deferred number size (list ++ lines) }
    | _ => st := by
  unfold LaneStore.enterLines
  cases st.opening <;> exact rfl

theorem LaneStore.enter_enterLines (lines : List Nat) (line : Nat) (payload : List Byte) (st : LaneStore) :
    let longer := st.buffer ++ [⟨.current, line, payload, 0⟩]
    (st.enterLines lines).enter line payload = { st.enterLines lines with buffer := match st.opening with
      | .unstored => longer.dropWhile fun b => b.tag == .current
      | _ => longer } := by
  obtain ⟨ring, buffer, pending, opening⟩ := st
  cases opening <;> exact rfl

theorem LaneMode.stores_eq (mode : LaneMode) : mode.stores = (mode != .check) := by
  cases mode <;> rfl

section Heard

variable {q : Packet} {g : Geometry} {l : LaneBlocks}

/-- A good payload for which the write buffer has no room (R8). -/
def LaneBlocks.loses (good : Bool) (l : LaneBlocks) : Bool :=
  good && l.rx.mode != .check && decide (2 ≤ l.store.buffer.length)

theorem PayloadFate.cases_of (good stores full : Bool) :
    let fate : PayloadFate := if good = true then (if (stores && full) = true then .lost else .kept) else .bad
    (fate = .kept ↔ (good && !(good && stores && full)) = true) ∧ (fate = .bad ↔ good = false)
      ∧ (fate = .lost ↔ (good && stores && full) = true) := by
  cases good <;> cases stores <;> cases full <;> decide

theorem LaneBlocks.fate_cases (hacq : l.rx.acquisition = some g) :
    let good := q.payloadOk && q.payload.length == 2 * g.w
    (l.payloadFate q = .kept ↔ (good && !l.loses good) = true) ∧ (l.payloadFate q = .bad ↔ good = false)
      ∧ (l.payloadFate q = .lost ↔ l.loses good = true) := by
  intro good
  have hfate : l.payloadFate q = if good = true then (if (l.rx.mode != .check && decide (2 ≤ l.store.buffer.length)) = true
      then .lost else .kept) else .bad := by
    rw [LaneBlocks.payloadFate_eq hacq, LaneMode.stores_eq]
  rw [hfate]
  exact PayloadFate.cases_of good (l.rx.mode != .check) (decide (2 ≤ l.store.buffer.length))

theorem LaneBlocks.lineHurt_of (hacq : l.rx.acquisition = some g) :
    let good := q.payloadOk && q.payload.length == 2 * g.w
    l.lineHurt q = (List.range (q.word1 - l.rx.expectedLine)).map (l.rx.expectedLine + ·)
      ++ (if good && !l.loses good then [] else [q.word1]) := by
  intro good
  rw [LaneBlocks.lineHurt, ite_of_iff (LaneBlocks.fate_cases hacq).1 rfl rfl]

theorem LaneBlocks.lineHurt_heardFrom (relay : Relay) (q : Packet) (now : Nat) (l : LaneBlocks) :
    (l.heardFrom relay q now).lineHurt q = l.lineHurt q := by
  rw [LaneBlocks.lineHurt, LaneBlocks.payloadFate_heardFrom]
  rfl

/-- The receiver after a packet that brings a LINE of the open frame (R3, R7 to R9, R11 to R13, R21). -/
theorem LaneBlocks.lineRx_heardFrom (hkind : q.kind = .line) (hacq : l.rx.acquisition = some g)
    (hle : l.rx.expectedLine ≤ q.word1) (relay : Relay) (now : Nat) :
    let good := q.payloadOk && q.payload.length == 2 * g.w
    let period := l.rx.measurePeriod q.word1 now
    (l.heardFrom relay q now).lineRx q now = { l.rx with
      health := if l.lineFault q now then satAdd 32 l.rx.health 1 else l.rx.health - 1
      expectedLine := q.word1 + 1, mark := some ⟨q.word1, now⟩, average := period.average, periods := period.periods
      periodError := l.rx.periodError || period.outOfTolerance
      damagedCount := l.rx.damagedCount + (l.lineHurt q).length
      silenceDue := if good then some (now + msTicks l.rx.silenceTimeout) else l.rx.silenceDue
      counters := { l.rx.counters with
        packetsReceived := raised l.rx.counters.packetsReceived 1
        sequenceErrors := raised l.rx.counters.sequenceErrors (if q.word1 - l.rx.expectedLine = 0 then 0 else 1)
        payloadErrors := raised l.rx.counters.payloadErrors (if good then 0 else 1)
        bufferOverflows := raised l.rx.counters.bufferOverflows (if l.loses good then 1 else 0)
        periodErrors := raised l.rx.counters.periodErrors (if period.outOfTolerance then 1 else 0)
        damagedLines := raised l.rx.counters.damagedLines (l.lineHurt q).length } } := by
  intro good period
  obtain ⟨-, hbad, hlost⟩ := LaneBlocks.fate_cases (q := q) hacq
  have bad : (if l.payloadFate q = .bad then 1 else 0) = if good = true then 0 else 1 := by
    rw [ite_of_iff hbad rfl rfl]
    exact Bool.casesOn (motive := fun b => (if b = false then 1 else 0) = if b = true then 0 else 1) good rfl rfl
  have ahead : (if q.word1 = l.rx.expectedLine then 0 else 1) = if q.word1 - l.rx.expectedLine = 0 then 0 else 1 :=
    ite_of_iff (by omega) rfl rfl
  rw [LaneBlocks.lineRx_eq, LaneBlocks.measurePeriod_heardFrom, LaneBlocks.lineFault_heardFrom,
    LaneBlocks.lineHurt_heardFrom, LaneBlocks.payloadFate_heardFrom, LaneBlocks.rx_heardFrom_line hkind hacq, bad, ahead,
    ite_of_iff hlost rfl rfl]
  rfl

end Heard

/-- Settles O34. -/
theorem faultyLinesAreTaken : Obligations.FaultyLinesAreTaken := by
  unfold Obligations.FaultyLinesAreTaken
  intro m s n bytes q g f rx store now relay up hreset hstate hmode hparse hkind hacq hopen hnumber hle hlt hshort hmaster
    ahead good lost period hurt entered listed longer hfaulty
  have hexec := exec_cameraPacket_line (m := m) hreset hstate hmode hparse hkind hacq hopen hnumber hle hlt
    fun _ => hshort
  have arrived := State.LaneMoved.heardFrom m n q s
  rw [State.lineToTiming_other (by rw [(arrived.modLane _).timing]; exact hmaster)] at hexec
  have moved := (arrived.modLane (LaneBlocks.takeLine q now)).serve
  obtain ⟨hrelay, hmotion, hpurge⟩ := LaneBlocks.takeLine_apart (q := q) (now := now)
    (l := (s.lane n).heardFrom relay.1 q now) hle
  have kept := LaneBlocks.rxOnly_heardFrom relay.1 q now (s.lane n)
  obtain ⟨hkept, -, -⟩ := LaneBlocks.fate_cases (q := q) hacq
  have hfault : (s.lane n).lineFault q now = true := by
    rw [LaneBlocks.lineFault, Bool.or_eq_true, Bool.or_eq_true, decide_eq_true_eq, bne_iff_ne, Ne, hkept]
    show (0 < ahead ∨ period.outOfTolerance = true) ∨ ¬((good && !lost) = true)
    rcases hfaulty with h | h | h | h
    · exact .inl (.inl h)
    · exact .inr (by rw [h]; exact Bool.false_ne_true)
    · exact .inr (by rw [h, Bool.not_true, Bool.and_false]; exact Bool.false_ne_true)
    · exact .inl (.inr h)
  have hhurt : (s.lane n).lineHurt q = hurt := LaneBlocks.lineHurt_of hacq
  have hhealth : (if (s.lane n).lineFault q now then satAdd 32 rx.health 1 else rx.health - 1) = rx.health + 1 := by
    rw [hfault, if_pos rfl, satAdd_health hshort]
  have hrx := LaneBlocks.lineRx_heardFrom hkind hacq hle relay.1 now
  rw [hhurt] at hrx
  have hlisted : ((s.lane n).heardFrom relay.1 q now).store.enterLines
      ((((s.lane n).heardFrom relay.1 q now).lineHurt q).take (32 - rx.damagedCount)) = listed := by
    rw [LaneBlocks.lineHurt_heardFrom, hhurt, kept.store]
    exact LaneStore.enterLines_eq entered store
  have stores (h : rx.mode = .normal) : rx.mode ≠ .check := by
    rw [h]
    nofun
  refine ⟨_, hexec, ?_, fun hnormal hgood hroom => ?_, fun hnormal hdamaged => ?_, fun hcheck => ?_, ?_,
    moved.relay.trans (hrelay.trans kept.relay), moved.chan, moved.others, moved.motion.trans (hmotion.trans kept.motion),
    moved.purge.trans (hpurge.trans kept.purge), moved.timing, moved.comp, moved.dram, moved.jobs, moved.pending⟩
  · refine moved.rx.trans ((LaneBlocks.rx_takeLine (l := (s.lane n).heardFrom relay.1 q now) hle).trans
      (hrx.trans ?_))
    exact congrArg (fun health => { rx with
      health := health, expectedLine := q.word1 + 1, mark := some ⟨q.word1, now⟩
      average := period.average, periods := period.periods
      periodError := rx.periodError || period.outOfTolerance, damagedCount := rx.damagedCount + hurt.length
      silenceDue := if good then some (now + msTicks rx.silenceTimeout) else rx.silenceDue
      counters := { rx.counters with
        packetsReceived := up rx.counters.packetsReceived 1
        sequenceErrors := up rx.counters.sequenceErrors (if ahead = 0 then 0 else 1)
        payloadErrors := up rx.counters.payloadErrors (if good then 0 else 1)
        bufferOverflows := up rx.counters.bufferOverflows (if lost then 1 else 0)
        periodErrors := up rx.counters.periodErrors (if period.outOfTolerance then 1 else 0)
        damagedLines := up rx.counters.damagedLines hurt.length } }) hhealth
  · have takes : (good && !lost) = true := by rw [hgood, hroom]; rfl
    have htaken := LaneBlocks.takeLine_stored (now := now) (l := (s.lane n).heardFrom relay.1 q now) hle
      ((LaneBlocks.payloadFate_heardFrom ..).trans (hkept.2 takes)) (stores hnormal)
    rw [htaken] at moved
    refine ⟨moved.store.trans ?_, moved.dust.trans (congrArg (Dust.gather q.word1 q.payload) kept.dust)⟩
    show LaneStore.enter q.word1 q.payload (LaneStore.enterLines _ _) = _
    rw [LaneBlocks.lineHurt_heardFrom, hhurt, kept.store]
    exact (LaneStore.enter_enterLines entered q.word1 q.payload store).trans (congrArg (fun st : LaneStore => { st with
      buffer := match store.opening with
        | .unstored => longer.dropWhile fun b => b.tag == FrameTag.current
        | _ => longer }) (LaneStore.enterLines_eq entered store))
  · have damages : ¬(good && !lost) = true := by
      rcases hdamaged with h | h
      · rw [h]
        exact Bool.false_ne_true
      · rw [h, Bool.not_true, Bool.and_false]
        exact Bool.false_ne_true
    have htaken := LaneBlocks.takeLine_unstored (now := now) (l := (s.lane n).heardFrom relay.1 q now) hle
      (by rw [LaneBlocks.payloadFate_heardFrom, Ne, hkept]; exact damages) (stores hnormal)
    rw [htaken] at moved
    exact ⟨moved.store.trans hlisted, moved.dust.trans kept.dust⟩
  · have htaken := LaneBlocks.takeLine_check (l := (s.lane n).heardFrom relay.1 q now) hle
      ((LaneBlocks.lineFault_heardFrom ..).trans hfault) hcheck
    rw [htaken] at moved
    exact ⟨moved.store.trans kept.store, moved.dust.trans kept.dust⟩
  · exact moved.test.trans ((LaneBlocks.test_takeLine (l := (s.lane n).heardFrom relay.1 q now) hle
      ((LaneBlocks.lineFault_heardFrom ..).trans hfault)).trans kept.test)

end Sys2Proof.Machine

/-! SUPPORT. The lanes that go down: the silence and recovery timers, a bad header, the down entry (R3, R13, R16, R18,
R19). -/

namespace Sys2Proof.Machine

/-! ### Flags that stand through an event -/

theorem EventFlag.getLsbD_mask (f : EventFlag) : f.mask.getLsbD f.bit = true := by
  rcases f with n | n | n | _ | _ | _ | _ | _ <;> first | decide | (revert n; decide)

theorem EventFlag.bit_lt (f : EventFlag) : f.bit < 24 := by
  cases f <;> simp only [EventFlag.bit] <;> omega

/-- The flag is set and not yet reported. -/
def CommandChannel.Stands (f : EventFlag) (c : CommandChannel) : Prop := c.isSet f = true ∧ c.isReported f = false

theorem CommandChannel.stands_raise_self (f : EventFlag) (c : CommandChannel) : (c.raise f).Stands f := by
  have hbit := f.bit_lt
  unfold CommandChannel.Stands CommandChannel.isSet CommandChannel.isReported CommandChannel.raise
  simp [f.getLsbD_mask, hbit]

/-- Raising a flag sets, and clears marks; it does neither otherwise. -/
theorem CommandChannel.Stands.raise {f : EventFlag} {c : CommandChannel} (h : c.Stands f) (g : EventFlag) :
    (c.raise g).Stands f := by
  obtain ⟨hset, hreported⟩ := h
  unfold CommandChannel.isSet at hset
  unfold CommandChannel.isReported at hreported
  unfold CommandChannel.Stands CommandChannel.isSet CommandChannel.isReported CommandChannel.raise
  simp [hset, hreported]

theorem CommandChannel.Stands.takeReports {f : EventFlag} {c : CommandChannel} (h : c.Stands f) (l : List Notice) :
    (c.takeReports l).Stands f := by
  unfold CommandChannel.takeReports
  split
  · exact h
  · exact h.raise .reportDropped

/-- The flag stands in the state's Command Channel. -/
def State.Stands (f : EventFlag) (s : State) : Prop := s.chan.Stands f

namespace State.Stands

variable {f : EventFlag} {s : State} (h : s.Stands f)

include h

theorem offerAll (l : List Notice) : (s.offerAll l).Stands f := by
  rw [State.offerAll_eq]
  exact h.takeReports l

theorem offer (nt : Notice) : (s.offer nt).Stands f := by
  rw [State.offer_eq]
  exact h.takeReports [nt]

theorem serve : s.serve.Stands f := by
  rw [State.serve_eq]
  exact h

theorem startFrame (d : Option Lane) : (s.startFrame d).Stands f := by
  unfold State.Stands
  rw [State.startFrame_chan]
  exact (h.takeReports _).takeReports _

theorem checkMaster (n : Lane) : (s.checkMaster n).Stands f := by
  have lost : (s.modTiming fun t => t.lose.loseWatch).Stands f := h
  unfold State.checkMaster
  split
  · simp only
    split
    · exact (lost.offer _).startFrame _
    · exact lost.offer _
  · exact h

theorem completeJob : s.completeJob.Stands f := by
  unfold State.completeJob
  split
  · exact h
  · split
    · exact h
    · refine offerAll ?_ _
      exact h

theorem runJobs (fuel : Nat) : (s.runJobs fuel).Stands f := by
  induction fuel generalizing s with
  | zero => exact h
  | succ fuel ih =>
    unfold State.runJobs
    split
    · exact h
    · rename_i j rest _
      have begun : (s.beginJob j).Stands f := h
      split
      · exact h
      · simp only
        split
        · exact begun
        · exact ih begun.completeJob

theorem deliverLaneDown (n : Lane) : (s.deliverLaneDown n).Stands f := by
  have down : (s.down n).Stands f := h
  rw [State.deliverLaneDown_eq]
  exact (down.offerAll _).runJobs _

end State.Stands

/-! ### The down entry -/

theorem State.raiseDown_eq (n : Lane) (lockout : Bool) (s : State) : s.raiseDown n lockout = { s with
    chan := (s.raiseDown n lockout).chan } := by
  cases lockout <;> rfl

theorem State.left_raiseDown (n : Lane) (lockout : Bool) (s : State) : s.Left n (s.raiseDown n lockout) := by
  cases lockout <;> exact { State.Left.refl s with }

theorem State.stands_raiseDown (n : Lane) (lockout : Bool) (s : State) :
    (s.raiseDown n lockout).Stands (.laneFault n) := CommandChannel.stands_raise_self _ _

theorem State.stands_raiseDown_lockout (n : Lane) (s : State) : (s.raiseDown n true).Stands (.laneLockout n) :=
  (CommandChannel.stands_raise_self _ _).raise _

/-- A down entry with its stages named: the lane's receiver, the flags, the report, the lane down, the master. -/
theorem State.downEntry_stages (n : Lane) (cause : DownCause) (s : State) :
    let down := Receiver.goDown cause s.now (s.lane n).rx
    s.downEntry n cause = ((((s.modRx n (Receiver.goDown cause s.now)).raiseDown n (down.state == .lockedOut)).offer
      (laneStateReport n (s.lane n).rx.state down.state cause.report (s.lane n).rx.health down.attempts
        none)).deliverLaneDown n).checkMaster n := by
  intro down
  unfold State.downEntry
  simp only [lane_modRx_rx]
  rfl

theorem State.left_downEntry (n : Lane) (cause : DownCause) (s : State) :
    (s.modRx n (Receiver.goDown cause s.now)).Left n (s.downEntry n cause) := by
  rw [State.downEntry_stages]
  exact ((((State.left_raiseDown n _ _).trans (.offer _ _)).trans (.deliverLaneDown _)).trans (.checkMaster n _))

theorem Receiver.goDown_state (cause : DownCause) (now : Nat) (r : Receiver) (h : r.attempts ≤ 3) :
    (r.goDown cause now).state = if r.attempts = 3 then .lockedOut else cause.target := by
  have hfour : (satAdd 4 r.attempts 1 == 4) = decide (r.attempts = 3) := by
    rw [satAdd, Bool.eq_iff_iff, beq_iff_eq, decide_eq_true_iff]
    omega
  show (if (satAdd 4 r.attempts 1 == 4) = true then LaneState.lockedOut else cause.target) = _
  rw [hfour]
  exact ite_congr (decide_eq_true_eq) (fun _ => rfl) (fun _ => rfl)

/-- A down entry of a lane with fewer than four attempts, but for its counters (R16). -/
theorem Receiver.judged_goDown (cause : DownCause) (now : Nat) (r : Receiver) (h : r.attempts ≤ 3) :
    (r.goDown cause now).judged = { r.judged with
      state := if r.attempts = 3 then .lockedOut else cause.target, attempts := r.attempts + 1
      health := if r.attempts = 3 then 0 else cause.restHealth
      recoveryDue := if r.attempts = 3 then r.recoveryDue else some (now + msTicks r.recoveryDelay)
      openFrame := none, silenceDue := none, cleanFrames := 0, lockedRun := 0, expectedFrame := none } := by
  have hadd : satAdd 4 r.attempts 1 = r.attempts + 1 := by rw [satAdd]; omega
  unfold Receiver.goDown Receiver.judged
  rw [hadd]
  by_cases h3 : r.attempts = 3 <;> simp [h3]

theorem Receiver.video_goDown (cause : DownCause) (now : Nat) (r : Receiver) : (r.goDown cause now).video = false := by
  have hstate : ((r.goDown cause now).state == .locked) = false := by
    show ((if (satAdd 4 r.attempts 1 == 4) = true then LaneState.lockedOut else cause.target) == .locked) = false
    split
    · rfl
    · cases cause <;> rfl
  rw [Receiver.video, hstate, Bool.false_and]

/-- What a down entry leaves: no messages, no master, the flags raised. -/
theorem State.downEntry_down (n : Lane) (cause : DownCause) (s : State) (h : (s.lane n).rx.attempts ≤ 3) :
    ((s.downEntry n cause).lane n).relay.queue = [] ∧ (s.downEntry n cause).timing.master ≠ some n
      ∧ (s.downEntry n cause).Stands (.laneFault n)
      ∧ ((s.lane n).rx.attempts = 3 → (s.downEntry n cause).Stands (.laneLockout n)) := by
  rw [State.downEntry_stages]
  have fault := State.stands_raiseDown n (((s.lane n).rx.goDown cause s.now).state == .lockedOut)
    (s.modRx n (Receiver.goDown cause s.now))
  obtain ⟨queue, master⟩ := State.left_down (u := s.modRx n (Receiver.goDown cause s.now))
    ((State.left_raiseDown n _ _).trans (.offer (laneStateReport n (s.lane n).rx.state
      ((s.lane n).rx.goDown cause s.now).state cause.report (s.lane n).rx.health
      ((s.lane n).rx.goDown cause s.now).attempts none) _))
    (by rw [lane_modRx_rx]; exact Receiver.video_goDown _ _ _)
  refine ⟨queue, master, ((fault.offer _).deliverLaneDown n).checkMaster n, fun h3 => ?_⟩
  have hstate := (s.lane n).rx.goDown_state cause s.now h
  rw [if_pos h3] at hstate
  rw [hstate]
  exact (((State.stands_raiseDown_lockout n _).offer _).deliverLaneDown n).checkMaster n

/-! ### The FAULT line -/

/-- FAULT when no lane enters or leaves LOCKED_OUT. -/
theorem State.faultLine_kept {n : Lane} {s t : State} (supervision : t.chan.supervision = s.chan.supervision)
    (others : ∀ k, k ≠ n → (t.lane k).rx.state = (s.lane k).rx.state) (hs : (s.lane n).rx.state ≠ .lockedOut)
    (ht : (t.lane n).rx.state ≠ .lockedOut) : t.faultLine = s.faultLine := by
  rw [Bool.eq_iff_iff, State.faultLine_iff, State.faultLine_iff, supervision]
  refine or_congr Iff.rfl (exists_congr fun k => ?_)
  by_cases hk : k = n
  · subst hk
    exact ⟨fun h => absurd h ht, fun h => absurd h hs⟩
  · rw [others k hk]

theorem State.faultLine_of_lockedOut {n : Lane} {t : State} (h : (t.lane n).rx.state = .lockedOut) :
    t.faultLine = true := State.faultLine_iff.2 (.inr ⟨n, h⟩)

/-! ### A bad header -/

/-- The lane's blocks after a bad header is counted (R2). -/
def LaneBlocks.countHeader (l : LaneBlocks) : LaneBlocks :=
  { l with rx := { l.rx with counters := { l.rx.counters with headerErrors := count l.rx.counters.headerErrors 1 } } }

theorem State.lanePacket_badHeader {s : State} {n : Lane} (h : (s.lane n).rx.state.receiving = true) :
    s.lanePacket n none = (s.modLane n LaneBlocks.countHeader).faultyPacket n := by
  have hstate : ((s.modLane n LaneBlocks.countHeader).lane n).rx.state.receiving = true := by
    rw [State.lane_modLane_same]
    exact h
  exact if_pos hstate

/-- The 32nd fault takes the lane down (R13). -/
theorem State.faultyPacket_last {s : State} {n : Lane} (h : 31 ≤ (s.lane n).rx.health) :
    s.faultyPacket n = (s.modRx n fun r => { r with health := 32 }).downEntry n .health := by
  have hrx : s.modRx n (fun r => { r with health := satAdd 32 r.health 1 }) = s.modRx n fun r => { r with health := 32 } := by
    refine congrArg (fun lanes => ({ s with lanes := lanes } : State)) (Four.modify_congr ?_)
    show ({ s.lane n with rx := { (s.lane n).rx with health := satAdd 32 (s.lane n).rx.health 1 } } : LaneBlocks) = _
    rw [satAdd, Nat.min_eq_left (by omega)]
    rfl
  unfold State.faultyPacket
  rw [hrx]
  exact if_pos (by rw [lane_modRx_rx])

/-- What the 32nd fault leaves. -/
theorem State.left_lastFault {s : State} {n : Lane} (h : 31 ≤ (s.lane n).rx.health) :
    (s.modRx n fun r => Receiver.goDown .health s.now { r with health := 32 }).Left n (s.faultyPacket n) := by
  have left := State.left_downEntry n .health (s.modRx n fun r => { r with health := 32 })
  rw [modRx_modRx] at left
  rw [State.faultyPacket_last h]
  exact left

/-! ### The bad header in ACQUIRING or LOCKED -/

section BadHeader

variable {m : Moment} {s : State} {n : Lane}

theorem exec_cameraPacket_badHeader {bytes : List Byte} (hreset : s.resetAsserted = false)
    (hstate : (s.lane n).rx.state = .acquiring ∨ (s.lane n).rx.state = .locked) (hmode : (s.lane n).rx.mode ≠ .internal)
    (hparse : parsePacket bytes = none) : exec (.cameraPacket m n bytes) s
      = .next (((s.received m n none).modLane n LaneBlocks.countHeader).faultyPacket n).serve := by
  have hoff : (s.lane n).rx.state ≠ .off := by rcases hstate with h | h <;> rw [h] <;> nofun
  have hreceiving : ((s.received m n none).lane n).rx.state.receiving = true := by
    rw [State.rx_received]
    exact LaneState.receiving_iff.2 hstate
  rw [exec_cameraPacket_of bytes hreset hoff hmode, hparse, Option.map_none, State.lanePacket_badHeader hreceiving]

theorem rx_receive_countHeader (relay : Relay) (l : LaneBlocks) : (l.receive relay).countHeader.rx = { l.rx with
    counters := { l.rx.counters with
      packetsReceived := min 4294967295 (l.rx.counters.packetsReceived + 1)
      headerErrors := min 4294967295 (l.rx.counters.headerErrors + 1) } } := rfl

end BadHeader

/-! ### The down entry spelled -/

theorem EventFlag.mask_lockout_fault (n : Lane) :
    (EventFlag.laneLockout n).mask ||| (EventFlag.laneFault n).mask = BitVec.ofNat 24 (17 * 2 ^ n.val) := by
  revert n
  decide

theorem CommandChannel.raise_raise (f g : EventFlag) (c : CommandChannel) : (c.raise f).raise g = { c with
    flags := c.flags ||| (f.mask ||| g.mask), reported := c.reported &&& ~~~(f.mask ||| g.mask) } := by
  unfold CommandChannel.raise
  rw [BitVec.not_or, BitVec.or_assoc, BitVec.and_assoc]

theorem State.chan_raiseDown (n : Lane) (lockout : Bool) (s : State) : (s.raiseDown n lockout).chan = { s.chan with
    flags := s.chan.flags ||| BitVec.ofNat 24 ((if lockout then 17 else 1) * 2 ^ n.val)
    reported := s.chan.reported &&& ~~~BitVec.ofNat 24 ((if lockout then 17 else 1) * 2 ^ n.val) } := by
  cases lockout with
  | true =>
    refine (CommandChannel.raise_raise _ _ _).trans ?_
    rw [EventFlag.mask_lockout_fault]
    rfl
  | false =>
    have hone : BitVec.ofNat 24 ((if false = true then 17 else 1) * 2 ^ n.val) = (EventFlag.laneFault n).mask := by
      rw [if_neg Bool.false_ne_true, Nat.one_mul]
      rfl
    rw [hone]
    rfl

theorem Receiver.goDown_lockedOut (cause : DownCause) (now : Nat) (r : Receiver) :
    ((r.goDown cause now).state == .lockedOut) = decide (min 4 (r.attempts + 1) = 4) := by
  show ((if decide (min 4 (r.attempts + 1) = 4) = true then LaneState.lockedOut else cause.target) == .lockedOut) = _
  cases decide (min 4 (r.attempts + 1) = 4) with
  | true => rfl
  | false => cases cause <;> rfl

/-- The receiver's part of a down entry, field by field (R16). -/
theorem Receiver.goDown_spelled (silent : Bool) (now : Nat) (r : Receiver) :
    let attempts := min 4 (r.attempts + 1)
    let lockout := decide (attempts = 4)
    r.goDown (if silent then .silence else .health) now = { r with
      attempts := attempts, state := if lockout then .lockedOut else if silent then .silent else .faulted
      health := if lockout || silent then 0 else 32
      recoveryDue := if lockout then r.recoveryDue else some (now + msTicks r.recoveryDelay)
      openFrame := none, silenceDue := none, cleanFrames := 0, lockedRun := 0, expectedFrame := none
      counters := { r.counters with
        lockouts := if lockout then min 4294967295 (r.counters.lockouts + 1) else r.counters.lockouts
        faults := if silent then r.counters.faults else min 4294967295 (r.counters.faults + 1)
        silences := if silent then min 4294967295 (r.counters.silences + 1) else r.counters.silences } } := by
  intro attempts lockout
  have hlockout : (satAdd 4 r.attempts 1 == 4) = lockout := rfl
  unfold Receiver.goDown
  simp only [hlockout]
  cases silent <;> cases lockout <;> rfl

theorem laneStateReport_down (n : Lane) (before : LaneState) (lockout silent : Bool) (health attempts : Nat) :
    laneStateReport n before (if lockout then .lockedOut else if silent then .silent else .faulted)
      (if silent then DownCause.silence else .health).report health attempts none
      = ⟨.laneState, none, .ok, byte1 n.val ++ byte1 before.code
        ++ [if lockout then 6 else if silent then 5 else 4, if silent then 5 else 4]
        ++ byte1 health ++ byte1 attempts⟩ := by
  cases lockout <;> cases silent <;> rfl

/-- Settles O36. -/
theorem lanesGoDown : Obligations.LanesGoDown := by
  unfold Obligations.LanesGoDown
  refine ⟨fun m s n due hreset hdue => ?timers, fun m s n bytes => ?header, fun s n silent => ?entry⟩
  case timers =>
    intro rx others
    refine ⟨fun hstate hsilence hattempts => ⟨_, ?_, rfl, ?_⟩, fun hstate hrecovery => ⟨_, ?_, rfl, ?_⟩⟩
    case refine_1 =>
      have hevent : (((s.advance m).lane n).rx.state.receiving && expired ((s.advance m).lane n).rx.silenceDue
          (s.advance m).now) = true := by
        refine Bool.and_eq_true_iff.2 ⟨LaneState.receiving_iff.2 hstate, ?_⟩
        show expired rx.silenceDue (max s.now m.tick) = true
        rw [hsilence]
        exact decide_eq_true hdue
      exact congrArg Host.Outcome.next (State.onEvent_of_due hreset hevent _)
    case refine_2 =>
      have left := (State.left_downEntry n .silence (s.advance m)).trans (.serve _)
      obtain ⟨here, apart, test⟩ := left.others
      obtain ⟨queue, master, fault, lockout⟩ := State.downEntry_down n .silence (s.advance m) hattempts
      have judged := here.trans (Receiver.judged_goDown .silence (max s.now m.tick) rx hattempts)
      have after : ((((s.advance m).downEntry n .silence).serve).lane n).rx.state
          = if rx.attempts = 3 then .lockedOut else .silent := (congrArg Receiver.state judged :)
      refine ⟨⟨(State.Left.serve _).queue queue, by rw [State.timing_serve]; exact master, apart, test, left.dram,
        left.pending⟩, ?_, fault.serve.1, fault.serve.2, fun h3 => ⟨(lockout h3).serve.1, ?_⟩, fun h3 => ?_⟩
      · rw [judged]
        simp [DownCause.target, DownCause.restHealth, rx]
      · exact State.faultLine_of_lockedOut (n := n) (by rw [after, if_pos h3])
      · refine State.faultLine_kept (n := n) (congrArg CommandChannel.supervision left.reports :)
          (fun k hk => Receiver.state_of_judged (apart k hk).1) ?_ (by rw [after, if_neg h3]; nofun)
        rcases hstate with h | h <;> exact fun h' => by cases h.symm.trans h'
    case refine_3 =>
      have hevent : (((s.advance m).lane n).rx.state.recovering && expired ((s.advance m).lane n).rx.recoveryDue
          (s.advance m).now) = true := by
        refine Bool.and_eq_true_iff.2 ⟨?_, ?_⟩
        · show rx.state.recovering = true
          rcases hstate with h | h <;> rw [h] <;> rfl
        · show expired rx.recoveryDue (max s.now m.tick) = true
          rw [hrecovery]
          exact decide_eq_true hdue
      exact congrArg Host.Outcome.next (State.onEvent_of_due hreset hevent _)
    case refine_4 =>
      have left := (State.left_channelRestart n .recovery none (s.advance m)).trans (.serve _)
      obtain ⟨here, apart, test⟩ := left.others
      obtain ⟨queue, master⟩ := State.channelRestart_down n .recovery none (s.advance m)
      have after : ((((s.advance m).channelRestart n .recovery none).serve).lane n).rx.state = .searching :=
        (congrArg Receiver.state here :)
      refine ⟨⟨(State.Left.serve _).queue queue, by rw [State.timing_serve]; exact master, apart, test, left.dram,
        left.pending⟩, after, (congrArg Receiver.health here :), (congrArg Receiver.attempts here :),
        (congrArg Receiver.acquisition here :), (congrArg Receiver.recoveryDue here :), ?_⟩
      refine State.faultLine_kept (n := n) (congrArg CommandChannel.supervision left.reports :)
        (fun k hk => Receiver.state_of_judged (apart k hk).1) ?_ (by rw [after]; nofun)
      rcases hstate with h | h <;> exact fun h' => by cases h.symm.trans h'
  case header =>
    intro rx hreset hstate hmode hparse hattempts
    have moved := State.LaneMoved.received m n none s
    have unlocked : rx.state ≠ .lockedOut := by rcases hstate with h | h <;> exact fun h' => by cases h.symm.trans h'
    refine ⟨_, exec_cameraPacket_badHeader hreset hstate hmode hparse, ?_⟩
    by_cases hshort : rx.health + 1 < 32
    · have counted := (moved.modLane LaneBlocks.countHeader).modLane LaneBlocks.fault
      have hrx : (((s.received m n none).modLane n LaneBlocks.countHeader).lane n).rx.health + 1 < 32 := by
        rw [State.lane_modLane_same, State.lane_received]
        exact hshort
      rw [State.faultyPacket_eq hrx]
      have counted := counted.serve
      have here : _ = { rx with
          health := rx.health + 1
          counters := { rx.counters with
            packetsReceived := min 4294967295 (rx.counters.packetsReceived + 1)
            headerErrors := min 4294967295 (rx.counters.headerErrors + 1) } } := counted.rx.trans (congrArg (fun health => { rx with
              health := health
              counters := { rx.counters with
                packetsReceived := min 4294967295 (rx.counters.packetsReceived + 1)
                headerErrors := min 4294967295 (rx.counters.headerErrors + 1) } }) (satAdd_health hshort))
      refine ⟨fun _ => ⟨here, counted.timing, ?_⟩, fun h31 => by omega, fun k hk => ?_, fun k => ?_, counted.dram,
        counted.pending⟩
      · refine State.faultLine_kept (n := n) ?_ (fun k hk => by rw [counted.others k hk]) unlocked
          (by rw [here]; exact unlocked)
        rw [counted.chan, State.chan_offerAll, CommandChannel.supervision_takeReports]
      · rw [counted.others k hk]
        exact ⟨rfl, rfl⟩
      · by_cases hk : k = n
        · subst hk
          exact counted.test
        · rw [counted.others k hk]
    · have hlast : 31 ≤ rx.health := by omega
      obtain ⟨counted, hcounted⟩ : ∃ u, u = (s.received m n none).modLane n LaneBlocks.countHeader := ⟨_, rfl⟩
      rw [← hcounted]
      have marked : State.LaneMoved n ((s.lane n).receive (Relay.takePacket n (max s.now m.tick) none
          (s.lane n).relay).1).countHeader _ s counted := hcounted ▸ moved.modLane LaneBlocks.countHeader
      have hrx := marked.rx.trans (rx_receive_countHeader _ _)
      have hnow : counted.now = max s.now m.tick := by
        rw [hcounted]
        exact State.now_received m n none s
      have hfault : 31 ≤ (counted.lane n).rx.health := by
        rw [hrx]
        exact hlast
      have left := (State.left_lastFault hfault).trans (.serve _)
      have down := State.downEntry_down n .health (counted.modRx n fun r => { r with health := 32 })
        (by rw [lane_modRx_rx, hrx]; exact hattempts)
      rw [← State.faultyPacket_last hfault] at down
      obtain ⟨queue, master, -, -⟩ := down
      obtain ⟨here, apart, test⟩ := left.others
      have judged : ((counted.faultyPacket n).serve.lane n).rx.judged = { rx.judged with
          state := if rx.attempts = 3 then .lockedOut else .faulted, attempts := rx.attempts + 1
          health := if rx.attempts = 3 then 0 else 32
          recoveryDue := if rx.attempts = 3 then rx.recoveryDue
            else some (max s.now m.tick + msTicks rx.recoveryDelay)
          openFrame := none, silenceDue := none, cleanFrames := 0, lockedRun := 0, expectedFrame := none } := by
        rw [hrx, hnow] at here
        exact here.trans (Receiver.judged_goDown .health _ _ hattempts)
      have after : ((counted.faultyPacket n).serve.lane n).rx.state = if rx.attempts = 3 then .lockedOut else .faulted :=
        (congrArg Receiver.state judged :)
      have others (k : Lane) (hk : k ≠ n) : ((counted.faultyPacket n).serve.lane k).rx.judged = (s.lane k).rx.judged
          ∧ ((counted.faultyPacket n).serve.lane k).relay = (s.lane k).relay := by
        rw [← marked.others k hk]
        exact apart k hk
      refine ⟨fun h => by omega, fun _ => ⟨judged, (State.Left.serve _).queue queue, by rw [State.timing_serve]; exact master,
        fun h3 => State.faultLine_of_lockedOut (n := n) (by rw [after, if_pos h3]), fun h3 => ?_⟩, others, fun k => ?_,
        left.dram.trans marked.dram, left.pending.trans marked.pending⟩
      · refine State.faultLine_kept (n := n) ((congrArg CommandChannel.supervision left.reports :).trans ?_)
          (fun k hk => Receiver.state_of_judged (others k hk).1) unlocked (by rw [after, if_neg h3]; nofun)
        show counted.chan.supervision = s.chan.supervision
        rw [marked.chan, State.chan_offerAll, CommandChannel.supervision_takeReports]
      · rw [test]
        by_cases hk : k = n
        · subst hk
          exact marked.test
        · rw [marked.others k hk]
  case entry =>
    intro rx up state attempts lockout raised down report
    have hcode : rx.state.code = state := by
      unfold state
      cases rx.state <;> rfl
    have target (c : DownCause) : ((rx.goDown c s.now).state == .lockedOut) = lockout := rx.goDown_lockedOut c s.now
    have hdown : (s.modRx n (Receiver.goDown (if silent then .silence else .health) s.now)).raiseDown n lockout = down := by
      have lanes : (s.modRx n (Receiver.goDown (if silent then .silence else .health) s.now)).lanes = down.lanes := by
        dsimp only [down, State.modRx, State.modLane]
        refine Four.modify_congr ?_
        exact congrArg (fun r => ({ s.lane n with rx := r } : LaneBlocks)) (Receiver.goDown_spelled silent s.now rx)
      rw [State.raiseDown_eq, State.chan_raiseDown]
      exact congrArg (fun lanes => ({ down with lanes := lanes } : State)) lanes
    have hreport : laneStateReport n rx.state (rx.goDown (if silent then .silence else .health) s.now).state
        (if silent then DownCause.silence else .health).report rx.health attempts none = report := by
      rw [Receiver.goDown_spelled, laneStateReport_down, hcode]
    rw [State.downEntry_stages, target, hdown]
    exact congrArg (fun nt => ((down.offer nt).deliverLaneDown n).checkMaster n) hreport

end Sys2Proof.Machine

/-! SUPPORT. The 32nd fault through a FRAME_START, a LINE or a FRAME_END (R5 to R10, R13, R16). -/

namespace Sys2Proof.Machine

/-! ### What a down entry does not read -/

/-- The lane's blocks with a receiver that a down entry does not tell from `r`. -/
def LaneBlocks.withRx (r : Receiver) (l : LaneBlocks) : LaneBlocks :=
  { l with rx := { r with
      silenceDue := l.rx.silenceDue, openFrame := l.rx.openFrame, cleanFrames := l.rx.cleanFrames
      lockedRun := l.rx.lockedRun, expectedFrame := l.rx.expectedFrame } }

/-- A down entry clears the silence timer, the open frame, the runs and the expected frame whatever they were (R16). -/
theorem State.downEntry_withRx {s : State} {n : Lane} {f g : LaneBlocks → LaneBlocks} (cause : DownCause)
    (h : f (s.lane n) = (f (s.lane n)).withRx (g (s.lane n)).rx ∧ f (s.lane n) = { g (s.lane n) with rx := (f (s.lane n)).rx }) :
    (s.modLane n f).downEntry n cause = (s.modLane n g).downEntry n cause := by
  obtain ⟨hrx, hblocks⟩ := h
  have hrx : (f (s.lane n)).rx = ((f (s.lane n)).withRx (g (s.lane n)).rx).rx := congrArg LaneBlocks.rx hrx
  have hlane (k : LaneBlocks → LaneBlocks) : (s.modLane n k).lane n = k (s.lane n) := State.lane_modLane_same ..
  have hdown : (f (s.lane n)).rx.goDown cause s.now = (g (s.lane n)).rx.goDown cause s.now := by
    rw [hrx]
    rfl
  have hstate : (f (s.lane n)).rx.state = (g (s.lane n)).rx.state := by
    rw [hrx]
    rfl
  have hhealth : (f (s.lane n)).rx.health = (g (s.lane n)).rx.health := by
    rw [hrx]
    rfl
  have hleft : (s.modLane n f).modRx n (Receiver.goDown cause s.now) = (s.modLane n g).modRx n (Receiver.goDown cause s.now) := by
    rw [State.modRx, State.modRx, State.modLane_modLane, State.modLane_modLane]
    refine State.modLane_congr ?_
    rw [hdown, hblocks]
  rw [State.downEntry_stages, State.downEntry_stages, hlane, hlane]
  show ((((State.modRx n (Receiver.goDown cause s.now) _).raiseDown n
    (((f (s.lane n)).rx.goDown cause s.now).state == .lockedOut)).offer (laneStateReport n (f (s.lane n)).rx.state
    ((f (s.lane n)).rx.goDown cause s.now).state cause.report (f (s.lane n)).rx.health
    ((f (s.lane n)).rx.goDown cause s.now).attempts none)).deliverLaneDown n).checkMaster n = _
  rw [hleft, hdown, hstate, hhealth]
  rfl

/-- A receiver that differs in its silence timer alone is one of those. -/
theorem LaneBlocks.withRx_silence (l : LaneBlocks) (due : Option Nat) :
    let l' := { l with rx := { l.rx with silenceDue := due } }
    l' = l'.withRx l.rx ∧ l' = { l with rx := l'.rx } := ⟨rfl, rfl⟩

/-- A lane that has gone down receives no frame. -/
theorem State.receiving_downEntry (n : Lane) (cause : DownCause) (s : State) :
    ((s.downEntry n cause).lane n).rx.state.receiving = false := by
  have judged := (State.left_downEntry n cause s).others.1
  have hstate : ((s.downEntry n cause).lane n).rx.state = ((s.lane n).rx.goDown cause s.now).state :=
    Receiver.state_of_judged judged
  rw [hstate]
  show (if (satAdd 4 (s.lane n).rx.attempts 1 == 4) = true then LaneState.lockedOut else cause.target).receiving = false
  split
  · rfl
  · cases cause <;> rfl

theorem State.stays_down {n : Lane} {cause : DownCause} {s t u : State} (h : t = s.downEntry n cause) :
    (if (t.lane n).rx.state.receiving then u else t) = s.downEntry n cause := by
  subst h
  exact if_neg (by rw [State.receiving_downEntry]; exact Bool.false_ne_true)

/-! ### The lane as the down entry finds it -/

/-- The lane's blocks before the down entry of a 32nd fault: its errors counted, its damaged lines entered (R9, R13). -/
def LaneBlocks.lastFault (relay : Relay) (counters : LaneCounters) (hurt : List Nat) (l : LaneBlocks) : LaneBlocks :=
  { l with
    relay := relay
    store := l.store.enterLines (if l.rx.mode = .check then [] else hurt.take (32 - l.rx.damagedCount))
    rx := { l.rx with
      health := 32, damagedCount := l.rx.damagedCount + hurt.length
      counters := { counters with damagedLines := raised l.rx.counters.damagedLines hurt.length } } }

theorem State.faultyPacket_lastFault {s : State} {n : Lane} {f g : LaneBlocks → LaneBlocks} (reports : List Notice)
    (hhealth : (f (s.lane n)).rx.health = 31)
    (h : let full := { f (s.lane n) with rx := { (f (s.lane n)).rx with health := 32 } }
      full = full.withRx (g (s.lane n)).rx ∧ full = { g (s.lane n) with rx := full.rx }) :
    ((s.modLane n f).offerAll reports).faultyPacket n = ((s.modLane n g).offerAll reports).downEntry n .health := by
  have hlane : (s.offerAll reports).lane n = s.lane n := by
    rw [State.offerAll_eq]
    rfl
  rw [← State.offerAll_modLane, ← State.offerAll_modLane, State.faultyPacket_last (by
    rw [State.lane_modLane_same, hlane]
    exact Nat.le_of_eq hhealth.symm), State.modRx, State.modLane_modLane]
  refine State.downEntry_withRx .health ?_
  rw [hlane]
  exact h

/-- `l'` is `l` with a packet's errors and damaged lines counted, before its fault raises the health count. -/
def LaneBlocks.Counted (relay : Relay) (counters : LaneCounters) (hurt : List Nat) (l l' : LaneBlocks) : Prop :=
  l' = { l.lastFault relay counters hurt with
    rx := { (l.lastFault relay counters hurt).rx with health := l.rx.health, silenceDue := l'.rx.silenceDue } }

section Counted

variable {relay : Relay} {q : Packet} {now : Nat} {l : LaneBlocks}

theorem LaneBlocks.counted_hurt (counters : LaneCounters) (lines : List Nat) :
    let hurt := (l.heardFrom relay q now).hurt lines
    l.Counted relay counters lines { hurt with rx := { hurt.rx with
      counters := { counters with damagedLines := raised l.rx.counters.damagedLines lines.length } } } := by
  intro hurt
  have hstore : hurt.store
      = l.store.enterLines (if l.rx.mode = .check then [] else lines.take (32 - l.rx.damagedCount)) := by
    show (if l.rx.mode.stores = true then l.store.enterLines (lines.take (32 - l.rx.damagedCount)) else l.store) = _
    by_cases hmode : l.rx.mode = .check
    · rw [if_pos hmode, LaneStore.enterLines_nil, hmode]
      rfl
    · rw [if_neg hmode, if_pos (LaneMode.stores_iff.2 hmode)]
  unfold LaneBlocks.Counted LaneBlocks.lastFault
  rw [← hstore]
  rfl

/-- A FRAME_START that announces another geometry (R5). -/
theorem LaneBlocks.counted_geometry : l.Counted relay { l.rx.counters with
      packetsReceived := raised l.rx.counters.packetsReceived 1
      geometryErrors := raised l.rx.counters.geometryErrors 1 } [] (l.heardFrom relay q now).countGeometry := by
  have counted := LaneBlocks.counted_hurt (relay := relay) (q := q) (now := now) (l := l) { l.rx.counters with
    packetsReceived := raised l.rx.counters.packetsReceived 1
    geometryErrors := raised l.rx.counters.geometryErrors 1 } []
  rw [LaneBlocks.hurt_nil] at counted
  exact counted

/-- A packet with another frame number than the open frame's (R7, R10). -/
theorem LaneBlocks.counted_wrongNumber : l.Counted relay { l.rx.counters with
      packetsReceived := raised l.rx.counters.packetsReceived 1
      frameNumberErrors := raised l.rx.counters.frameNumberErrors 1 } [] ((l.heardFrom relay q now).countWrong true) := by
  have counted := LaneBlocks.counted_hurt (relay := relay) (q := q) (now := now) (l := l) { l.rx.counters with
    packetsReceived := raised l.rx.counters.packetsReceived 1
    frameNumberErrors := raised l.rx.counters.frameNumberErrors 1 } []
  rw [LaneBlocks.hurt_nil] at counted
  exact counted

/-- A LINE out of sequence, or a FRAME_END with lines missing: these lines are damaged (R7, R10). -/
theorem LaneBlocks.counted_missing (lines : List Nat) : l.Counted relay { l.rx.counters with
      packetsReceived := raised l.rx.counters.packetsReceived 1
      sequenceErrors := raised l.rx.counters.sequenceErrors 1 } lines
    (((l.heardFrom relay q now).hurt lines).countWrong false) :=
  LaneBlocks.counted_hurt (relay := relay) (q := q) (now := now) (l := l) { l.rx.counters with
    packetsReceived := raised l.rx.counters.packetsReceived 1
    sequenceErrors := raised l.rx.counters.sequenceErrors 1 } lines

theorem LaneBlocks.counted_outOfSequence : l.Counted relay { l.rx.counters with
      packetsReceived := raised l.rx.counters.packetsReceived 1
      sequenceErrors := raised l.rx.counters.sequenceErrors 1 } [] ((l.heardFrom relay q now).countWrong false) := by
  have counted := LaneBlocks.counted_missing (relay := relay) (q := q) (now := now) (l := l) []
  rwa [LaneBlocks.hurt_nil] at counted

/-- A LINE at the expected number, with its errors (R8, R12). -/
theorem LaneBlocks.counted_line (line : Nat) (out : Bool) (fate : PayloadFate) : l.Counted relay { l.rx.counters with
      packetsReceived := raised l.rx.counters.packetsReceived 1
      payloadErrors := raised l.rx.counters.payloadErrors (if fate = .bad then 1 else 0)
      bufferOverflows := raised l.rx.counters.bufferOverflows (if fate = .lost then 1 else 0)
      periodErrors := raised l.rx.counters.periodErrors (if out then 1 else 0) } (if fate = .kept then [] else [line])
    ((l.heardFrom relay q now).countLine line out fate) := by
  have hurts : (if fate = .kept then l.heardFrom relay q now else (l.heardFrom relay q now).hurt [line])
      = (l.heardFrom relay q now).hurt (if fate = .kept then [] else [line]) := by
    split
    · exact (LaneBlocks.hurt_nil _).symm
    · rfl
  unfold LaneBlocks.countLine
  rw [hurts]
  exact LaneBlocks.counted_hurt { l.rx.counters with
    packetsReceived := raised l.rx.counters.packetsReceived 1
    payloadErrors := raised l.rx.counters.payloadErrors (if fate = .bad then 1 else 0)
    bufferOverflows := raised l.rx.counters.bufferOverflows (if fate = .lost then 1 else 0)
    periodErrors := raised l.rx.counters.periodErrors (if out then 1 else 0) } _

end Counted

section Last

variable {m : Moment} {n : Lane} {s : State} {q : Packet}

/-- A change of the lane that heard a packet, made before the relay's reports are offered. -/
theorem State.heardFrom_modLane (m : Moment) (n : Lane) (q : Packet) (f : LaneBlocks → LaneBlocks) (s : State) :
    let relay := Relay.takePacket n (max s.now m.tick) (some q.relay) (s.lane n).relay
    (s.heardFrom m n q).modLane n f
      = ((s.advance m).modLane n fun l => f (l.heardFrom relay.1 q (max s.now m.tick))).offerAll relay.2 := by
  intro relay
  rw [State.heardFrom, State.modLane_modLane]
  exact State.received_modLane m n (some q.relay) _ s

/-- The 32nd fault, brought by a packet whose errors are counted and whose damaged lines are entered. -/
theorem State.heardFrom_lastFault {f : LaneBlocks → LaneBlocks} {counters : LaneCounters} {hurt : List Nat}
    (hhealth : (s.lane n).rx.health = 31)
    (h : ∀ relay now, (s.lane n).Counted relay counters hurt (f ((s.lane n).heardFrom relay q now))) :
    let relay := Relay.takePacket n (max s.now m.tick) (some q.relay) (s.lane n).relay
    ((s.heardFrom m n q).modLane n f).faultyPacket n
      = (((s.advance m).modLane n (LaneBlocks.lastFault relay.1 counters hurt)).offerAll relay.2).downEntry n .health := by
  intro relay
  have hf := h relay.1 (max s.now m.tick)
  rw [State.heardFrom_modLane]
  refine State.faultyPacket_lastFault relay.2 ?_ ?_
  · show (f ((s.lane n).heardFrom relay.1 q (max s.now m.tick))).rx.health = 31
    rw [hf]
    exact hhealth
  · intro full
    have hfull : full = { (s.lane n).lastFault relay.1 counters hurt with rx :=
        { ((s.lane n).lastFault relay.1 counters hurt).rx with
          silenceDue := (f ((s.lane n).heardFrom relay.1 q (max s.now m.tick))).rx.silenceDue } } :=
      congrArg (fun l : LaneBlocks => { l with rx := { l.rx with health := 32 } }) hf
    rw [hfull]
    exact LaneBlocks.withRx_silence _ _

/-! ### The packets that bring it -/

variable {g : Geometry}

theorem State.frameStart_other_eq {number : Nat} (hg : (s.lane n).rx.acquisition ≠ some g) :
    s.frameStart n number g = (s.modLane n LaneBlocks.countGeometry).faultyPacket n := if_neg hg

/-- A faulty FRAME_START that announces the acquisition geometry (R6). -/
theorem State.frameStart_last {number : Nat} (hacq : (s.lane n).rx.acquisition = some g)
    (hfault : (s.lane n).rx.startFault number = true) : s.frameStart n number g =
      let t := ((s.cutHead n).modLane n (LaneBlocks.startCounts number)).faultyPacket n
      if (t.lane n).rx.state.receiving then t.openFrame n number g else t := by
  refine (if_pos hacq).trans ((State.takeFrameStart_eq n number g s).trans ?_)
  simp only [if_pos hfault]

/-- The lane's blocks with the errors of a FRAME_START counted, field by field (R6, R51). -/
theorem LaneBlocks.startCounts_eq (number : Nat) (l : LaneBlocks) : l.startCounts number =
    let overtaken := l.rx.openFrame.isSome
    { l with
      rx := { l.rx with
        openFrame := if overtaken then none else l.rx.openFrame
        cleanFrames := if overtaken then 0 else l.rx.cleanFrames
        lockedRun := if overtaken then 0 else l.rx.lockedRun
        counters := { l.rx.counters with
          framesDiscarded := raised l.rx.counters.framesDiscarded (if overtaken then 1 else 0)
          sequenceErrors := raised l.rx.counters.sequenceErrors (if overtaken then 1 else 0)
          frameNumberErrors := raised l.rx.counters.frameNumberErrors (if l.rx.misnumbered number then 1 else 0) } }
      store := if overtaken then l.store.abandon else l.store
      dust := if overtaken then l.dust.dropGathering else l.dust } := by
  unfold LaneBlocks.startCounts
  cases l.rx.openFrame.isSome <;> cases l.rx.misnumbered number <;> rfl

/-- The lane's blocks before the down entry of a FRAME_START that is the 32nd fault (R6, R13, R51). -/
def LaneBlocks.lastStart (relay : Relay) (number : Nat) (l : LaneBlocks) : LaneBlocks :=
  let overtaken := l.rx.openFrame.isSome
  { l with
    relay := relay
    store := if overtaken then { l.store with
        ring := match l.store.opening with
          | .stored i => l.store.ring.set i none
          | _ => l.store.ring
        opening := .closed, buffer := l.store.buffer.filter fun b => b.tag != .current }
      else l.store
    dust := if overtaken then { l.dust with gathering := none } else l.dust
    rx := { l.rx with
      health := 32
      counters := { l.rx.counters with
        packetsReceived := raised l.rx.counters.packetsReceived 1
        framesDiscarded := raised l.rx.counters.framesDiscarded (if overtaken then 1 else 0)
        sequenceErrors := raised l.rx.counters.sequenceErrors (if overtaken then 1 else 0)
        frameNumberErrors := raised l.rx.counters.frameNumberErrors
          (if l.rx.expectedFrame.any fun e => e != number then 1 else 0) } } }

theorem LaneBlocks.counted_start (relay : Relay) (q : Packet) (now : Nat) (l : LaneBlocks) :
    let counted := (l.heardFrom relay q now).startCounts q.number
    let full := { counted with rx := { counted.rx with health := 32 } }
    full = full.withRx (l.lastStart relay q.number).rx ∧ full = { l.lastStart relay q.number with rx := full.rx } := by
  rw [LaneBlocks.startCounts_eq, LaneStore.abandon_eq]
  exact ⟨rfl, rfl⟩

/-- The state that heard a FRAME_START, with the write of an overtaken frame's head line cut (R48). -/
theorem State.heardFrom_cutHead (m : Moment) (n : Lane) (q : Packet) (f : LaneBlocks → LaneBlocks) (s : State) :
    let relay := Relay.takePacket n (max s.now m.tick) (some q.relay) (s.lane n).relay
    let cut := (s.lane n).rx.openFrame.isSome && (s.lane n).store.buffer.head?.any fun b => b.tag == .current
    ((s.heardFrom m n q).cutHead n).modLane n f
      = ((({ s.advance m with arb := { s.arb with port := s.arb.port.map fun tr =>
          { tr with live := tr.live && !(cut && tr.kind.writesLane n) } } } : State).modLane n fun l =>
            f (l.heardFrom relay.1 q (max s.now m.tick))).offerAll relay.2) := by
  intro relay cut
  have arrived := State.LaneMoved.heardFrom m n q s
  have hcut : (((s.heardFrom m n q).lane n).rx.openFrame.isSome
      && ((s.heardFrom m n q).lane n).store.buffer.head?.any fun b => b.tag == FrameTag.current) = cut := by
    rw [arrived.rx, arrived.store]
    rfl
  have hleft := State.heardFrom_modLane m n q f s
  rw [State.cutHead_eq]
  simp only [hcut]
  show State.modArb (fun a => { a with port := a.port.map fun tr =>
    { tr with live := tr.live && !(cut && tr.kind.writesLane n) } }) ((s.heardFrom m n q).modLane n f) = _
  rw [hleft, State.offerAll_eq, State.offerAll_eq]
  rfl

/-- A LINE at the expected number that is the 32nd fault (R7, R8; log 11). -/
theorem State.takeLine_last (hhealth : 31 ≤ (s.lane n).rx.health)
    (hfault : ((s.lane n).rx.measurePeriod q.word1 s.now).outOfTolerance = true ∨ (s.lane n).payloadFate q ≠ .kept) :
    s.takeLine n q false = (s.modLane n (LaneBlocks.countLine q.word1
      ((s.lane n).rx.measurePeriod q.word1 s.now).outOfTolerance ((s.lane n).payloadFate q))).faultyPacket n := by
  have last : ((((s.lane n).rx.measurePeriod q.word1 s.now).outOfTolerance || (s.lane n).payloadFate q != .kept) && !false
      && decide ((s.lane n).rx.health + 1 ≥ 32)) = true := by
    simp only [Bool.and_eq_true, Bool.or_eq_true, bne_iff_ne, Bool.not_false, decide_eq_true_eq, and_true]
    exact ⟨hfault, by omega⟩
  rw [State.takeLine]
  simp only [State.countLine_eq]
  exact if_pos last

theorem State.frameEnd_wrongNumber {number : Nat} (h : ∃ f, (s.lane n).rx.openFrame = some f ∧ f.number ≠ number) :
    s.frameEnd n number = (s.modLane n (LaneBlocks.countWrong true)).faultyPacket n := by
  obtain ⟨f, hopen, hnumber⟩ := h
  simp only [State.frameEnd, hopen, if_pos hnumber, State.countFrameNumber_eq]

theorem State.frameEnd_closed {number : Nat} (h : (s.lane n).rx.openFrame = none) :
    s.frameEnd n number = (s.modLane n (LaneBlocks.countWrong false)).faultyPacket n := by
  simp only [State.frameEnd, h, State.countSequence_eq]

/-- A FRAME_END of the open frame with lines missing (R10). -/
theorem State.frameEnd_missing {number : Nat} {f : OpenFrame} (hacq : (s.lane n).rx.acquisition = some g)
    (hopen : (s.lane n).rx.openFrame = some f) (hnumber : f.number = number) (hmissing : (s.lane n).rx.expectedLine < g.h) :
    s.frameEnd n number =
      let t := (s.modLane n fun l => (l.hurt ((List.range (g.h - (s.lane n).rx.expectedLine)).map
        ((s.lane n).rx.expectedLine + ·))).countWrong false).faultyPacket n
      if (t.lane n).rx.state.receiving then t.closeFrame n f else t := by
  have hheight : (s.lane n).rx.height = g.h := by rw [Receiver.height, hacq]; rfl
  simp only [State.frameEnd, hopen, if_neg (Classical.not_not.2 hnumber), hheight, if_neg (Nat.sub_ne_zero_of_lt hmissing),
    State.addDamagedRun_eq, State.countSequence_eq, State.modLane_modLane]

end Last

/-- Settles O37. -/
theorem thirtySecondFaultGoesDown : Obligations.ThirtySecondFaultGoesDown := by
  unfold Obligations.ThirtySecondFaultGoesDown
  intro m s n bytes q g rx store relay up hreset hstate hmode hparse hacq hhealth heard sequence misnumbered down
    wrongNumber rightNumber
  have arrived := State.LaneMoved.heardFrom m n q s
  have hexec := exec_cameraPacket_receiving (m := m) hreset hstate hmode hparse
  have starts (hkind : q.kind = .frameStart) {u : State}
      (h : (s.heardFrom m n q).frameStart n q.number ⟨q.word1, q.word3⟩ = u) :
      exec (.cameraPacket m n bytes) s = .next u.serve := hexec.trans (by rw [hkind, ← h])
  have brings (hkind : q.kind = .line) {u : State} (h : (s.heardFrom m n q).line n q = u) :
      exec (.cameraPacket m n bytes) s = .next u.serve := hexec.trans (by rw [hkind, ← h])
  have ends (hkind : q.kind = .frameEnd) {u : State} (h : (s.heardFrom m n q).frameEnd n q.number = u) :
      exec (.cameraPacket m n bytes) s = .next u.serve := hexec.trans (by rw [hkind, ← h])
  have hdown (counters : LaneCounters) (hurt : List Nat) : ((((s.advance m).modLane n
      (LaneBlocks.lastFault relay.1 counters hurt)).offerAll relay.2).downEntry n .health).serve = down counters hurt := by
    dsimp only [down]
    refine congrArg (fun lanes => (((({ s.advance m with lanes := lanes } : State).offerAll relay.2).downEntry n
      .health).serve)) (Four.modify_congr ?_)
    exact congrArg (fun store => { s.lane n with
      relay := relay.1, store := store
      rx := { rx with
        health := 32, damagedCount := rx.damagedCount + hurt.length
        counters := { counters with damagedLines := up rx.counters.damagedLines hurt.length } } })
      (LaneStore.enterLines_eq _ store)
  have hexpected : ((s.heardFrom m n q).lane n).rx.expectedLine = rx.expectedLine :=
    (congrArg Receiver.expectedLine arrived.rx :)
  refine ⟨fun hkind => ⟨fun hg => ?geometry, fun hg => ?start⟩, fun hkind => ⟨fun h => ?lineNumber, fun h => ?lineWrong,
    fun h hahead hlt => ?lineAhead, fun h hline hlt => ?lineHere⟩, fun hkind => ⟨fun h => ?endNumber, fun h => ?endClosed,
    fun h hmissing => ?endMissing⟩⟩
  case geometry =>
    rw [← hdown]
    refine starts hkind ((State.frameStart_other_eq ?_).trans
      (State.heardFrom_lastFault hhealth fun _ _ => LaneBlocks.counted_geometry))
    rw [arrived.rx]
    exact fun h => hg (Option.some.inj (hacq.symm.trans h))
  case start =>
    intro overtaken other cut ring hfault
    have hstart := State.frameStart_last (s := s.heardFrom m n q) (n := n) (number := q.number) (g := ⟨q.word1, q.word3⟩)
      (by rw [arrived.rx]; exact hacq.trans (congrArg some hg)) (by
        rw [arrived.rx]
        show (overtaken || other) = true
        rwa [Bool.or_eq_true])
    refine starts hkind (hstart.trans (State.stays_down ?_))
    rw [State.heardFrom_cutHead]
    refine State.faultyPacket_lastFault relay.2 ?_ ?_
    · exact (LaneBlocks.startCounts_judged q.number _).2.trans hhealth
    · exact LaneBlocks.counted_start relay.1 q (max s.now m.tick) (s.lane n)
  case lineNumber =>
    rw [← hdown]
    exact brings hkind ((State.line_wrongNumber (by rw [arrived.rx]; exact h)).trans
      (State.heardFrom_lastFault hhealth fun _ _ => LaneBlocks.counted_wrongNumber))
  case lineWrong =>
    rw [← hdown]
    refine brings hkind ((State.line_wrongLine (g := g) ?_ ?_).trans
      (State.heardFrom_lastFault hhealth fun _ _ => LaneBlocks.counted_outOfSequence))
    · rw [arrived.rx]
      exact hacq
    · rw [arrived.rx]
      exact h.imp id fun ⟨⟨f, hopen, hnumber⟩, hline⟩ => ⟨f, hopen, hnumber, hline⟩
  case lineAhead =>
    obtain ⟨f, hopen, hnumber⟩ := h
    have hline := State.line_ahead (s := s.heardFrom m n q) (n := n) (q := q) (g := g) (f := f)
      (by rw [arrived.rx]; exact hacq) (by rw [arrived.rx]; exact hopen) hnumber (by rw [hexpected]; exact hahead) hlt
    rw [hexpected] at hline
    rw [← hdown]
    exact brings hkind (hline.trans (State.stays_down (State.heardFrom_lastFault hhealth fun _ _ =>
      LaneBlocks.counted_missing _)))
  case lineHere =>
    intro good lost out hfault
    obtain ⟨f, hopen, hnumber⟩ := h
    obtain ⟨hkept, hbad, hlost⟩ := LaneBlocks.fate_cases (q := q) hacq
    have hperiod : ((s.heardFrom m n q).lane n).rx.measurePeriod q.word1 (s.heardFrom m n q).now
        = rx.measurePeriod q.word1 (max s.now m.tick) := by
      rw [arrived.rx, State.now_heardFrom, LaneBlocks.measurePeriod_heardFrom]
    have hfate : ((s.heardFrom m n q).lane n).payloadFate q = (s.lane n).payloadFate q := by
      rw [arrived.here]
      exact LaneBlocks.payloadFate_heardFrom ..
    have bad : (if (s.lane n).payloadFate q = .bad then 1 else 0) = if good = true then 0 else 1 := by
      rw [ite_of_iff hbad rfl rfl]
      exact Bool.casesOn (motive := fun b => (if b = false then 1 else 0) = if b = true then 0 else 1) good rfl rfl
    have hline := State.line_expected (s := s.heardFrom m n q) (n := n) (q := q) (g := g) (f := f)
      (by rw [arrived.rx]; exact hacq) (by rw [arrived.rx]; exact hopen) hnumber (by rw [hexpected]; exact hline) hlt
    have hlast := State.takeLine_last (s := s.heardFrom m n q) (n := n) (q := q)
      (by rw [arrived.rx]; exact Nat.le_of_eq hhealth.symm) (by
        rw [hperiod, hfate, Ne, hkept]
        rcases hfault with h | h | h
        · exact .inr (by show ¬(good && !lost) = true; rw [h]; exact Bool.false_ne_true)
        · exact .inr (by show ¬(good && !lost) = true; rw [h, Bool.not_true, Bool.and_false]; exact Bool.false_ne_true)
        · exact .inl h)
    have hcounted := State.heardFrom_lastFault (m := m) (s := s) (n := n) (q := q) hhealth
      fun relay now => LaneBlocks.counted_line (relay := relay) (q := q) (now := now) q.word1 out
        ((s.lane n).payloadFate q)
    rw [hperiod, hfate] at hlast
    rw [bad, ite_of_iff hlost rfl rfl, ite_of_iff hkept rfl rfl] at hcounted
    rw [← hdown]
    exact brings hkind (hline.trans (hlast.trans hcounted))
  case endNumber =>
    rw [← hdown]
    exact ends hkind ((State.frameEnd_wrongNumber (by rw [arrived.rx]; exact h)).trans
      (State.heardFrom_lastFault hhealth fun _ _ => LaneBlocks.counted_wrongNumber))
  case endClosed =>
    rw [← hdown]
    exact ends hkind ((State.frameEnd_closed (by rw [arrived.rx]; exact h)).trans
      (State.heardFrom_lastFault hhealth fun _ _ => LaneBlocks.counted_outOfSequence))
  case endMissing =>
    obtain ⟨f, hopen, hnumber⟩ := h
    have hend := State.frameEnd_missing (s := s.heardFrom m n q) (n := n) (g := g) (f := f)
      (by rw [arrived.rx]; exact hacq) (by rw [arrived.rx]; exact hopen) hnumber (by rw [hexpected]; exact hmissing)
    rw [hexpected] at hend
    rw [← hdown]
    exact ends hkind (hend.trans (State.stays_down (State.heardFrom_lastFault hhealth fun _ _ =>
      LaneBlocks.counted_missing _)))

end Sys2Proof.Machine

/-! SUPPORT. What the store and the engine leave alone when a frame closes and jobs start and complete (R47, R49 to
R52, R63). -/

namespace Sys2Proof.Machine

/-- A Lane Receiver apart from the three counts that the store and the engine keep of its frames (R21). -/
def Receiver.apartFrames (r : Receiver) : Receiver :=
  { r with counters := { r.counters with framesDiscarded := 0, framesSkipped := 0, framesDropped := 0 } }

theorem Receiver.eq_of_apartFrames {a b : Receiver} (h : a.apartFrames = b.apartFrames) :
    a = { b with counters := { b.counters with
      framesDiscarded := a.counters.framesDiscarded, framesSkipped := a.counters.framesSkipped
      framesDropped := a.counters.framesDropped } } :=
  congrArg (fun r : Receiver => { r with counters := { r.counters with
    framesDiscarded := a.counters.framesDiscarded, framesSkipped := a.counters.framesSkipped
    framesDropped := a.counters.framesDropped } }) h

theorem Receiver.judged_of_apartFrames {a b : Receiver} (h : a.apartFrames = b.apartFrames) : a.judged = b.judged :=
  (congrArg Receiver.judged h :)

/-- The blocks of a lane that the store and the engine leave alone. -/
structure LaneBlocks.Closes (l l' : LaneBlocks) : Prop where
  rx : l'.rx.apartFrames = l.rx.apartFrames
  relay : l'.relay = l.relay
  test : l'.test = l.test

theorem LaneBlocks.Closes.refl (l : LaneBlocks) : l.Closes l := ⟨rfl, rfl, rfl⟩

theorem LaneBlocks.Closes.trans {l l' l'' : LaneBlocks} (h : l.Closes l') (k : l'.Closes l'') : l.Closes l'' :=
  ⟨k.rx.trans h.rx, k.relay.trans h.relay, k.test.trans h.test⟩

/-- What a close and the jobs it starts leave: all but the lanes' stores, engines and frame counts, the job queue, the
transfer on the port and the reports. -/
structure State.Closes (s t : State) : Prop where
  rest : t = { s with lanes := t.lanes, jobs := t.jobs, chan := t.chan, arb := t.arb }
  reports : t.chan.apartReports = s.chan.apartReports
  lanes : ∀ k, (s.lane k).Closes (t.lane k)

namespace State.Closes

theorem refl (s : State) : s.Closes s := ⟨rfl, rfl, fun _ => .refl _⟩

theorem trans {s t u : State} (h : s.Closes t) (k : t.Closes u) : s.Closes u where
  rest := by rw [k.rest, h.rest]
  reports := k.reports.trans h.reports
  lanes n := (h.lanes n).trans (k.lanes n)

theorem modLane {s : State} (n : Lane) {f : LaneBlocks → LaneBlocks} (hf : (s.lane n).Closes (f (s.lane n))) :
    s.Closes (s.modLane n f) where
  rest := rfl
  reports := rfl
  lanes k := by
    by_cases hk : k = n
    · subst hk
      rwa [State.lane_modLane_same]
    · rw [State.lane_modLane_other f s hk]
      exact .refl _

theorem modStore (s : State) (n : Lane) (f : LaneStore → LaneStore) : s.Closes (s.modStore n f) :=
  modLane n ⟨rfl, rfl, rfl⟩

theorem modDust (s : State) (n : Lane) (f : Dust → Dust) : s.Closes (s.modDust n f) := modLane n ⟨rfl, rfl, rfl⟩

theorem countDiscarded (s : State) (n : Lane) : s.Closes (s.countDiscarded n) := modLane n ⟨rfl, rfl, rfl⟩

theorem countSkipped (s : State) (n : Lane) : s.Closes (s.countSkipped n) := modLane n ⟨rfl, rfl, rfl⟩

theorem withJobs (s : State) (jobs : List Job) : s.Closes { s with jobs := jobs } := ⟨rfl, rfl, fun _ => .refl _⟩

theorem discard (s : State) (p : TransferKind → Bool) : s.Closes (s.discardTransfer p) :=
  ⟨rfl, rfl, fun _ => .refl _⟩

theorem offerAll (s : State) (l : List Notice) : s.Closes (s.offerAll l) := by
  rw [State.offerAll_eq]
  exact { refl s with rest := rfl, reports := CommandChannel.apartReports_takeReports _ _ }

theorem completeJob (s : State) : s.Closes s.completeJob := by
  cases hjobs : s.jobs with
  | nil =>
    rw [State.completeJob, hjobs]
    exact refl s
  | cons j rest =>
    cases hrun : j.run with
    | none =>
      rw [State.completeJob, hjobs]
      simp only [hrun]
      exact refl s
    | some run =>
      obtain ⟨f, hf⟩ := State.completeJob_of hjobs hrun
      rw [hf]
      have completed : s.Closes (s.modLane j.lane (LaneBlocks.completeRun j.number j.slot run)) := by
        refine modLane j.lane ⟨?_, rfl, rfl⟩
        unfold LaneBlocks.completeRun
        simp only
        split <;> rfl
      refine completed.trans ((withJobs _ rest).trans (.trans ?_ (offerAll _ _)))
      exact modLane j.lane ⟨rfl, rfl, rfl⟩

theorem beginJob (j : Job) (s : State) : s.Closes (s.beginJob j) :=
  .trans (modLane (s := s) j.lane ⟨rfl, rfl, rfl⟩) (withJobs _ _)

theorem runJobs (fuel : Nat) (s : State) : s.Closes (s.runJobs fuel) := by
  induction fuel generalizing s with
  | zero => exact refl s
  | succ fuel ih =>
    unfold State.runJobs
    split
    · exact refl s
    · split
      · exact refl s
      · simp only
        split
        · exact beginJob _ s
        · exact (beginJob _ s).trans ((completeJob _).trans (ih _))

theorem startJobs (s : State) : s.Closes s.startJobs := runJobs _ s

theorem enqueue (n : Lane) (slot : Fin 4) (s : State) : s.Closes (s.enqueue n slot) := by
  unfold State.enqueue
  simp only
  split
  · exact ((modStore s n _).trans (modDust _ n _)).trans (withJobs _ _)
  · split
    · exact ((modStore s n _).trans (modDust _ n _)).trans (countSkipped _ n)
    · exact (((modStore s n _).trans (modDust _ n _)).trans (countSkipped _ n)).trans (withJobs _ _)

theorem commit (n : Lane) (p : PendingCommit) (s : State) : s.Closes (s.commit n p) := by
  have withdrawn := modStore s n fun st => { st with pendingCommit := none }
  have freed := (withdrawn.trans (modStore _ n (LaneStore.free p.slot))).trans (modDust _ n Dust.dropClosed)
  unfold State.commit
  refine .trans (.trans ?_ (modStore _ n _)) (startJobs _)
  cases p.openedIn with
  | acquiring => exact freed
  | locked =>
    simp only
    split
    · exact freed.trans (countDiscarded _ n)
    · exact withdrawn.trans (enqueue n p.slot _)

theorem commitIfDrained (n : Lane) (s : State) : s.Closes (s.commitIfDrained n) := by
  unfold State.commitIfDrained
  split
  · split
    · exact commit n _ s
    · exact refl s
  · exact refl s

theorem discardHead (n : Lane) (s : State) : s.Closes (s.discardHead n) := by
  unfold State.discardHead
  split
  · split
    · exact discard s _
    · exact refl s
  · exact refl s

theorem closeUnstored (n : Lane) (o : OpenedIn) (s : State) : s.Closes (s.closeUnstored n o) := by
  have dropped := ((discardHead n s).trans (modStore _ n fun st => LaneStore.dropLines .current
    { st with opening := .closed })).trans (modDust _ n Dust.dropGathering)
  unfold State.closeUnstored
  cases o with
  | acquiring => exact dropped
  | locked => exact dropped.trans (countDiscarded _ n)

theorem storeClose (n : Lane) (damaged dmax : Nat) (o : OpenedIn) (s : State) :
    s.Closes (s.storeClose n damaged dmax o) := by
  unfold State.storeClose
  split
  · exact ((modDust s n _).trans (modStore _ n _)).trans (commitIfDrained n _)
  · exact refl s
  · exact closeUnstored n o s

end State.Closes

/-! ### The close of a frame opened in ACQUIRING -/

/-- The ring of `st'` is that of `st` but for FREE slots. -/
def LaneStore.FreedFrom (st st' : LaneStore) : Prop := ∀ i : Fin 4, st'.ring.get i = none ∨ st'.ring.get i = st.ring.get i

/-- A slot of a role keeps it, or is FREE, when at most other slots become FREE. -/
theorem LaneStore.slotOf_of_freed {st st' : LaneStore} {role : Role} {i : Fin 4} (freed : st.FreedFrom st')
    (h : st.slotOf role = some i) : st'.ring.get i = none ∨ st'.slotOf role = some i := by
  refine (freed i).imp id fun hkept => ?_
  obtain ⟨hi, before, after, hsplit, hbefore⟩ := List.find?_eq_some_iff_append.1 h
  refine List.find?_eq_some_iff_append.2 ⟨by rw [hkept]; exact hi, before, after, hsplit, fun k hk => ?_⟩
  rcases freed k with hfree | hsame
  · rw [hfree]
    rfl
  · rw [hsame]
    exact hbefore k hk

theorem LaneStore.slotOf_enterLines (lines : List Nat) (role : Role) (st : LaneStore) :
    (st.enterLines lines).slotOf role = st.slotOf role := by
  unfold LaneStore.enterLines
  cases st.opening with
  | stored i =>
    unfold LaneStore.slotOf
    refine congrArg (fun p => fourNumbers.find? p) (funext fun k => ?_)
    by_cases hk : k = i
    · subst hk
      simp only [Four.get_modify_same]
      cases st.ring.get k <;> rfl
    · simp only [Four.get_modify_other _ _ hk]
  | closed | unstored | deferred => rfl

/-- The commit of a frame opened in ACQUIRING while a job runs, or none waits. -/
theorem State.commit_acquiring {n : Lane} {s : State} {p : PendingCommit} (hp : p.openedIn = .acquiring)
    (hopening : (s.lane n).store.opening = .closed) (hrun : ∀ j ∈ s.jobs.head?, j.run.isSome = true) :
    (s.commit n p).chan = s.chan ∧ (s.lane n).store.FreedFrom ((s.commit n p).lane n).store := by
  obtain ⟨slot, damaged, dmax, openedIn⟩ := p
  subst hp
  have committed : s.commit n ⟨slot, damaged, dmax, .acquiring⟩ = (((s.modStore n fun st =>
      { st with pendingCommit := none }).modStore n (LaneStore.free slot)).modDust n Dust.dropClosed).modStore n
        LaneStore.performDeferred := State.startJobs_of_running hrun
  have ring : (LaneStore.performDeferred (LaneStore.free slot { (s.lane n).store with pendingCommit := none })).ring
      = (s.lane n).store.ring.set slot none := by
    have closed : (LaneStore.free slot { (s.lane n).store with pendingCommit := none }).opening = .closed := hopening
    rw [LaneStore.performDeferred, closed]
    rfl
  rw [committed]
  refine ⟨rfl, fun i => ?_⟩
  simp only [State.lane_modStore_same, State.modDust, State.lane_modLane_same]
  rw [ring]
  by_cases hi : i = slot
  · subst hi
    exact .inl (Four.get_set_same ..)
  · exact .inr (Four.get_set_other _ _ hi)

/-- What a close of a frame opened in ACQUIRING leaves while a job runs, or none waits: no report, and no slot changes but
that it may become FREE. -/
theorem State.storeClose_acquiring {n : Lane} {s : State} (damaged dmax : Nat)
    (hrun : ∀ j ∈ s.jobs.head?, j.run.isSome = true) :
    (s.storeClose n damaged dmax .acquiring).chan = s.chan
      ∧ (s.lane n).store.FreedFrom ((s.storeClose n damaged dmax .acquiring).lane n).store := by
  unfold State.storeClose
  split
  · rename_i slot _
    have store : (((s.modDust n Dust.closeGathering).modStore n
        (LaneStore.markPending ⟨slot, damaged, dmax, .acquiring⟩)).lane n).store
        = (s.lane n).store.markPending ⟨slot, damaged, dmax, .acquiring⟩ := by
      rw [State.lane_modStore_same, State.modDust, State.lane_modLane_same]
    have marked : (s.lane n).store.FreedFrom ((s.lane n).store.markPending ⟨slot, damaged, dmax, .acquiring⟩) :=
      fun _ => .inr rfl
    unfold State.commitIfDrained
    split
    · rename_i p hp
      rw [store] at hp
      obtain rfl := Option.some.inj hp
      split
      · obtain ⟨chan, freed⟩ := State.commit_acquiring (n := n) (p := ⟨slot, damaged, dmax, .acquiring⟩)
          (s := (s.modDust n Dust.closeGathering).modStore n (LaneStore.markPending ⟨slot, damaged, dmax, .acquiring⟩))
          rfl (by rw [store]; rfl) hrun
        rw [store] at freed
        exact ⟨chan, freed⟩
      · exact ⟨rfl, by rw [store]; exact marked⟩
    · exact ⟨rfl, by rw [store]; exact marked⟩
  · exact ⟨rfl, fun _ => .inr rfl⟩
  · show (((s.discardHead n).modStore n _).modDust n _).chan = s.chan
      ∧ (s.lane n).store.FreedFrom ((((s.discardHead n).modStore n _).modDust n _).lane n).store
    rw [State.discardHead_eq, State.modDust, State.lane_modLane_same, State.lane_modStore_same]
    exact ⟨rfl, fun _ => .inr rfl⟩

/-! ### The lock (R14) -/

theorem State.lock_eq {n : Lane} {g : Geometry} {s : State} (hg : (s.lane n).rx.acquisition = some g) :
    s.lock n =
      let locked := s.modRx n fun r => { r with
        state := .locked, cleanFrames := 0, lockedRun := 0, geometry := g
        counters := { r.counters with locks := count r.counters.locks 1 } }
      let changed := if g = (s.lane n).rx.geometry then locked else (locked.storeRelease n).engineGeometry n g
      changed.offer (laneStateReport n .acquiring .locked .lock (s.lane n).rx.health (s.lane n).rx.attempts none) := by
  have hgeometry : (s.lane n).rx.acquisition.getD (s.lane n).rx.geometry = g := by
    rw [hg]
    rfl
  unfold State.lock
  simp only
  rw [hgeometry]

end Sys2Proof.Machine

/-! SUPPORT. A FRAME_END in ACQUIRING or LOCKED (R10, R13 to R15, R49). -/

namespace Sys2Proof.Machine

/-! ### What the lock makes of the lane -/

section Lock

variable {n : Lane} {g : Geometry} {s : State}

/-- The receiver of a lane that locks (R14). -/
def Receiver.lock (g : Geometry) (r : Receiver) : Receiver :=
  { r with
    state := .locked, cleanFrames := 0, lockedRun := 0, geometry := g
    counters := { r.counters with locks := count r.counters.locks 1 } }

theorem State.lane_lock (hg : (s.lane n).rx.acquisition = some g) : (s.lock n).lane n =
    if g = (s.lane n).rx.geometry then { s.lane n with rx := (s.lane n).rx.lock g }
    else { s.lane n with
      rx := (s.lane n).rx.lock g, store := (s.lane n).store.release, dust := (s.lane n).dust.layout g
      motion := { (s.lane n).motion with jitterX := 0, jitterY := 0, referenceValid := false } } := by
  rw [State.lock_eq hg, State.offer_eq]
  by_cases h : g = (s.lane n).rx.geometry
  · simp only [if_pos h]
    exact State.lane_modLane_same n _ s
  · simp only [if_neg h]
    have released : (State.storeRelease n (s.modRx n (Receiver.lock g))).lane n
        = { s.lane n with rx := (s.lane n).rx.lock g, store := (s.lane n).store.release } := by
      rw [State.lane_storeRelease, State.modRx, State.lane_modLane_same]
    show (State.engineGeometry n g (State.storeRelease n (s.modRx n (Receiver.lock g)))).lane n = _
    rw [State.engineGeometry, State.modDust, State.modMotion, State.lane_modLane_same, State.lane_modLane_same, released]

theorem State.rx_lock (hg : (s.lane n).rx.acquisition = some g) : ((s.lock n).lane n).rx = (s.lane n).rx.lock g := by
  rw [State.lane_lock hg]
  split <;> rfl

/-- What the lock leaves: all but the lane's blocks, the windows of the frame plan, a fetch of the lane on the port, and
the report. -/
theorem State.lock_left (hg : (s.lane n).rx.acquisition = some g) : (∀ k, k ≠ n → (s.lock n).lane k = s.lane k)
    ∧ (s.lock n).chan = (s.offer (laneStateReport n .acquiring .locked .lock (s.lane n).rx.health (s.lane n).rx.attempts
        none)).chan
    ∧ ((s.lock n).lane n).relay = (s.lane n).relay ∧ ((s.lock n).lane n).test = (s.lane n).test
    ∧ (s.lock n).timing = s.timing ∧ (s.lock n).dram = s.dram ∧ (s.lock n).pending = s.pending
    ∧ (g ≠ (s.lane n).rx.geometry → ∀ p ∈ (s.lock n).comp.plan, p.record.lane = n → p.content = .lost) := by
  have relay : ((s.lock n).lane n).relay = (s.lane n).relay := by
    rw [State.lane_lock hg]
    split <;> rfl
  have test : ((s.lock n).lane n).test = (s.lane n).test := by
    rw [State.lane_lock hg]
    split <;> rfl
  have other (k : Lane) (hk : k ≠ n) : (State.engineGeometry n g (State.storeRelease n (s.modRx n (Receiver.lock g)))).lane k
      = s.lane k := by
    rw [State.engineGeometry, State.modDust, State.modMotion, State.lane_modLane_other _ _ hk,
      State.lane_modLane_other _ _ hk, State.lane_storeRelease_other _ hk, State.modRx, State.lane_modLane_other _ _ hk]
  refine ⟨fun k hk => ?_, ?_, relay, test, ?_⟩
  all_goals rw [State.lock_eq hg, State.offer_eq]
  · by_cases h : g = (s.lane n).rx.geometry
    · simp only [if_pos h]
      exact State.lane_modLane_other _ _ hk
    · simp only [if_neg h]
      exact other k hk
  · rw [State.offer_eq]
    by_cases h : g = (s.lane n).rx.geometry
    · simp only [if_pos h]
      rfl
    · simp only [if_neg h]
      rfl
  · by_cases h : g = (s.lane n).rx.geometry
    · simp only [if_pos h]
      exact ⟨rfl, rfl, rfl, fun hg => absurd h hg⟩
    · simp only [if_neg h]
      refine ⟨rfl, rfl, rfl, fun _ p hp hlane => ?_⟩
      obtain ⟨w, -, rfl⟩ := List.mem_map.1 hp
      by_cases hw : w.record.lane = n
      · rw [if_pos hw]
      · rw [if_neg hw] at hlane
        exact absurd hlane hw

/-- A lane that locks forgets how many clean frames it had. -/
theorem State.lock_cleanFrames (k : Nat) (hg : (s.lane n).rx.acquisition = some g) :
    (s.modRx n fun r => { r with cleanFrames := r.cleanFrames + k }).lock n = s.lock n := by
  have hlane := lane_modRx_rx s n fun r => { r with cleanFrames := r.cleanFrames + k }
  rw [State.lock_eq hg, State.lock_eq (g := g) (by rw [hlane]; exact hg), hlane, modRx_modRx]

end Lock

/-! ### The close of a frame -/

/-- The receiver after a frame's close, but for the lock (R10, R14, R15). -/
def Receiver.closeFrame (clean : Bool) (r : Receiver) : Receiver :=
  { (if r.state = .acquiring then { r with cleanFrames := if clean then r.cleanFrames + 1 else 0 } else r.closeLocked) with
    openFrame := none, mark := none }

/-- The state with a frame's close handed to the store, outside CHECK (R10, R20, R49). -/
def State.handClose (n : Lane) (f : OpenFrame) (s : State) : State :=
  if (s.lane n).rx.mode = .check then s
  else s.storeClose n (s.lane n).rx.damagedCount (s.lane n).rx.dmax f.openedIn

theorem State.closes_handClose (n : Lane) (f : OpenFrame) (s : State) : s.Closes (s.handClose n f) := by
  unfold State.handClose
  split
  · exact .refl s
  · exact .storeClose ..

section Close

variable {n : Lane} {g : Geometry} {s : State} {f : OpenFrame}

/-- The receiver that the store's close leaves, but for its counts of frames. -/
theorem State.rx_handClose (n : Lane) (f : OpenFrame) (s : State) : ∃ discarded skipped dropped,
    ((s.handClose n f).lane n).rx = { (s.lane n).rx with counters := { (s.lane n).rx.counters with
      framesDiscarded := discarded, framesSkipped := skipped, framesDropped := dropped } } :=
  ⟨_, _, _, Receiver.eq_of_apartFrames ((s.closes_handClose n f).lanes n).rx⟩

theorem State.closeFrame_eq (n : Lane) (f : OpenFrame) (s : State) :
    let clean := (s.lane n).rx.damagedCount == 0 && !(s.lane n).rx.periodError
    s.closeFrame n f = (if (s.lane n).rx.state = .acquiring then (s.handClose n f).closeAcquiring n clean
      else (s.handClose n f).modRx n Receiver.closeLocked).modRx n fun r => { r with openFrame := none, mark := none } := by
  have hand : (if (s.lane n).rx.mode.stores = true
      then s.storeClose n (s.lane n).rx.damagedCount (s.lane n).rx.dmax f.openedIn else s) = s.handClose n f := by
    unfold State.handClose
    cases (s.lane n).rx.mode <;> rfl
  unfold State.closeFrame
  simp only [hand]
  refine congrArg (State.modRx n fun r => { r with openFrame := none, mark := none }) ?_
  cases (s.lane n).rx.state <;> rfl

/-- A frame's close that locks its lane: the second clean frame in ACQUIRING (R10, R14). -/
theorem State.closeFrame_locks (hg : (s.lane n).rx.acquisition = some g) (hstate : (s.lane n).rx.state = .acquiring)
    (hclean : (s.lane n).rx.damagedCount = 0 ∧ (s.lane n).rx.periodError = false) (hframes : 1 ≤ (s.lane n).rx.cleanFrames) :
    s.closeFrame n f
      = ((s.handClose n f).lock n).modRx n fun r => { r with openFrame := none, mark := none } := by
  obtain ⟨discarded, skipped, dropped, hrx⟩ := State.rx_handClose n f s
  have clean : ((s.lane n).rx.damagedCount == 0 && !(s.lane n).rx.periodError) = true := by
    rw [hclean.1, hclean.2]
    rfl
  have second : 2 ≤ (((s.handClose n f).modRx n fun r => { r with cleanFrames := r.cleanFrames + 1 }).lane
      n).rx.cleanFrames := by
    rw [lane_modRx_rx, hrx]
    exact Nat.succ_le_succ hframes
  rw [State.closeFrame_eq]
  simp only [if_pos hstate, State.closeAcquiring, clean, if_true, if_pos second]
  rw [State.lock_cleanFrames 1 (by rw [hrx]; exact hg)]

/-- A frame's close that does not (R10, R14, R15). -/
theorem State.closeFrame_kept (hlocks : ¬((s.lane n).rx.state = .acquiring
      ∧ ((s.lane n).rx.damagedCount = 0 ∧ (s.lane n).rx.periodError = false) ∧ 1 ≤ (s.lane n).rx.cleanFrames)) :
    s.closeFrame n f = (s.handClose n f).modRx n (Receiver.closeFrame
      ((s.lane n).rx.damagedCount == 0 && !(s.lane n).rx.periodError)) := by
  obtain ⟨discarded, skipped, dropped, hrx⟩ := State.rx_handClose n f s
  have hstate : ((s.handClose n f).lane n).rx.state = (s.lane n).rx.state := by rw [hrx]
  generalize hclean : ((s.lane n).rx.damagedCount == 0 && !(s.lane n).rx.periodError) = clean
  rw [State.closeFrame_eq]
  simp only [hclean]
  have closes (k : Receiver → Receiver) (h : { k ((s.handClose n f).lane n).rx with openFrame := none, mark := none }
      = Receiver.closeFrame clean ((s.handClose n f).lane n).rx) :
      ((s.handClose n f).modRx n k).modRx n (fun r => { r with openFrame := none, mark := none })
        = (s.handClose n f).modRx n (Receiver.closeFrame clean) := by
    rw [modRx_modRx]
    exact State.modLane_congr (congrArg (fun r => ({ (s.handClose n f).lane n with rx := r } : LaneBlocks)) h)
  by_cases hacquiring : (s.lane n).rx.state = .acquiring
  · rw [if_pos hacquiring]
    cases clean with
    | true =>
      have hfirst : ¬2 ≤ (((s.handClose n f).modRx n fun r => { r with cleanFrames := r.cleanFrames + 1 }).lane
          n).rx.cleanFrames := by
        rw [lane_modRx_rx, hrx]
        rw [Bool.and_eq_true, beq_iff_eq, Bool.not_eq_true'] at hclean
        exact fun h => hlocks ⟨hacquiring, hclean, Nat.le_of_succ_le_succ h⟩
      simp only [State.closeAcquiring, if_true, if_neg hfirst]
      refine closes _ ?_
      rw [Receiver.closeFrame, if_pos (hstate.trans hacquiring)]
      rfl
    | false =>
      refine closes (fun r => { r with cleanFrames := 0 }) ?_
      rw [Receiver.closeFrame, if_pos (hstate.trans hacquiring)]
      rfl
  · rw [if_neg hacquiring]
    refine closes _ ?_
    rw [Receiver.closeFrame, if_neg (by rw [hstate]; exact hacquiring)]

end Close

/-! ### The lines missing at a FRAME_END -/

/-- The lane's blocks with the missing lines of a FRAME_END counted and entered (R10). -/
def LaneBlocks.missLines (g : Geometry) (l : LaneBlocks) : LaneBlocks :=
  if g.h - l.rx.expectedLine = 0 then l
  else ((l.hurt ((List.range (g.h - l.rx.expectedLine)).map (l.rx.expectedLine + ·))).countWrong false).fault

/-- A FRAME_END of the open frame, short of the 32nd fault (R10). -/
theorem State.frameEnd_taken {n : Lane} {s : State} {g : Geometry} {f : OpenFrame} {number : Nat}
    (hreceiving : (s.lane n).rx.state.receiving = true) (hacq : (s.lane n).rx.acquisition = some g)
    (hopen : (s.lane n).rx.openFrame = some f) (hnumber : f.number = number)
    (hshort : (s.lane n).rx.health + 1 < 32 ∨ g.h - (s.lane n).rx.expectedLine = 0) :
    s.frameEnd n number = (s.modLane n (LaneBlocks.missLines g)).closeFrame n f := by
  by_cases hmissing : g.h - (s.lane n).rx.expectedLine = 0
  · have hheight : (s.lane n).rx.height = g.h := by rw [Receiver.height, hacq]; rfl
    have missed : s.modLane n (LaneBlocks.missLines g) = s := State.modLane_self (if_pos hmissing)
    rw [missed]
    have unhurt : s.modLane n (LaneBlocks.hurt []) = s := State.modLane_self (LaneBlocks.hurt_nil _)
    simp only [State.frameEnd, hopen, if_neg (Classical.not_not.2 hnumber), hheight, State.addDamagedRun_eq, hmissing,
      List.range_zero, List.map_nil, if_true, unhurt, if_pos hreceiving]
  · have hlane (k : LaneBlocks → LaneBlocks) : (s.modLane n k).lane n = k (s.lane n) := State.lane_modLane_same ..
    rw [State.frameEnd_missing hacq hopen hnumber (by omega), State.faultyPacket_eq (by
      rw [hlane]
      exact hshort.resolve_right hmissing), State.modLane_modLane]
    simp only [hlane]
    refine (if_pos hreceiving).trans ?_
    exact congrArg (State.closeFrame n f) (State.modLane_congr
      (if_neg hmissing : LaneBlocks.missLines g (s.lane n) = _).symm)

/-- The lane's blocks as a FRAME_END finds them once it is judged (R10, R13). -/
def LaneBlocks.endJudged (relay : Relay) (g : Geometry) (now : Nat) (l : LaneBlocks) : LaneBlocks :=
  let missing := g.h - l.rx.expectedLine
  { l with
    relay := relay
    rx := { l.rx with
      silenceDue := some (now + msTicks l.rx.silenceTimeout), damagedCount := l.rx.damagedCount + missing
      health := if missing = 0 then l.rx.health else l.rx.health + 1
      counters := { l.rx.counters with
        packetsReceived := raised l.rx.counters.packetsReceived 1
        sequenceErrors := if missing = 0 then l.rx.counters.sequenceErrors else raised l.rx.counters.sequenceErrors 1
        damagedLines := raised l.rx.counters.damagedLines missing } }
    store := if l.rx.mode = .check then l.store
      else l.store.enterLines (((List.range missing).map (l.rx.expectedLine + ·)).take (32 - l.rx.damagedCount)) }

theorem LaneBlocks.heardFrom_frame {q : Packet} (hkind : q.kind ≠ .line) (relay : Relay) (now : Nat) (l : LaneBlocks) :
    l.heardFrom relay q now = { l with
      relay := relay
      rx := { l.rx with
        silenceDue := some (now + msTicks l.rx.silenceTimeout)
        counters := { l.rx.counters with packetsReceived := raised l.rx.counters.packetsReceived 1 } } } :=
  congrArg (fun r => { l with relay := relay, rx := r }) (LaneBlocks.rx_heardFrom_frame hkind relay now l)

theorem LaneBlocks.missLines_heardFrom {q : Packet} (hkind : q.kind ≠ .line) (relay : Relay) (now : Nat) {g : Geometry}
    {l : LaneBlocks} (hshort : l.rx.health + 1 < 32 ∨ g.h - l.rx.expectedLine = 0) :
    (l.heardFrom relay q now).missLines g = l.endJudged relay g now := by
  by_cases hmissing : g.h - l.rx.expectedLine = 0
  · have none : (l.heardFrom relay q now).missLines g = l.heardFrom relay q now := if_pos hmissing
    rw [none, LaneBlocks.heardFrom_frame hkind, LaneBlocks.endJudged]
    simp only [hmissing, List.range_zero, List.map_nil, List.take_nil, LaneStore.enterLines_nil, ite_self, if_true,
      raised_zero, Nat.add_zero]
  · have some : (l.heardFrom relay q now).missLines g = (((l.heardFrom relay q now).hurt
        ((List.range (g.h - l.rx.expectedLine)).map (l.rx.expectedLine + ·))).countWrong false).fault := if_neg hmissing
    have hhealth := satAdd_health (hshort.resolve_right hmissing)
    have stores : (if l.rx.mode.stores = true then l.store.enterLines (((List.range (g.h - l.rx.expectedLine)).map
        (l.rx.expectedLine + ·)).take (32 - l.rx.damagedCount)) else l.store) = if l.rx.mode = .check then l.store
        else l.store.enterLines (((List.range (g.h - l.rx.expectedLine)).map (l.rx.expectedLine + ·)).take
          (32 - l.rx.damagedCount)) := by
      cases l.rx.mode <;> rfl
    rw [some, LaneBlocks.heardFrom_frame hkind, LaneBlocks.endJudged, LaneBlocks.fault, LaneBlocks.countWrong,
      LaneBlocks.hurt]
    simp only [if_neg hmissing, stores, hhealth, List.length_map, List.length_range, Bool.false_eq_true, if_false]
    rfl

end Sys2Proof.Machine

/-! SUPPORT. What the close of a frame by its FRAME_END leaves, and the receiver it makes (R10, R14, R15). -/

namespace Sys2Proof.Machine

theorem Receiver.closeFrame_acquiring (clean : Bool) {r : Receiver} (h : r.state = .acquiring) : r.closeFrame clean
    = { r with cleanFrames := if clean = true then r.cleanFrames + 1 else 0, openFrame := none, mark := none } := by
  rw [Receiver.closeFrame, if_pos h]

/-- The first clean frame in ACQUIRING (R14). -/
theorem Receiver.closeFrame_first {r : Receiver} (h : r.state = .acquiring) (hf : r.cleanFrames = 0) :
    r.closeFrame true = { r with cleanFrames := 1, openFrame := none, mark := none } := by
  rw [Receiver.closeFrame_acquiring true h, hf]
  rfl

/-- A frame with few damaged lines lengthens the run, which clears the attempts at 300 (R15). -/
theorem Receiver.closeFrame_lengthens (clean : Bool) {r : Receiver} (h : r.state = .locked) (hd : r.damagedCount ≤ r.dmax) :
    r.closeFrame clean = { r with
      lockedRun := min 300 (r.lockedRun + 1), attempts := if 299 ≤ r.lockedRun then 0 else r.attempts
      openFrame := none, mark := none } := by
  have hattempts : (if satAdd 300 r.lockedRun 1 = 300 then 0 else r.attempts)
      = if 299 ≤ r.lockedRun then 0 else r.attempts := ite_of_iff (by rw [satAdd]; omega) rfl rfl
  rw [Receiver.closeFrame, if_neg (by rw [h]; nofun), Receiver.closeLocked, if_pos hd]
  exact congrArg (fun attempts => { r with
    lockedRun := min 300 (r.lockedRun + 1), attempts := attempts, openFrame := none, mark := none }) hattempts

/-- One with more ends it (R15). -/
theorem Receiver.closeFrame_ends (clean : Bool) {r : Receiver} (h : r.state = .locked) (hd : r.dmax < r.damagedCount) :
    r.closeFrame clean = { r with lockedRun := 0, openFrame := none, mark := none } := by
  rw [Receiver.closeFrame, if_neg (by rw [h]; nofun), Receiver.closeLocked, if_neg (Nat.not_le.2 hd)]

/-- The close of a frame opened in ACQUIRING while a job runs, or none waits. -/
theorem State.handClose_acquiring {n : Lane} {f : OpenFrame} {s : State} (hf : f.openedIn = .acquiring)
    (hrun : ∀ j ∈ s.jobs.head?, j.run.isSome = true) :
    (s.handClose n f).chan = s.chan ∧ (s.lane n).store.FreedFrom ((s.handClose n f).lane n).store := by
  unfold State.handClose
  split
  · exact ⟨rfl, fun _ => .inr rfl⟩
  · rw [hf]
    exact State.storeClose_acquiring _ _ hrun

section Close

variable {n : Lane} {g : Geometry} {s : State} {f : OpenFrame}

/-- Whether a frame's close locks its lane (R14). -/
def Receiver.locks (r : Receiver) : Prop :=
  r.state = .acquiring ∧ (r.damagedCount = 0 ∧ r.periodError = false) ∧ 1 ≤ r.cleanFrames

/-- The parts of the state that a frame's close leaves alone. -/
structure State.CloseLeft (n : Lane) (s t : State) : Prop where
  relay : (t.lane n).relay = (s.lane n).relay
  others : ∀ k, k ≠ n → (t.lane k).rx.judged = (s.lane k).rx.judged ∧ (t.lane k).relay = (s.lane k).relay
  test : ∀ k, (t.lane k).test = (s.lane k).test
  timing : t.timing = s.timing
  dram : t.dram = s.dram
  reports : t.chan.apartReports = s.chan.apartReports
  pending : t.pending = s.pending

theorem State.CloseLeft.trans {t u : State} (h : State.CloseLeft n s t) (k : State.CloseLeft n t u) :
    State.CloseLeft n s u where
  relay := k.relay.trans h.relay
  others i hi := ⟨(k.others i hi).1.trans (h.others i hi).1, (k.others i hi).2.trans (h.others i hi).2⟩
  test i := (k.test i).trans (h.test i)
  timing := k.timing.trans h.timing
  dram := k.dram.trans h.dram
  reports := k.reports.trans h.reports
  pending := k.pending.trans h.pending

theorem State.CloseLeft.modRx (s : State) (k : Receiver → Receiver) : State.CloseLeft n s (s.modRx n k) where
  relay := by rw [State.modRx, State.lane_modLane_same]
  others i hi := by
    rw [State.modRx, State.lane_modLane_other _ s hi]
    exact ⟨rfl, rfl⟩
  test i := by
    by_cases hi : i = n
    · rw [hi, State.modRx, State.lane_modLane_same]
    · rw [State.modRx, State.lane_modLane_other _ s hi]
  timing := rfl
  dram := rfl
  reports := rfl
  pending := rfl

theorem State.CloseLeft.serve (s : State) : State.CloseLeft n s s.serve := by
  have lane (k : Lane) : s.serve.lane k = s.lane k := by rw [State.serve_eq]; rfl
  refine ⟨by rw [lane], fun k _ => by rw [lane]; exact ⟨rfl, rfl⟩, fun k => by rw [lane], ?_, ?_, ?_, ?_⟩
  all_goals rw [State.serve_eq]

theorem State.CloseLeft.of_closes {t : State} (h : s.Closes t) : State.CloseLeft n s t where
  relay := (h.lanes n).relay
  others k _ := ⟨Receiver.judged_of_apartFrames (h.lanes k).rx, (h.lanes k).relay⟩
  test k := (h.lanes k).test
  timing := (congrArg State.timing h.rest :)
  dram := (congrArg State.dram h.rest :)
  reports := h.reports
  pending := (congrArg State.pending h.rest :)

theorem State.CloseLeft.lock (hg : (s.lane n).rx.acquisition = some g) : State.CloseLeft n s (s.lock n) := by
  obtain ⟨others, chan, relay, test, timing, dram, pending, -⟩ := State.lock_left hg
  refine ⟨relay, fun k hk => by rw [others k hk]; exact ⟨rfl, rfl⟩, fun k => ?_, timing, dram, ?_, pending⟩
  · by_cases hk : k = n
    · rw [hk, test]
    · rw [others k hk]
  · rw [chan, State.offer_eq]
    exact CommandChannel.apartReports_takeReports _ _

theorem State.closeLeft_closeFrame (hg : (s.lane n).rx.acquisition = some g) :
    State.CloseLeft n s (s.closeFrame n f) := by
  obtain ⟨discarded, skipped, dropped, hrx⟩ := State.rx_handClose n f s
  have handed : State.CloseLeft n s (s.handClose n f) := .of_closes (s.closes_handClose n f)
  by_cases hlocks : (s.lane n).rx.locks
  · obtain ⟨hstate, hclean, hframes⟩ := hlocks
    rw [State.closeFrame_locks hg hstate hclean hframes]
    exact (handed.trans (.lock (g := g) (by rw [hrx]; exact hg))).trans (.modRx _ _)
  · rw [State.closeFrame_kept hlocks]
    exact handed.trans (.modRx _ _)

theorem State.rx_closeFrame_locks (hg : (s.lane n).rx.acquisition = some g) (hlocks : (s.lane n).rx.locks) :
    ((s.closeFrame n f).lane n).rx
      = { ((s.handClose n f).lane n).rx.lock g with openFrame := none, mark := none } := by
  obtain ⟨discarded, skipped, dropped, hrx⟩ := State.rx_handClose n f s
  obtain ⟨hstate, hclean, hframes⟩ := hlocks
  rw [State.closeFrame_locks hg hstate hclean hframes, lane_modRx_rx, State.rx_lock (g := g) (by rw [hrx]; exact hg)]

/-- What the lock leaves of the blocks of a lane whose geometry changes (R5, R56, R70, R102, R129). -/
theorem State.closeFrame_relocks (hg : (s.lane n).rx.acquisition = some g) (hlocks : (s.lane n).rx.locks)
    (hgeometry : g ≠ (s.lane n).rx.geometry) :
    let t := s.closeFrame n f
    (t.lane n).motion = { ((s.handClose n f).lane n).motion with jitterX := 0, jitterY := 0, referenceValid := false }
      ∧ (t.lane n).dust = ((s.handClose n f).lane n).dust.layout g
      ∧ (t.lane n).store = ((s.handClose n f).lane n).store.release
      ∧ ∀ p ∈ t.comp.plan, p.record.lane = n → p.content = .lost := by
  obtain ⟨discarded, skipped, dropped, hrx⟩ := State.rx_handClose n f s
  obtain ⟨hstate, hclean, hframes⟩ := hlocks
  have hacq : ((s.handClose n f).lane n).rx.acquisition = some g := by rw [hrx]; exact hg
  have hother : ¬g = ((s.handClose n f).lane n).rx.geometry := by rw [hrx]; exact hgeometry
  obtain ⟨-, -, -, -, -, -, -, plan⟩ := State.lock_left hacq
  rw [State.closeFrame_locks hg hstate hclean hframes]
  refine ⟨?_, ?_, ?_, plan hother⟩ <;>
    rw [State.modRx, State.lane_modLane_same, State.lane_lock hacq, if_neg hother]

/-- The receiver after a close that does not lock, in each of its cases (R14, R15). -/
theorem State.rx_closeFrame_kept (hlocks : ¬(s.lane n).rx.locks) : ((s.closeFrame n f).lane n).rx
      = ((s.handClose n f).lane n).rx.closeFrame ((s.lane n).rx.damagedCount == 0 && !(s.lane n).rx.periodError) := by
  rw [State.closeFrame_kept hlocks, lane_modRx_rx]

end Close

/-- Settles O35. -/
theorem frameEndClosesTheFrame : Obligations.FrameEndClosesTheFrame := by
  unfold Obligations.FrameEndClosesTheFrame
  intro m s n bytes q g rx store relay up ends missing hreset hstate hmode hparse hkind hacq hshort heard
  have hexec : exec (.cameraPacket m n bytes) s = .next ((s.heardFrom m n q).frameEnd n q.number).serve :=
    (exec_cameraPacket_receiving hreset hstate hmode hparse).trans (by rw [hkind])
  have hframe : q.kind ≠ .line := by
    rw [hkind]
    nofun
  have arrived := State.LaneMoved.heardFrom m n q s
  have hlane := LaneBlocks.heardFrom_frame hframe relay.1 (max s.now m.tick) (s.lane n)
  by_cases hends : ends
  case neg =>
    have hhealth : rx.health + 1 < 32 := hshort.resolve_right fun h => hends h.1
    obtain ⟨number, hend, hopen⟩ : ∃ number : Bool, (s.heardFrom m n q).frameEnd n q.number
        = ((s.heardFrom m n q).modLane n (LaneBlocks.countWrong number)).faultyPacket n
          ∧ (rx.openFrame = none ↔ number = false) := by
      cases hopen : rx.openFrame with
      | none => exact ⟨false, State.frameEnd_closed (by rw [arrived.rx]; exact hopen), by simp⟩
      | some f =>
        exact ⟨true, State.frameEnd_wrongNumber (by rw [arrived.rx]; exact ⟨f, hopen, fun h => hends ⟨f, hopen, h⟩⟩),
          by simp⟩
    have counted := arrived.modLane (LaneBlocks.countWrong number)
    rw [hend, State.faultyPacket_eq (by rw [counted.rx]; exact hhealth)] at hexec
    have moved := (counted.modLane LaneBlocks.fault).serve
    rw [hlane] at moved
    refine ⟨_, hexec, fun _ => ⟨?_, moved.store, moved.dust, moved.jobs, moved.chan⟩,
      fun f hopen hnumber => absurd ⟨f, hopen, hnumber⟩ hends, moved.relay, fun k hk => ?_, fun k => ?_, moved.timing,
      moved.dram, moved.apart, moved.pending⟩
    · refine moved.rx.trans ?_
      cases number with
      | false =>
        rw [if_pos (hopen.2 rfl)]
        exact congrArg (fun k => { heard with
          health := k
          counters := { heard.counters with sequenceErrors := up rx.counters.sequenceErrors 1 } }) (satAdd_health hhealth)
      | true =>
        rw [if_neg fun h => Bool.noConfusion (hopen.1 h)]
        exact congrArg (fun k => { heard with
          health := k
          counters := { heard.counters with frameNumberErrors := up rx.counters.frameNumberErrors 1 } })
          (satAdd_health hhealth)
    · rw [moved.others k hk]
      exact ⟨rfl, rfl⟩
    · by_cases hk : k = n
      · rw [hk]
        exact moved.test
      · rw [moved.others k hk]
  case pos =>
    obtain ⟨f, hopen, hnumber⟩ := hends
    have hmissed : rx.health + 1 < 32 ∨ missing = 0 := hshort.imp id And.right
    have htaken := State.frameEnd_taken (s := s.heardFrom m n q) (n := n) (g := g) (f := f) (number := q.number)
      (by rw [arrived.rx]; exact LaneState.receiving_iff.2 hstate) (by rw [arrived.rx]; exact hacq)
      (by rw [arrived.rx]; exact hopen) hnumber (by rw [arrived.rx]; exact hmissed)
    rw [htaken] at hexec
    obtain ⟨x, hx⟩ : ∃ x, x = (s.heardFrom m n q).modLane n (LaneBlocks.missLines g) := ⟨_, rfl⟩
    rw [← hx] at hexec
    have moved : State.LaneMoved n ((s.lane n).endJudged relay.1 g (max s.now m.tick)) relay.2 s x := by
      rw [hx, ← LaneBlocks.missLines_heardFrom hframe relay.1 (max s.now m.tick) hmissed]
      exact arrived.modLane _
    have hxacq : (x.lane n).rx.acquisition = some g := by rw [moved.rx]; exact hacq
    have left := (State.closeLeft_closeFrame (f := f) hxacq).trans (.serve _)
    refine ⟨_, hexec, fun h => absurd ⟨f, hopen, hnumber⟩ h, fun f' hopen' hnumber' => ?_, left.relay.trans moved.relay,
      fun k hk => ?_, fun k => ?_, left.timing.trans moved.timing, left.dram.trans moved.dram,
      left.reports.trans moved.apart, left.pending.trans moved.pending⟩
    · obtain rfl := Option.some.inj (hopen.symm.trans hopen')
      intro damaged clean locks health closed tables
      obtain ⟨discarded, skipped, dropped, hrx⟩ := State.rx_handClose n f x
      have hlocks : (x.lane n).rx.locks ↔ locks := by
        rw [moved.rx]
        exact Iff.rfl
      have hlane : (x.closeFrame n f).serve.lane n = (x.closeFrame n f).lane n := by
        rw [State.serve_eq]
        rfl
      rw [moved.rx] at hrx
      obtain ⟨cleanly, hcl⟩ : ∃ b, b = ((x.lane n).rx.damagedCount == 0 && !(x.lane n).rx.periodError) := ⟨_, rfl⟩
      have hcleanly : cleanly = true ↔ clean := by
        rw [hcl, Bool.and_eq_true, beq_iff_eq, Bool.not_eq_true', moved.rx]
        exact Iff.rfl
      have rx_kept (h : ¬locks) := (congrArg LaneBlocks.rx hlane).trans (State.rx_closeFrame_kept (f := f) (mt hlocks.1 h))
      rw [← hcl, hrx] at rx_kept
      refine ⟨fun h => ⟨?_, fun hg => ?_, fun hopened hrun => ⟨?_, fun hg i hi => ?_⟩⟩, fun hs hc hf => ?_,
        fun hs hc => ?_, fun hs hd => ?_, fun hs hd => ?_, ?_⟩
      · have ht := (congrArg LaneBlocks.rx hlane).trans (State.rx_closeFrame_locks (f := f) hxacq (hlocks.2 h))
        rw [hrx] at ht
        dsimp only [closed]
        rw [ht]
        rfl
      · obtain ⟨motion, dust, -, plan⟩ := State.closeFrame_relocks (f := f) hxacq (hlocks.2 h)
          (by rw [moved.rx]; exact hg)
        have motion := (congrArg LaneBlocks.motion hlane).trans motion
        have dust := (congrArg LaneBlocks.dust hlane).trans dust
        have hplan : (x.closeFrame n f).serve.comp = (x.closeFrame n f).comp := by rw [State.serve_eq]
        dsimp only [tables]
        rw [motion, dust, hplan]
        exact ⟨rfl, rfl, rfl, rfl, rfl, rfl, plan⟩
      · obtain ⟨hl, hc, hf⟩ := hlocks.2 h
        obtain ⟨chan, -⟩ := State.handClose_acquiring (n := n) (s := x) hopened (by rw [moved.jobs]; exact hrun)
        have hserve : (x.closeFrame n f).serve.chan = (x.closeFrame n f).chan := by rw [State.serve_eq]
        have hacq : ((x.handClose n f).lane n).rx.acquisition = some g := by rw [hrx]; exact hacq
        rw [hserve, State.closeFrame_locks hxacq hl hc hf]
        refine (State.lock_left hacq).2.1.trans ?_
        rw [State.offer_eq, State.offer_eq, hrx, chan, moved.chan]
        rfl
      · obtain ⟨-, freed⟩ := State.handClose_acquiring (n := n) (s := x) hopened (by rw [moved.jobs]; exact hrun)
        obtain ⟨-, -, release, -⟩ := State.closeFrame_relocks (f := f) hxacq (hlocks.2 h)
          (by rw [moved.rx]; exact hg)
        rw [(congrArg LaneBlocks.store hlane).trans release, LaneStore.get_release]
        have slot (role : Role) : (x.lane n).store.slotOf role = store.slotOf role := by
          rw [moved.store]
          show (if _ then _ else _ : LaneStore).slotOf role = _
          split
          · rfl
          · exact LaneStore.slotOf_enterLines ..
        have hfree : ((x.handClose n f).lane n).store.ring.get i = none
            ∨ ((x.handClose n f).lane n).store.slotOf .ready = some i
            ∨ ((x.handClose n f).lane n).store.slotOf .showing = some i := by
          rcases hi with hi | hi <;> rw [← slot] at hi
          · exact (LaneStore.slotOf_of_freed freed hi).imp id .inl
          · exact (LaneStore.slotOf_of_freed freed hi).imp id .inr
        rcases hfree with h | h
        · rw [h, ite_self]
        · exact if_pos h
      · have hcl := hcleanly.2 hc
        have ht := rx_kept fun h => by
          have := h.2.2
          omega
        rw [hcl] at ht
        have ht := ht.trans (Receiver.closeFrame_first hs hf)
        dsimp only [closed]
        rw [ht]
        rfl
      · have ht := (rx_kept fun h => hc h.2.1).trans (Receiver.closeFrame_acquiring cleanly hs)
        rw [if_neg (mt hcleanly.1 hc)] at ht
        dsimp only [closed]
        rw [ht]
        rfl
      · have ht := (rx_kept fun h => by cases hs.symm.trans h.1).trans (Receiver.closeFrame_lengthens cleanly hs hd)
        dsimp only [closed]
        rw [ht]
        rfl
      · have ht := (rx_kept fun h => by cases hs.symm.trans h.1).trans (Receiver.closeFrame_ends cleanly hs hd)
        dsimp only [closed]
        rw [ht]
        rfl
      · intro entered judged handed locked kept
        have hjudged : judged = x := by
          rw [hx, State.heardFrom_modLane]
          refine congrArg (State.offerAll relay.2) (State.modLane_congr ?_).symm
          refine (LaneBlocks.missLines_heardFrom hframe relay.1 (max s.now m.tick) hmissed).trans ?_
          exact congrArg (fun st => { s.lane n with
            relay := relay.1, rx := ((s.lane n).endJudged relay.1 g (max s.now m.tick)).rx
            store := if rx.mode = LaneMode.check then store else st }) (LaneStore.enterLines_eq entered store)
        have hhanded : handed = x.handClose n f := by
          dsimp only [handed]
          rw [hjudged, State.handClose, moved.rx]
          rfl
        by_cases h : locks
        · obtain ⟨hl, hc, hf⟩ := hlocks.2 h
          rw [if_pos h, State.closeFrame_locks hxacq hl hc hf]
          dsimp only [locked]
          rw [hhanded]
        · rw [if_neg h, State.closeFrame_kept (mt hlocks.1 h)]
          dsimp only [kept]
          rw [hhanded]
          refine congrArg State.serve (State.modLane_congr ?_)
          refine congrArg (fun r => ({ (x.handClose n f).lane n with rx := r } : LaneBlocks)) (Eq.symm ?_)
          exact (congrArg LaneBlocks.rx hlane).trans (State.rx_closeFrame_kept (mt hlocks.1 h))
    · rw [(left.others k hk).1, (left.others k hk).2, moved.others k hk]
      exact ⟨rfl, rfl⟩
    · rw [left.test]
      by_cases hk : k = n
      · rw [hk]
        exact moved.test
      · rw [moved.others k hk]

end Sys2Proof.Machine

/-! SUPPORT. The forward words and the headers of the relay, step by step (R28 to R37). -/

namespace Sys2Proof.Machine

/-! ### The forward word (R28, R180) -/

theorem flagByte_eq (b7 b6 b5 b4 : Bool) : flagByte b7 b6 b5 b4
    = BitVec.ofNat 8 (128 * b7.toNat + 64 * b6.toNat + 32 * b5.toNat + 16 * b4.toNat) := by
  revert b7 b6 b5 b4
  decide

theorem Relay.launch_eq (now : Nat) (r : Relay) : r.launch now =
    if r.queue ≠ [] ∧ r.inFlight = none ∧ r.abortOwed = 0 then { r with
      inFlight := some .sending, byteIndex := 0, offered := false, taken := 0, reply := []
      progressDue := some (now + msTicks r.timeout) }
    else r := by
  unfold Relay.launch
  refine ite_of_iff ?_ rfl rfl
  rw [Bool.and_eq_true, Bool.and_eq_true, Bool.not_eq_true', List.isEmpty_eq_false_iff, Option.isNone_iff_eq_none,
    beq_iff_eq, and_assoc]

theorem Relay.launch_kept (now : Nat) {r : Relay} (h : r.queue = [] ∨ r.inFlight ≠ none ∨ r.abortOwed ≠ 0) :
    r.launch now = r := by
  rw [Relay.launch_eq]
  refine if_neg fun ⟨hqueue, hflight, howed⟩ => ?_
  exact h.elim hqueue (·.elim (· hflight) (· howed))

/-- Settles O38. -/
theorem everyPacketIsAnswered : Obligations.EveryPacketIsAnswered := by
  unfold Obligations.EveryPacketIsAnswered
  intro n now fields r u t word
  have answered : t = u.sendWord now := by
    unfold t u
    cases fields <;> rfl
  have hword (b : Byte) (toggle last abort ack : Bool) :
      some (withCrc [b, flagByte toggle last abort ack]) = word b toggle last abort ack := by
    rw [flagByte_eq]
    rfl
  refine ⟨fun howed => ?abort, fun k rest howed hflight hqueue => ?byte, fun howed hflight => ?idle⟩
  all_goals rw [answered, Relay.sendWord]
  case abort =>
    intro sent
    have hsent : { u with abortOwed := u.abortOwed - 1, forwardWord := some u.buildWord } = sent := by
      rw [Relay.buildWord, if_pos howed, hword]
    simp only [if_pos howed, hsent]
    rw [Relay.launch_eq]
    refine ite_of_iff ⟨fun ⟨hqueue, hflight, hlast⟩ => ⟨?_, hqueue, hflight⟩,
      fun ⟨hlast, hqueue, hflight⟩ => ⟨hqueue, hflight, ?_⟩⟩ rfl rfl
    · have hlast : u.abortOwed - 1 = 0 := hlast
      omega
    · show u.abortOwed - 1 = 0
      omega
  case byte =>
    have none_owed : ¬0 < u.abortOwed := by omega
    have hbuilt : some u.buildWord = word (k.bytes.getD u.byteIndex 0) u.sendToggle
        (u.byteIndex + 1 == k.bytes.length) false u.acceptedToggle := by
      rw [Relay.buildWord, if_neg none_owed, if_pos hflight, hword, Relay.offeredByte, hqueue]
    simp only [if_neg none_owed, if_pos hflight, hbuilt]
  case idle =>
    have none_owed : ¬0 < u.abortOwed := by omega
    have hbuilt : some u.buildWord = word 0 (!u.sendToggle) false false u.acceptedToggle := by
      rw [Relay.buildWord, if_neg none_owed, if_neg hflight, hword]
    simp only [if_neg none_owed, if_neg hflight, hbuilt]

/-! ### A good header, step by step (R31 to R33, R35) -/

section Header

variable {n : Lane} {now : Nat} {f : RelayFields} {r : Relay}

/-- Without a new camera abort the ack toggle and the reply fields are read (R28). -/
theorem Relay.takeHeader_quiet (h : f.abort = false ∨ r.abortSeen = true) : r.takeHeader n now f =
    let b := ({ r with abortSeen := f.abort }.takeAck now f.ack).takeReply n now f
    (b.1.launch now, b.2) := by
  have quiet : r.takeAbort n f.abort = ({ r with abortSeen := f.abort }, []) :=
    if_neg (by rcases h with h | h <;> simp [h])
  unfold Relay.takeHeader
  rw [quiet]
  rfl

/-- A new camera abort is taken before anything else (R35). -/
theorem Relay.takeHeader_abort (ha : f.abort = true) (hs : r.abortSeen = false) : r.takeHeader n now f =
    let a := r.failInFlight n .aborted
    let b := ({ a.1.resync with reply := if r.inFlight.isSome then [] else r.reply, abortSeen := f.abort }.takeAck now
      f.ack).takeReply n now f
    (b.1.launch now, a.2 ++ b.2) := by
  have taken : r.takeAbort n f.abort = ({ (r.failInFlight n .aborted).1.resync with
      reply := if r.inFlight.isSome then [] else r.reply, abortSeen := f.abort }, (r.failInFlight n .aborted).2) :=
    if_pos (by rw [ha, hs]; rfl)
  unfold Relay.takeHeader
  rw [taken]

/-- No byte that was offered is acknowledged (R31). -/
theorem Relay.takeAck_kept (now : Nat) {ack : Bool}
    (h : r.inFlight = some .sending → r.offered = true → ack ≠ r.sendToggle) : r.takeAck now ack = r := by
  unfold Relay.takeAck
  split
  · rename_i hflight _
    exact if_neg fun hacked => by
      rw [Bool.and_eq_true, beq_iff_eq] at hacked
      exact h hflight hacked.1 hacked.2
  · rfl

/-- The byte offered is acknowledged (R31). -/
theorem Relay.takeAck_taken (now : Nat) {k : RelayMessage} {rest : List RelayMessage} (hqueue : r.queue = k :: rest)
    (hflight : r.inFlight = some .sending) (hoffered : r.offered = true) : r.takeAck now r.sendToggle =
      let taken := { r with
        taken := r.taken + 1, sendToggle := !r.sendToggle, progressDue := some (now + msTicks r.timeout) }
      if r.byteIndex + 1 = k.bytes.length then { taken with inFlight := some .awaitingReply }
      else { taken with byteIndex := r.byteIndex + 1, offered := false } := by
  simp only [Relay.takeAck, hflight, hqueue, hoffered, BEq.rfl, Bool.and_self, if_true]

/-- A reply byte that is new, and confirmed when the double look is on (R32). -/
def Relay.new (f : RelayFields) (r : Relay) : Prop :=
  f.replyToggle ≠ r.acceptedToggle
    ∧ (r.doubleLook = false ∨ r.candidate = some ⟨f.replyToggle, f.reply, f.replyEnd⟩)

theorem Relay.takeReply_eq (n : Lane) (now : Nat) (f : RelayFields) (r : Relay) :
    (r.inFlight = some .awaitingReply → r.new f → r.takeReply n now f = ({ r with
        candidate := some ⟨f.replyToggle, f.reply, f.replyEnd⟩
        acceptedToggle := f.replyToggle, progressDue := some (now + msTicks r.timeout) } : Relay).acceptByte n f.reply
          f.replyEnd)
      ∧ (¬(r.inFlight = some .awaitingReply ∧ r.new f) →
        r.takeReply n now f = ({ r with candidate := some ⟨f.replyToggle, f.reply, f.replyEnd⟩ }, [])) := by
  have accepts : (r.inFlight == some .awaitingReply && f.replyToggle != r.acceptedToggle
      && (!r.doubleLook || r.candidate == some ⟨f.replyToggle, f.reply, f.replyEnd⟩)) = true
      ↔ r.inFlight = some .awaitingReply ∧ r.new f := by
    simp only [Bool.and_eq_true, Bool.or_eq_true, beq_iff_eq, bne_iff_ne, Bool.not_eq_true', and_assoc, Relay.new]
  exact ⟨fun hflight hnew => if_pos (accepts.2 ⟨hflight, hnew⟩), fun h => if_neg (mt accepts.1 h)⟩

theorem Relay.failInFlight_of {phase : RelayPhase} {k : RelayMessage} {rest : List RelayMessage}
    (hflight : r.inFlight = some phase) (hqueue : r.queue = k :: rest) (reason : RelayReason) :
    r.failInFlight n reason = ({ r with queue := rest, inFlight := none, progressDue := none },
      [relayFailedReport n k reason phase.code r.taken r.reply.length]) := by
  simp only [Relay.failInFlight, hflight, hqueue]

theorem Relay.failInFlight_none (hflight : r.inFlight = none) (reason : RelayReason) :
    r.failInFlight n reason = (r, []) := by
  simp only [Relay.failInFlight, hflight]

/-- The context in which a reply byte is accepted (R32). -/
def Relay.accepting (now : Nat) (f : RelayFields) (r : Relay) : Relay :=
  { r with
    abortSeen := f.abort, candidate := some ⟨f.replyToggle, f.reply, f.replyEnd⟩, acceptedToggle := f.replyToggle
    progressDue := some (now + msTicks r.timeout) }

section Accept

variable {k : RelayMessage} {rest : List RelayMessage} {b : Byte} {last : Bool}

theorem Relay.acceptByte_joins (n : Lane) (hqueue : r.queue = k :: rest) (hroom : r.reply.length < 32)
    (hlast : last = false) : r.acceptByte n b last = ({ r with reply := r.reply ++ [b] }, []) := by
  simp only [Relay.acceptByte, hqueue, if_neg (Nat.not_le.2 hroom), hlast, Bool.false_eq_true, if_false]

theorem Relay.acceptByte_done (n : Lane) (hqueue : r.queue = k :: rest) (hroom : r.reply.length < 32)
    (hlast : last = true) : r.acceptByte n b last =
      ({ r with queue := rest, inFlight := none, progressDue := none, reply := r.reply ++ [b] },
        [relayDoneReport n k (r.reply ++ [b])]) := by
  simp only [Relay.acceptByte, hqueue, if_neg (Nat.not_le.2 hroom), hlast, if_true]

theorem Relay.acceptByte_overlong (n : Lane) (hqueue : r.queue = k :: rest) (hlong : 32 ≤ r.reply.length)
    (hflight : r.inFlight = some .awaitingReply) : r.acceptByte n b last =
      ({ r with
        queue := rest, inFlight := none, progressDue := none, sendToggle := true, acceptedToggle := false
        candidate := none, abortOwed := 2 }, [relayFailedReport n k .overlong 2 r.taken r.reply.length]) := by
  simp only [Relay.acceptByte, hqueue, ge_iff_le, if_pos hlong, Relay.failInFlight_of hflight hqueue, Relay.oweAborts,
    Relay.resync]
  rfl

end Accept

/-- A header without a new abort that finds no reply byte new (R28, R32). -/
theorem Relay.takeHeader_seen (hquiet : f.abort = false ∨ r.abortSeen = true)
    (hack : r.inFlight = some .sending → r.offered = true → f.ack ≠ r.sendToggle)
    (hreply : ¬(r.inFlight = some .awaitingReply ∧ r.new f))
    (hlaunch : r.queue = [] ∨ r.inFlight ≠ none ∨ r.abortOwed ≠ 0) :
    r.takeHeader n now f
      = ({ r with abortSeen := f.abort, candidate := some ⟨f.replyToggle, f.reply, f.replyEnd⟩ }, []) := by
  have kept : ({ r with abortSeen := f.abort } : Relay).takeAck now f.ack = { r with abortSeen := f.abort } :=
    Relay.takeAck_kept now hack
  rw [Relay.takeHeader_quiet hquiet, kept, (Relay.takeReply_eq n now f { r with abortSeen := f.abort }).2 hreply]
  exact congrArg (·, []) (Relay.launch_kept now hlaunch)

/-- A header without a new abort that brings a new reply byte (R28, R32). -/
theorem Relay.takeHeader_new (hquiet : f.abort = false ∨ r.abortSeen = true) (hflight : r.inFlight = some .awaitingReply)
    (hnew : r.new f) : r.takeHeader n now f =
      let b := (r.accepting now f).acceptByte n f.reply f.replyEnd
      (b.1.launch now, b.2) := by
  have kept : ({ r with abortSeen := f.abort } : Relay).takeAck now f.ack = { r with abortSeen := f.abort } :=
    Relay.takeAck_kept now fun h => by cases hflight.symm.trans h
  rw [Relay.takeHeader_quiet hquiet, kept, (Relay.takeReply_eq n now f { r with abortSeen := f.abort }).1 hflight hnew]
  rfl

/-- The next message goes in flight, if one is queued. -/
theorem Relay.launch_next (now : Nat) (r : Relay) (rest : List RelayMessage) (hflight : r.inFlight = none)
    (howed : r.abortOwed = 0) (hqueue : r.queue = rest) (hdue : r.progressDue = none) : r.launch now =
      if rest = [] then { r with queue := rest, inFlight := none, progressDue := none }
      else { r with
        queue := rest, inFlight := some .sending, byteIndex := 0, offered := false, taken := 0, reply := []
        progressDue := some (now + msTicks r.timeout) } := by
  subst hqueue
  rw [Relay.launch_eq]
  by_cases hempty : r.queue = []
  · rw [if_pos hempty, if_neg fun h => h.1 hempty, ← hflight, ← hdue]
  · rw [if_neg hempty, if_pos ⟨hempty, hflight, howed⟩]

end Header

/-- Settles O39. -/
theorem headersMoveTheMessage : Obligations.HeadersMoveTheMessage := by
  unfold Obligations.HeadersMoveTheMessage
  intro n now f r look seen restarted failed next new
  refine ⟨fun k rest hqueue howed hquiet => ⟨fun hflight hoffered hack => ⟨fun hmore => ?byte, fun hlast => ⟨fun hnew => ?last,
    ?awaits⟩⟩, fun hflight hidle => ?idle, fun hflight => ⟨fun hnew => ?seen, fun hnew hroom hend => ?joins,
    fun hnew hroom hend => ?done, fun hnew hlong => ?overlong⟩⟩, fun ha hs => ⟨fun phase k rest hflight hqueue howed => ?aborted,
    fun hflight hempty => ?resync⟩, fun hquiet hflight hempty => ?none⟩
  case byte =>
    have acked := Relay.takeAck_taken (r := { r with abortSeen := f.abort }) now hqueue hflight hoffered
    simp only [if_neg (Nat.ne_of_lt hmore)] at acked
    rw [Relay.takeHeader_quiet hquiet, hack, acked, (Relay.takeReply_eq n now f _).2 fun h => by cases hflight.symm.trans h.1]
    exact congrArg (·, []) (Relay.launch_kept now (.inr (.inl (by
      show r.inFlight ≠ none
      rw [hflight]
      nofun))))
  case last =>
    have acked := Relay.takeAck_taken (r := { r with abortSeen := f.abort }) now hqueue hflight hoffered
    simp only [if_pos hlast] at acked
    rw [Relay.takeHeader_quiet hquiet, hack, acked, (Relay.takeReply_eq n now f { r with
      taken := r.taken + 1, sendToggle := !r.sendToggle, progressDue := restarted, inFlight := some .awaitingReply
      abortSeen := f.abort }).2 fun h => hnew h.2]
    exact congrArg (·, []) (Relay.launch_kept now (.inr (.inl nofun)))
  case awaits =>
    have acked := Relay.takeAck_taken (r := { r with abortSeen := f.abort }) now hqueue hflight hoffered
    simp only [if_pos hlast] at acked
    have kept := Relay.takeAck_kept (r := { r with
      taken := r.taken + 1, sendToggle := !r.sendToggle, progressDue := restarted, inFlight := some .awaitingReply
      abortSeen := f.abort }) now (ack := f.ack) nofun
    rw [Relay.takeHeader_quiet hquiet, Relay.takeHeader_quiet (r := { r with
      taken := r.taken + 1, sendToggle := !r.sendToggle, progressDue := restarted
      inFlight := some .awaitingReply }) hquiet, kept, hack, acked]
  case idle =>
    refine Relay.takeHeader_seen hquiet (fun _ ho => hidle.resolve_left (by rw [ho]; nofun)) ?_
      (.inr (.inl (by rw [hflight]; nofun)))
    exact fun h => by cases hflight.symm.trans h.1
  case seen =>
    refine Relay.takeHeader_seen hquiet (fun h => by cases hflight.symm.trans h) (fun h => hnew h.2)
      (.inr (.inl (by rw [hflight]; nofun)))
  case joins =>
    rw [Relay.takeHeader_new hquiet hflight hnew,
      Relay.acceptByte_joins (r := r.accepting now f) n hqueue hroom hend]
    exact congrArg (·, []) (Relay.launch_kept now (.inr (.inl (by
      show r.inFlight ≠ none
      rw [hflight]
      nofun))))
  case done =>
    rw [Relay.takeHeader_new hquiet hflight hnew, Relay.acceptByte_done (r := r.accepting now f) n hqueue hroom hend]
    have report : relayDoneReport n k (r.reply ++ [f.reply]) = ⟨.relayDone, some (12, k.tag), .ok,
        byte1 n.val ++ [k.tag] ++ byte1 (r.reply.length + 1) ++ r.reply ++ [f.reply]⟩ := by
      rw [relayDoneReport, List.length_append, List.append_assoc _ r.reply]
      rfl
    exact congr_both (fun u nt => (u, [nt])) (Relay.launch_next now _ rest rfl howed rfl rfl) report
  case overlong =>
    rw [Relay.takeHeader_new hquiet hflight hnew, Relay.acceptByte_overlong (r := r.accepting now f) n hqueue hlong hflight]
    exact congrArg (·, _) (Relay.launch_kept now (.inr (.inr nofun)))
  case aborted =>
    have hsome : r.inFlight.isSome = true := by
      rw [hflight]
      rfl
    rw [Relay.takeHeader_abort ha hs, Relay.failInFlight_of hflight hqueue]
    simp only [hsome, if_true]
    have kept := Relay.takeAck_kept (r := { ({ r with queue := rest, inFlight := none, progressDue := none } : Relay).resync with
      reply := [], abortSeen := f.abort }) now (ack := f.ack) nofun
    rw [kept, (Relay.takeReply_eq n now f _).2 fun h => by cases h.1]
    cases phase <;>
      exact congrArg (fun u => (u, [_])) (Relay.launch_next now _ rest rfl howed rfl rfl)
  case resync =>
    have hnone : r.inFlight.isSome = false := by
      rw [hflight]
      rfl
    rw [Relay.takeHeader_abort ha hs, Relay.failInFlight_none hflight]
    simp only [hnone, Bool.false_eq_true, if_false]
    have kept := Relay.takeAck_kept (r := { r.resync with reply := r.reply, abortSeen := f.abort }) now (ack := f.ack)
      fun h => by cases hflight.symm.trans h
    rw [kept, (Relay.takeReply_eq n now f _).2 fun h => by cases hflight.symm.trans h.1]
    exact congrArg (·, []) (Relay.launch_kept now (hempty.imp id fun h => .inr (Nat.ne_of_gt h)))
  case none =>
    refine Relay.takeHeader_seen hquiet (fun h => by cases hflight.symm.trans h) (fun h => by cases hflight.symm.trans h.1)
      (hempty.imp id fun h => .inr (by omega))

end Sys2Proof.Machine

/-! SUPPORT. The Link Test Unit: the sequence, the generated payload, and the checker that follows it (R173 to R175). -/

namespace Sys2Proof.Machine

/-! ### Bits and bytes -/

theorem byteBits_bitsByte_cons (a b c d e f g h : Bool) (rest : List Bool) :
    byteBits (bitsByte (a :: b :: c :: d :: e :: f :: g :: h :: rest)) = [a, b, c, d, e, f, g, h] := by
  have closed : ∀ a b c d e f g h : Bool,
      byteBits (bitsByte [a, b, c, d, e, f, g, h]) = [a, b, c, d, e, f, g, h] := by decide
  exact closed a b c d e f g h

/-- Packed bits are the bits of the bytes. -/
theorem bitsOf_packBits {n : Nat} {bits : List Bool} (h : bits.length = 8 * n) : bitsOf (packBits n bits) = bits := by
  induction n generalizing bits with
  | zero => exact (List.eq_nil_of_length_eq_zero h).symm
  | succ n ih =>
    match bits, h with
    | a :: b :: c :: d :: e :: f :: g :: i :: rest, h =>
      have hrest : rest.length = 8 * n := by
        simp only [List.length_cons] at h
        omega
      show byteBits (bitsByte _) ++ bitsOf (packBits n rest) = _
      rw [byteBits_bitsByte_cons, ih hrest]
      rfl

theorem length_packBits (n : Nat) (bits : List Bool) : (packBits n bits).length = n := by
  induction n generalizing bits with
  | zero => rfl
  | succ n ih => exact congrArg Nat.succ (ih _)

theorem byteBits_not (b : Byte) : byteBits (~~~b) = (byteBits b).map (!·) := by
  simp [byteBits, bitOf]

theorem bitsOf_not (l : List Byte) : bitsOf (l.map fun b => ~~~b) = (bitsOf l).map (!·) := by
  simp only [bitsOf, List.flatMap_map, List.map_flatMap, byteBits_not]

/-- Bit `7 - j` of byte `i` is bit `8i + j` of the run, most significant first. -/
theorem getLsbD_getD_packBits {n : Nat} {bits : List Bool} (h : bits.length = 8 * n) {i j : Nat} (hi : i < n) (hj : j < 8) :
    ((packBits n bits).getD i 0).getLsbD (7 - j) = bits.getD (8 * i + j) false := by
  induction n generalizing bits i with
  | zero => exact absurd hi (Nat.not_lt_zero i)
  | succ n ih =>
    match bits, h with
    | a :: b :: c :: d :: e :: f :: g :: k :: rest, h =>
      have hrest : rest.length = 8 * n := by
        simp only [List.length_cons] at h
        omega
      cases i with
      | zero =>
        have hbits := byteBits_bitsByte_cons a b c d e f g k rest
        simp only [byteBits, bitOf, List.cons.injEq, and_true] at hbits
        obtain ⟨h7, h6, h5, h4, h3, h2, h1, h0⟩ := hbits
        show (bitsByte _).getLsbD (7 - j) = _
        match j, hj with
        | 0, _ => exact h7
        | 1, _ => exact h6
        | 2, _ => exact h5
        | 3, _ => exact h4
        | 4, _ => exact h3
        | 5, _ => exact h2
        | 6, _ => exact h1
        | 7, _ => exact h0
      | succ i =>
        show ((packBits n rest).getD i 0).getLsbD (7 - j) = _
        rw [ih hrest (Nat.lt_of_succ_lt_succ hi), show 8 * (i + 1) + j = 8 * i + j + 8 by omega]
        rfl

/-! ### The sequence (R173) -/

section Sequence

variable (p : Pattern)

theorem Pattern.generate_succ (n : Nat) (shift : List Bool) : p.generate (n + 1) shift =
    (shift.getD 0 false :: (p.generate n (shiftIn shift (p.predict shift))).1,
      (p.generate n (shiftIn shift (p.predict shift))).2) := rfl

theorem length_generate (n : Nat) (shift : List Bool) : (p.generate n shift).1.length = n := by
  induction n generalizing shift with
  | zero => rfl
  | succ n ih => exact congrArg Nat.succ (ih _)

theorem length_shiftIn {shift : List Bool} (h : shift ≠ []) (b : Bool) : (shiftIn shift b).length = shift.length := by
  have := List.length_pos_iff.2 h
  simp only [shiftIn, List.length_append, List.length_drop, List.length_singleton]
  omega

theorem Pattern.generate_add (a b : Nat) (shift : List Bool) : p.generate (a + b) shift =
    ((p.generate a shift).1 ++ (p.generate b (p.generate a shift).2).1, (p.generate b (p.generate a shift).2).2) := by
  induction a generalizing shift with
  | zero => rw [Nat.zero_add]; rfl
  | succ a ih =>
    rw [Nat.add_right_comm, p.generate_succ, p.generate_succ, ih]
    rfl

theorem length_generate_shift (n : Nat) {shift : List Bool} (h : shift ≠ []) :
    (p.generate n shift).2.length = shift.length := by
  induction n generalizing shift with
  | zero => rfl
  | succ n ih =>
    have hlength := length_shiftIn h (p.predict shift)
    have hne : shiftIn shift (p.predict shift) ≠ [] := by
      rw [← List.length_pos_iff, hlength]
      exact List.length_pos_iff.2 h
    exact (ih hne).trans hlength

/-- The bits that leave first are those of the shift state. -/
theorem getD_generate (n m : Nat) {shift : List Bool} (hm : m < shift.length) (hn : m < n) :
    (p.generate n shift).1.getD m false = shift.getD m false := by
  induction n generalizing m shift with
  | zero => exact absurd hn (Nat.not_lt_zero m)
  | succ n ih =>
    cases m with
    | zero => rfl
    | succ m =>
      have hne : shift ≠ [] := List.length_pos_iff.1 (by omega)
      have hlength := length_shiftIn hne (p.predict shift)
      show (p.generate n (shiftIn shift (p.predict shift))).1.getD m false = _
      rw [ih m (by omega) (by omega), shiftIn, getD_append_of_lt (by rw [List.length_drop]; omega),
        List.getD_eq_getElem?_getD, List.getElem?_drop, Nat.add_comm, ← List.getD_eq_getElem?_getD]

/-- The bit after them is the one the taps predict. -/
theorem getD_generate_length (n : Nat) {shift : List Bool} (h : shift ≠ []) (hn : shift.length < n) :
    (p.generate n shift).1.getD shift.length false = p.predict shift := by
  have hpos := List.length_pos_iff.2 h
  obtain ⟨n, rfl⟩ : ∃ k, n = k + 1 := ⟨n - 1, by omega⟩
  obtain ⟨last, hlast⟩ : ∃ k, shift.length = k + 1 := ⟨shift.length - 1, by omega⟩
  have hlength := length_shiftIn h (p.predict shift)
  rw [hlast]
  show (p.generate n (shiftIn shift (p.predict shift))).1.getD last false = _
  rw [getD_generate p n last (by omega) (by omega), shiftIn, getD_append_of_le (by rw [List.length_drop]; omega)]
  simp [hlast]

variable {p}

/-- As many bits as the shift state is long are the shift state. -/
theorem generate_seed {shift : List Bool} : (p.generate shift.length shift).1 = shift := by
  refine List.ext_getElem (length_generate p _ shift) fun i hi hi' => ?_
  have h := getD_generate p shift.length i hi' hi'
  rwa [← List.getElem_eq_getD (h := hi) false, ← List.getElem_eq_getD (h := hi') false] at h

/-- A run of the sequence, cut: the bits that have left, then the shift state. -/
theorem generate_seed_after (k : Nat) {shift : List Bool} (h : shift ≠ []) :
    (p.generate (k + shift.length) shift).1 = (p.generate k shift).1 ++ (p.generate k shift).2 := by
  have hlength := length_generate_shift p k h
  rw [p.generate_add]
  exact congrArg _ (hlength ▸ generate_seed)

/-- Each bit is the exclusive-or of the two that the taps name. -/
theorem generate_taps {k i : Nat} {shift : List Bool} (h : shift ≠ []) (hle : shift.length ≤ i)
    (hlt : i < k + shift.length) :
    let bits := (p.generate (k + shift.length) shift).1
    bits.getD i false = p.predict ((bits.drop (i - shift.length)).take shift.length) := by
  intro bits
  obtain ⟨j, rfl⟩ : ∃ j, i = j + shift.length := ⟨i - shift.length, by omega⟩
  have hstate := length_generate_shift p j h
  have hne : (p.generate j shift).2 ≠ [] := List.length_pos_iff.1 (by rw [hstate]; exact List.length_pos_iff.2 h)
  have hbits : bits = (p.generate j shift).1 ++ (p.generate (k + shift.length - j) (p.generate j shift).2).1 := by
    unfold bits
    rw [show k + shift.length = j + (k + shift.length - j) by omega, p.generate_add, Nat.add_sub_cancel_left]
  have hdrop : bits.drop j = (p.generate (k + shift.length - j) (p.generate j shift).2).1 := by
    rw [hbits, List.drop_left' (length_generate p j shift)]
  have htake : (bits.drop j).take shift.length = (p.generate j shift).2 := by
    rw [hdrop]
    refine List.ext_getElem ?_ fun m hm hm' => ?_
    · rw [List.length_take, length_generate, hstate]
      omega
    · rw [List.getElem_take]
      have hbit := getD_generate p (k + shift.length - j) m hm' (by omega)
      rw [List.getElem_eq_getD false, List.getElem_eq_getD false]
      exact hbit
  have hbit := getD_generate_length p (k + shift.length - j) hne (by omega)
  rw [Nat.add_sub_cancel, htake, ← hbit, hstate, ← hdrop, List.getD_eq_getElem?_getD, List.getD_eq_getElem?_getD,
    List.getElem?_drop]

/-- One shift length behind a shift state, the taps predict its oldest bit. -/
theorem generate_behind {shift ahead : List Bool} (h : shift ≠ []) (hahead : ahead = (p.generate shift.length shift).2) :
    p.predict shift = ahead.getD 0 false
      ∧ shiftIn ahead (p.predict ahead) = (p.generate shift.length (shiftIn shift (p.predict shift))).2 := by
  have hone : p.generate (shift.length + 1) shift = (shift ++ [ahead.getD 0 false], shiftIn ahead (p.predict ahead)) := by
    rw [p.generate_add, generate_seed, ← hahead]
    rfl
  have hbit := getD_generate_length p (shift.length + 1) h (Nat.lt_succ_self _)
  rw [hone, getD_append_of_le (Nat.le_refl _), Nat.sub_self] at hbit
  exact ⟨hbit.symm, (congrArg Prod.snd hone).symm⟩

end Sequence

/-! ### The checker (R174, R175) -/

/-- The window keeps the last 256 bits, the newest with them. -/
def slideWindow (window : List Bool) (error : Bool) : List Bool := window.drop (window.length - 255) ++ [error]

theorem LinkTest.syncBit_eq (t : LinkTest) (b : Bool) : t.syncBit b =
    let prediction := t.pattern.predict t.chkShift
    let error := b != (prediction != t.inverted)
    let counted := { t with
      errorCount := if error then min 65535 (t.errorCount + 1) else t.errorCount
      chkShift := shiftIn t.chkShift prediction, window := slideWindow t.window error }
    if 16 ≤ windowErrors (slideWindow t.window error) then
      { counted with checker := .hunt, inverted := false, seedCount := 0, run := 0, window := [] }
    else counted := by
  have kept : (if t.window.length ≥ 256 then t.window.drop (t.window.length - 255) else t.window)
      = t.window.drop (t.window.length - 255) := by
    split
    · rfl
    · rw [Nat.sub_eq_zero_of_le (by omega), List.drop_zero]
  unfold LinkTest.syncBit
  simp only [kept]
  rfl

theorem windowErrors_slideWindow (window : List Bool) (error : Bool) :
    windowErrors (slideWindow window error) ≤ windowErrors window + error.toNat := by
  have dropped := (List.drop_sublist (window.length - 255) window).countP_le (p := id)
  have single : [error].countP id = error.toNat := by cases error <;> rfl
  rw [windowErrors, slideWindow, List.countP_append, single]
  exact Nat.add_le_add_right dropped _

/-- A checker in SYNC that stands one shift length behind the shift state `ahead`, with few errors in its window. -/
structure LinkTest.Follows (ahead : List Bool) (t : LinkTest) : Prop where
  sync : t.checker = .sync
  length : t.chkShift.length = t.pattern.seedLength
  behind : ahead = (t.pattern.generate t.pattern.seedLength t.chkShift).2
  few : windowErrors t.window ≤ 15

/-- The checker one bit on, with or without an error counted. -/
def LinkTest.onBit (error : Bool) (t : LinkTest) : LinkTest :=
  { t with
    errorCount := if error then min 65535 (t.errorCount + 1) else t.errorCount
    chkShift := shiftIn t.chkShift (t.pattern.predict t.chkShift), window := slideWindow t.window error }

namespace LinkTest.Follows

variable {ahead : List Bool} {t : LinkTest} (h : t.Follows ahead)

include h

theorem ne_nil : t.chkShift ≠ [] := by
  rw [← List.length_pos_iff, h.length]
  cases t.pattern <;> exact Nat.succ_pos _

/-- A bit of the generator, or of its complement when the checker is inverted, agrees; one that an error inverts does
not. -/
theorem takeBit {error : Bool} (hfew : windowErrors t.window + error.toNat ≤ 15) :
    t.takeBit ((ahead.getD 0 false != t.inverted) != error) = t.onBit error
      ∧ (t.onBit error).Follows (shiftIn ahead (t.pattern.predict ahead)) := by
  obtain ⟨hbit, hahead⟩ := generate_behind (p := t.pattern) h.ne_nil (h.length.symm ▸ h.behind)
  have few := Nat.le_trans (windowErrors_slideWindow t.window error) hfew
  have herror : (((ahead.getD 0 false != t.inverted) != error)
      != (t.pattern.predict t.chkShift != t.inverted)) = error := by
    rw [hbit]
    cases ahead.getD 0 false <;> cases t.inverted <;> cases error <;> rfl
  refine ⟨?_, h.sync, (length_shiftIn h.ne_nil _).trans h.length, h.length ▸ hahead, few⟩
  have synced : t.takeBit ((ahead.getD 0 false != t.inverted) != error)
      = t.syncBit ((ahead.getD 0 false != t.inverted) != error) := by
    rw [LinkTest.takeBit, h.sync]
  rw [synced, LinkTest.syncBit_eq]
  simp only [herror]
  exact if_neg (by omega)

end LinkTest.Follows

/-- The checker agrees with every bit the generator sends. -/
theorem LinkTest.Follows.takeBits (n : Nat) {ahead : List Bool} {t : LinkTest} (h : t.Follows ahead) :
    ∃ shift window, ((t.pattern.generate n ahead).1.map (· != t.inverted)).foldl LinkTest.takeBit t
        = { t with chkShift := shift, window := window }
      ∧ ({ t with chkShift := shift, window := window } : LinkTest).Follows (t.pattern.generate n ahead).2 := by
  induction n generalizing ahead t with
  | zero => exact ⟨t.chkShift, t.window, rfl, h⟩
  | succ n ih =>
    obtain ⟨taken, follows⟩ := h.takeBit (error := false) h.few
    obtain ⟨shift, window, hfold, hfollows⟩ := ih follows
    refine ⟨shift, window, ?_, hfollows⟩
    rw [Bool.bne_false] at taken
    rw [t.pattern.generate_succ, List.map_cons, List.foldl_cons, taken]
    exact hfold

end Sys2Proof.Machine

/-! SUPPORT. The generator's packets, and the checker's rules bit by bit (R173 to R175). -/

namespace Sys2Proof.Machine

/-! ### The generated payload (R173) -/

/-- The first bit inverted when an error is pending. -/
def flipFirst (error : Bool) : List Bool → List Bool
  | b :: rest => (b != error) :: rest
  | [] => []

theorem length_flipFirst (error : Bool) (l : List Bool) : (flipFirst error l).length = l.length := by
  cases l <;> rfl

theorem getD_flipFirst (error : Bool) {l : List Bool} {k : Nat} (hk : k < l.length) :
    (flipFirst error l).getD k false = (l.getD k false != (error && k == 0)) := by
  cases l with
  | nil => exact absurd hk (Nat.not_lt_zero k)
  | cons b rest =>
    cases k with
    | zero => exact congrArg (b != ·) (Bool.and_true error).symm
    | succ k => exact (congrArg ((rest.getD k false) != ·) (Bool.and_false error)).trans (Bool.bne_false _) |>.symm

theorem LinkTest.makePayload_eq (t : LinkTest) (w : Nat) : t.makePayload w =
    (packBits (2 * w) (flipFirst t.injectPending (t.pattern.generate (16 * w) t.genShift).1),
      { t with genShift := (t.pattern.generate (16 * w) t.genShift).2, injectPending := false }) := by
  have flipped : ∀ l : List Bool, (match l with
      | b :: rest => (if t.injectPending then !b else b) :: rest
      | [] => []) = flipFirst t.injectPending l := by
    intro l
    cases l with
    | nil => rfl
    | cons b rest => cases t.injectPending <;> cases b <;> rfl
  exact congrArg (fun bits => (packBits (2 * w) bits, _)) (flipped _)

theorem bitsOf_makePayload (t : LinkTest) (w : Nat) : bitsOf (t.makePayload w).1
    = flipFirst t.injectPending (t.pattern.generate (16 * w) t.genShift).1 := by
  rw [LinkTest.makePayload_eq, bitsOf_packBits]
  rw [length_flipFirst, length_generate]
  omega

/-- A LINE of the generator, sent as it is or as its complement, as a checker that follows takes it. -/
theorem LinkTest.takePayload_makePayload {t : LinkTest} {w : Nat} (hw : 0 < w) (h : t.Follows t.genShift)
    (hfew : windowErrors t.window ≤ 14) :
    let line := t.makePayload w
    ∃ shift window, line.2.takePayload (if t.inverted then line.1.map fun b => ~~~b else line.1) = { line.2 with
        errorCount := if t.injectPending then min 65535 (t.errorCount + 1) else t.errorCount
        chkShift := shift, window := window }
      ∧ shift.length = t.pattern.seedLength
      ∧ line.2.genShift = (t.pattern.generate t.pattern.seedLength shift).2 := by
  intro line
  obtain ⟨n, hn⟩ : ∃ n, 16 * w = n + 1 := ⟨16 * w - 1, by omega⟩
  have hsent : line.2 = { t with
      genShift := (t.pattern.generate (n + 1) t.genShift).2, injectPending := false } := by
    unfold line
    rw [LinkTest.makePayload_eq, hn]
  have hbits : bitsOf (if t.inverted then line.1.map fun b => ~~~b else line.1)
      = ((t.genShift.getD 0 false != t.inverted) != t.injectPending)
        :: (t.pattern.generate n (shiftIn t.genShift (t.pattern.predict t.genShift))).1.map (· != t.inverted) := by
    have hline : bitsOf line.1 = (t.genShift.getD 0 false != t.injectPending)
        :: (t.pattern.generate n (shiftIn t.genShift (t.pattern.predict t.genShift))).1 := by
      unfold line
      rw [bitsOf_makePayload, hn]
      rfl
    cases t.inverted with
    | true =>
      rw [if_pos rfl, bitsOf_not, hline, List.map_cons]
      cases t.genShift.getD 0 false <;> cases t.injectPending <;> simp
    | false =>
      rw [if_neg Bool.false_ne_true, hline]
      simp
  have few : windowErrors t.window + t.injectPending.toNat ≤ 15 := by
    cases t.injectPending
    · exact Nat.le_trans hfew (by decide)
    · exact Nat.succ_le_succ hfew
  have hstart : line.2.Follows t.genShift := by
    rw [hsent]
    exact { h with }
  obtain ⟨taken, follows⟩ := hstart.takeBit (error := t.injectPending) (by rw [hsent]; exact few)
  obtain ⟨shift, window, hfold, hfollows⟩ := follows.takeBits n
  refine ⟨shift, window, ?_, ?_, ?_⟩
  · rw [LinkTest.takePayload, hbits, List.foldl_cons]
    rw [hsent] at taken hfold ⊢
    exact (congrArg (List.foldl LinkTest.takeBit · _) taken).trans hfold
  · have hlength := hfollows.length
    rw [hsent] at hlength
    exact hlength
  · have hbehind := hfollows.behind
    rw [hsent] at hbehind ⊢
    exact hbehind

/-! ### The checker in HUNT (R174) -/

section Hunt

variable {t : LinkTest} {b : Bool}

theorem LinkTest.takeBit_of_hunt (h : t.checker = .hunt) : t.takeBit b = t.huntBit b := by
  rw [LinkTest.takeBit, h]

theorem LinkTest.takeBit_seed (h : t.checker = .hunt) (hseed : t.seedCount < t.pattern.seedLength) : t.takeBit b = { t with
    chkShift := (t.chkShift ++ [b]).drop (t.chkShift.length + 1 - t.pattern.seedLength), seedCount := t.seedCount + 1 } :=
  (LinkTest.takeBit_of_hunt h).trans (if_pos hseed)

theorem LinkTest.takeBit_hunt (h : t.checker = .hunt) (hseed : t.pattern.seedLength ≤ t.seedCount) :
    let correct := t.pattern.predict t.chkShift == b
    let shift := shiftIn t.chkShift b
    t.takeBit b = if t.run = 0 ∨ t.runCorrect = correct then
        if t.run + 1 = 64 then { t with
          checker := .sync, inverted := !correct, run := 64, runCorrect := correct, window := []
          chkShift := if correct then shift else shift.map fun x => !x }
        else { t with chkShift := shift, run := t.run + 1, runCorrect := correct }
      else { t with chkShift := shift, run := 0, seedCount := 0 } := by
  intro correct shift
  refine (LinkTest.takeBit_of_hunt h).trans ((if_neg (Nat.not_lt.2 hseed)).trans (ite_of_iff ?_ rfl rfl))
  rw [Bool.or_eq_true, decide_eq_true_eq, beq_iff_eq]

theorem LinkTest.takeBit_sync (h : t.checker = .sync) : t.takeBit b = t.syncBit b := by
  rw [LinkTest.takeBit, h]

end Hunt

/-! ### The generator's packet -/

theorem GeneratorRun.due_eq (g : GeneratorRun) : g.due = if g.made = 0 then g.frameStart
    else if g.made ≤ g.geometry.h then g.frameStart + g.made * g.lineTime
    else g.frameStart + (g.geometry.h + 1) * g.lineTime := rfl

theorem exec_generatorPacket {m : Moment} {s : State} {n : Lane} {g : GeneratorRun} (hreset : s.resetAsserted = false)
    (hmode : (s.lane n).rx.mode = .internal) (hrun : (s.lane n).test.genRun = some g) (hdue : g.due ≤ max s.now m.tick) :
    let made := (s.lane n).test.makePacket g (s.lane n).rx.geometry s.timing.freeRun
    let u := (s.advance m).modTest n fun _ => made.2.takePayload made.1.payload
    exec (.generatorPacket m n) s = .next
      (if (s.lane n).rx.state = .off then u else ((u.countPacket n).lanePacket n (some made.1)).serve) := by
  intro made u
  have due : ((s.advance m).lane n).generatorDue (s.advance m).now = true := by
    refine Bool.and_eq_true_iff.2 ⟨beq_iff_eq.2 hmode, ?_⟩
    show expired ((s.lane n).test.genRun.map GeneratorRun.due) (max s.now m.tick) = true
    rw [hrun]
    exact decide_eq_true hdue
  refine congrArg Host.Outcome.next ((State.onEvent_of_due hreset due _).trans ?_)
  have hrun : ((s.advance m).lane n).test.genRun = some g := hrun
  have hstate : (u.lane n).rx.state = (s.lane n).rx.state := by
    unfold u
    rw [State.modTest, State.lane_modLane_same]
    rfl
  unfold State.generatorPacket
  rw [hrun]
  exact ite_of_iff (iff_of_eq (congrArg (· = LaneState.off) hstate)) rfl rfl

/-- Settles O40. R173 to R175: the packet is the generator's; its bits lead the checker's shift state by one seed length. -/
theorem generatorAndCheckerAgree : Obligations.GeneratorAndCheckerAgree := by
  refine ⟨?packet, ?follows, ?sequence, ?payload, ?checker⟩
  case packet =>
    intro m s n g l hreset hmode hrun hdue lineTime line made u
    have hmade : (let next := l.test.makePacket g l.rx.geometry s.timing.freeRun
        (next.1, next.2.takePayload next.1.payload)) = made := by
      unfold made
      by_cases hfirst : g.made = 0
      · rw [if_pos hfirst, LinkTest.makePacket, if_pos hfirst]
        rfl
      · rw [if_neg hfirst, LinkTest.makePacket, if_neg hfirst]
        by_cases hline : g.made ≤ g.geometry.h
        · rw [if_pos hline, if_pos hline]
          rfl
        · rw [if_neg hline, if_neg hline]
          rfl
    have hexec := exec_generatorPacket hreset hmode hrun (g.due_eq ▸ hdue)
    rw [← congrArg Prod.fst hmade]
    unfold u
    rw [← congrArg Prod.snd hmade]
    exact hexec
  case follows =>
    intro t w hw hsync hlength hbehind hfew line after
    obtain ⟨shift, window, hafter, hshift, hahead⟩ := LinkTest.takePayload_makePayload hw
      ⟨hsync, hlength, hbehind, Nat.le_trans hfew (by decide)⟩ hfew
    have hafter : after = _ := hafter
    have hsent : line.2 = _ := congrArg Prod.snd (t.makePayload_eq w)
    rw [hafter, hsent]
    rw [hsent] at hahead
    refine ⟨?_, hsync, rfl, rfl, rfl, hshift, hahead⟩
    exact (congrArg (List.length ·.1) (t.makePayload_eq w)).trans (length_packBits _ _)
  case sequence =>
    intro p k shift taps hlength bits
    have hne : shift ≠ [] := by
      rw [← List.length_pos_iff, hlength]
      cases p <;> exact Nat.succ_pos _
    have hcut : bits = (p.generate k shift).1 ++ (p.generate k shift).2 := by
      unfold bits
      rw [← hlength]
      exact generate_seed_after k hne
    have hseed : bits.take taps.2 = shift := by
      unfold bits
      rw [Nat.add_comm k, p.generate_add, ← hlength, generate_seed]
      exact List.take_left
    have hleft := length_generate p k shift
    refine ⟨length_generate p _ shift, hseed, ?_, fun i hle hlt => ?_⟩
    · rw [hcut, List.take_left' hleft, List.drop_left' hleft]
    · have htaps : bits.getD i false = p.predict ((bits.drop (i - taps.2)).take taps.2) := by
        rw [← hlength] at hle hlt ⊢
        unfold bits
        rw [← hlength]
        exact generate_taps hne hle hlt
      have behind : ∀ j, j < taps.2 → ((bits.drop (i - taps.2)).take taps.2).getD j false
          = bits.getD (i - taps.2 + j) false := by
        intro j hj
        rw [List.getD_eq_getElem?_getD, List.getElem?_take_of_lt hj, List.getElem?_drop, ← List.getD_eq_getElem?_getD]
      have hpredict : ∀ window, p.predict window = (window.getD (taps.2 - taps.1) false != window.getD 0 false) := by
        unfold taps
        cases p <;> exact fun window => rfl
      have horder : 0 < taps.1 ∧ taps.1 ≤ taps.2 := by
        unfold taps
        cases p <;> decide
      rw [htaps, hpredict, behind _ (by omega), behind 0 (by omega), Nat.add_zero,
        show i - taps.2 + (taps.2 - taps.1) = i - taps.1 by omega]
  case payload =>
    intro t w payload line bits
    have hbits : (flipFirst t.injectPending bits).length = 8 * (2 * w) := by
      rw [length_flipFirst, length_generate]
      omega
    refine ⟨congrArg Prod.snd (t.makePayload_eq w), fun i hi j hj => ?_, rfl⟩
    have hline : line.1 = packBits (2 * w) (flipFirst t.injectPending bits) := congrArg Prod.fst (t.makePayload_eq w)
    rw [hline, getLsbD_getD_packBits hbits hi hj, getD_flipFirst]
    rw [length_generate]
    omega
  case checker =>
    intro t b predicted length correct shift goesOn
    have hpredicted : t.pattern.predict t.chkShift = predicted := by
      unfold predicted
      cases t.pattern <;> rfl
    have hlength : t.pattern.seedLength = length := by
      unfold length
      cases t.pattern <;> rfl
    refine ⟨fun h hseed => ?_, fun h hseed => ?_, fun h => ?_⟩
    · have step := LinkTest.takeBit_seed (b := b) h (hlength ▸ hseed)
      rwa [hlength] at step
    · have step := LinkTest.takeBit_hunt (b := b) h (hlength ▸ hseed)
      rw [hpredicted] at step
      refine ⟨fun hstop => step.trans (if_neg hstop), fun hgo hrun => step.trans ((if_pos hgo).trans (if_neg hrun)),
        fun hgo hrun => step.trans ((if_pos hgo).trans (if_pos hrun))⟩
    · intro error window counted
      refine (LinkTest.takeBit_sync h).trans ((t.syncBit_eq b).trans ?_)
      rw [hpredicted]
      rfl

end Sys2Proof.Machine

/-! SUPPORT. The composition commands change the Compositor and the command channel alone (R138). -/

namespace Sys2Proof.Machine

/-- A command has been answered without data and has written at most the Compositor, which a refused one leaves. -/
def State.Composed (m : Moment) (c : CmdMessage) (s t : State) : Prop :=
  ∃ code, t = { s.replied m (c.reply code []) with comp := t.comp } ∧ ((code = .ok ∨ code = .clamped) ∨ t.comp = s.comp)

section Composed

variable {m : Moment} {c : CmdMessage} {s : State}

theorem State.composed_refuse (code : ReplyCode) : State.Composed m c s ((s.taken m).refuse c code) := by
  rw [State.refuse_taken]
  exact ⟨code, rfl, .inr rfl⟩

theorem State.composed_answer (f : Compositor → Compositor) (changed : List Bool) :
    State.Composed m c s (((s.taken m).modComp f).answer c (clampCode changed) []) := by
  rw [State.answer_modComp]
  refine ⟨clampCode changed, rfl, .inl ?_⟩
  unfold clampCode
  split
  · exact .inr rfl
  · exact .inl rfl

theorem State.composed_ofLength {k : Nat} {body : State → State} (h : State.Composed m c s (body (s.taken m))) :
    State.Composed m c s ((s.taken m).ofLength k c body) := by
  unfold State.ofLength
  split
  · exact h
  · exact State.composed_refuse _

theorem State.composed_ofField {α : Type} {field : Option α} {body : α → State → State}
    (h : ∀ a, State.Composed m c s (body a (s.taken m))) : State.Composed m c s ((s.taken m).ofField field c body) := by
  cases field with
  | none => exact State.composed_refuse _
  | some a => exact h a

theorem State.composed_unless {ok : Bool} {code : ReplyCode} {body : State → State}
    (h : State.Composed m c s (body (s.taken m))) : State.Composed m c s ((s.taken m).unless ok code c body) := by
  cases ok with
  | false => exact State.composed_refuse _
  | true => exact h

end Composed

/-- A row that does not execute only lets time pass; one that does carries out its body on the oldest message. -/
theorem State.execute_cases (m : Moment) (named : CmdMessage → Bool) (body : CmdMessage → State → State) (s : State) :
    s.execute m named body = s.advance m
      ∨ ∃ c, s.chan.queue.head? = some c ∧ s.execute m named body = body c (s.taken m) := by
  unfold State.execute
  cases hqueue : (s.advance m).chan.queue with
  | nil => exact .inl rfl
  | cons c rest =>
    by_cases hexecutes : (s.advance m).executes named c = true
    · exact .inr ⟨c, congrArg List.head? hqueue, if_pos hexecutes⟩
    · exact .inl (if_neg hexecutes)

/-- Each of the six rows carries out a body that composes. -/
theorem exec_composition {m : Moment} {i : Instr}
    (hi : i ∈ [.loadWindow m, .clearWindow m, .loadMarks m, .commitTables m, .selectPage m, .setSubstitute m])
    (s : State) : ∃ named body, exec i s = .next (s.execute m named body)
      ∧ ∀ c, State.Composed m c s (body c (s.taken m)) := by
  simp only [List.mem_cons, List.not_mem_nil, or_false] at hi
  rcases hi with rfl | rfl | rfl | rfl | rfl | rfl
  case inl =>
    exact ⟨_, _, rfl, fun c => State.composed_ofLength <| State.composed_ofField fun _ => State.composed_ofField fun _ =>
      State.composed_ofField fun _ => State.composed_unless <| State.composed_answer _ _⟩
  case inr.inl =>
    exact ⟨_, _, rfl, fun c => State.composed_ofLength <| State.composed_ofField fun _ => State.composed_ofField fun _ =>
      State.composed_answer _ []⟩
  case inr.inr.inl =>
    refine ⟨_, _, rfl, fun c => ?_⟩
    split
    · exact State.composed_refuse _
    · exact State.composed_ofField fun _ => State.composed_ofField fun _ => State.composed_answer _ _
  case inr.inr.inr.inl => exact ⟨_, _, rfl, fun c => State.composed_ofLength <| State.composed_answer _ []⟩
  case inr.inr.inr.inr.inl =>
    exact ⟨_, _, rfl, fun c => State.composed_ofLength <| State.composed_ofField fun _ => State.composed_answer _ []⟩
  case inr.inr.inr.inr.inr =>
    exact ⟨_, _, rfl, fun c => State.composed_ofLength <| State.composed_answer _ _⟩

/-- Settles O52: an event that does not execute only lets time pass, and each check of a command refuses or goes on. -/
theorem compositionCommandsStayApart : Obligations.CompositionCommandsStayApart := by
  unfold Obligations.CompositionCommandsStayApart
  intro m i s hi
  obtain ⟨named, body, hexec, hbody⟩ := exec_composition hi s
  refine ⟨_, hexec, ?_⟩
  obtain idle | ⟨c, hhead, taken⟩ := s.execute_cases m named body
  · rw [idle]
    exact ⟨rfl, rfl, rfl, rfl, rfl, rfl, rfl, rfl, rfl, rfl, .inl ⟨rfl, rfl, rfl⟩⟩
  · obtain ⟨code, heq, hcode⟩ := hbody c
    rw [← taken] at heq hcode
    refine ⟨?_, ?_, ?_, ?_, ?_, ?_, ?_, ?_, ?_, ?_, .inr ⟨c, code, hhead, heq, hcode⟩⟩
    all_goals
      rw [heq]
      rfl

end Sys2Proof.Machine

/-! SUPPORT. The drawing of an output line: pixels, concealment, the fetch list, the line that is complete (R57, R58,
R104, R127 to R130). -/

namespace Sys2Proof.Machine

/-! ### Pixels (R104, R127, R128, R130) -/

theorem WindowRecord.covers_iff {r : WindowRecord} {x y : Nat} :
    r.covers x y = true ↔ r.x ≤ x ∧ x < r.x + r.w ∧ r.y ≤ y ∧ y < r.y + r.h := by
  simp only [WindowRecord.covers, Bool.and_eq_true, decide_eq_true_eq, and_assoc]

section Pixels

variable {s : State} {got : List Fetched} {x y : Nat} {p : PlanWindow}

theorem State.pixel_uncovered (h : ∀ p ∈ s.comp.plan, p.record.covers x y = false) : s.pixel got x y = ⟨16, 128⟩ := by
  have none : s.comp.plan.filter (fun p => p.record.covers x y) = [] :=
    List.filter_eq_nil_iff.2 fun p hp => Bool.eq_false_iff.1 (h p hp)
  rw [State.pixel, none]
  rfl

/-- The last covering window of the plan gives the pixel. -/
theorem State.pixel_covered {below above : List PlanWindow} (hplan : s.comp.plan = below ++ p :: above)
    (hcovers : p.record.covers x y = true) (habove : ∀ k ∈ above, k.record.covers x y = false) :
    s.pixel got x y = p.pixel s.tone.active s.comp.marksActive got x y := by
  have last : (s.comp.plan.filter fun p => p.record.covers x y).getLast? = some p := by
    rw [hplan, List.filter_append, List.filter_cons_of_pos (by exact hcovers),
      List.filter_eq_nil_iff.2 fun k hk => Bool.eq_false_iff.1 (habove k hk)]
    exact List.getLast?_concat
  rw [State.pixel, last]

theorem clampInt_eq {lo hi x : Int} (h : lo ≤ hi) : clampInt lo hi x = max lo (min hi x) := by
  unfold clampInt
  split
  · omega
  · split <;> omega

theorem PlanWindow.drawBlock_eq (p : PlanWindow) (sets : Four MarkSet) (x y : Nat) (px : Pixel) :
    p.drawBlock sets x y px = if x - p.record.x < 16 ∧ y - p.record.y < 16 then
      ⟨sets.e0.palette.e3.y.toNat, sets.e0.palette.e3.chroma x⟩ else px :=
  ite_of_iff (by simp only [Bool.and_eq_true, decide_eq_true_eq]) rfl rfl

theorem drawMark_eq (set : MarkSet) (shiftX shiftY : Int) (i j x : Nat) (px : Pixel) (k : Mark) :
    drawMark set shiftX shiftY i j x px k =
      if k.x + shiftX ≤ i ∧ (i : Int) < k.x + shiftX + k.w ∧ k.y + shiftY ≤ j ∧ (j : Int) < k.y + shiftY + k.h then
        match k.mode with
        | .opaqueMark => ⟨(set.palette.get k.colour).y.toNat, (set.palette.get k.colour).chroma x⟩
        | .half => ⟨(px.y + (set.palette.get k.colour).y.toNat) / 2, (px.c + (set.palette.get k.colour).chroma x) / 2⟩
      else px :=
  ite_of_iff (by simp only [Bool.and_eq_true, decide_eq_true_eq, and_assoc]) rfl rfl

/-- A byte that has not been fetched reads 0 (log 38). -/
theorem sourceByte_eq (got : List Fetched) (w offset : Nat) : sourceByte got w offset =
    (got.find? fun f => f.window == w && f.segment == offset / 512).elim 0 fun f =>
      (f.data.getD (offset % 512) 0).toNat := by
  unfold sourceByte
  cases got.find? fun f => f.window == w && f.segment == offset / 512 <;> rfl

theorem PlanWindow.sourceColumn_eq (p : PlanWindow) (x : Nat) : p.sourceColumn x = p.ox + (match p.record.scale with
    | .one => x - p.record.x
    | .down => 2 * (x - p.record.x)
    | .up => (x - p.record.x) / 2) := by
  unfold PlanWindow.sourceColumn
  cases p.record.scale <;> rfl

theorem PlanWindow.sourceLine_eq (p : PlanWindow) (y : Nat) : p.sourceLine y = p.oy + (match p.record.scale with
    | .one => y - p.record.y
    | .down => 2 * (y - p.record.y)
    | .up => (y - p.record.y) / 2) := by
  unfold PlanWindow.sourceLine
  cases p.record.scale <;> rfl

theorem PlanWindow.pixel_lost (tone : Four (List Byte)) (sets : Four MarkSet) (h : p.content = .lost) :
    p.pixel tone sets got x y = p.drawBlock sets x y ⟨64, 128⟩ := by
  rw [PlanWindow.pixel, h]

theorem PlanWindow.pixel_normal {v : FrameView} (tone : Four (List Byte)) (sets : Four MarkSet) (h : p.content = .normal)
    (hview : p.view = some v) : p.pixel tone sets got x y = p.drawMarks sets x y (p.sourcePixel v tone got x y) := by
  rw [PlanWindow.pixel, h, hview]

theorem PlanWindow.pixel_stale {v : FrameView} (tone : Four (List Byte)) (sets : Four MarkSet) (h : p.content = .stale)
    (hview : p.view = some v) :
    p.pixel tone sets got x y = p.drawBlock sets x y (p.drawMarks sets x y (p.sourcePixel v tone got x y)) := by
  rw [PlanWindow.pixel, h, hview]

end Pixels

/-! ### Concealment (R57) -/

/-- The last number below `n` that passes. -/
theorem find?_reverse_range {q : Nat → Bool} {n k : Nat} (hk : k < n) (hq : q k = true)
    (hbetween : ∀ i, k < i → i < n → q i = false) : (List.range n).reverse.find? q = some k := by
  induction n with
  | zero => exact absurd hk (Nat.not_lt_zero k)
  | succ n ih =>
    rw [List.range_succ, List.reverse_append, List.reverse_singleton, List.singleton_append]
    obtain rfl | hlt := Nat.eq_or_lt_of_le (Nat.le_of_lt_succ hk)
    · exact List.find?_cons_of_pos hq
    · rw [List.find?_cons_of_neg (by rw [hbetween n hlt n.lt_succ_self]; exact Bool.false_ne_true)]
      exact ih hlt fun i h1 h2 => hbetween i h1 (Nat.lt_succ_of_lt h2)

section Concealed

variable {damaged : List Nat} {h line k : Nat}

theorem concealed_whole (hwhole : line ∉ damaged) : concealed damaged h line = line :=
  if_neg fun hc => hwhole (List.contains_iff_mem.1 hc)

theorem concealed_before (hline : line ∈ damaged) (hk : k < line) (hwhole : k ∉ damaged)
    (hbetween : ∀ i, k < i → i < line → i ∈ damaged) : concealed damaged h line = k := by
  have found : (List.range line).reverse.find? (fun l => !damaged.contains l) = some k :=
    find?_reverse_range hk (by simpa using hwhole) fun i h1 h2 => by simpa using hbetween i h1 h2
  rw [concealed, if_pos (List.contains_iff_mem.2 hline), found]

theorem concealed_after (hline : line ∈ damaged) (hbefore : ∀ k < line, k ∈ damaged) (hk : line < k) (hh : k < h)
    (hwhole : k ∉ damaged) (hbetween : ∀ i, line < i → i < k → i ∈ damaged) : concealed damaged h line = k := by
  have none : (List.range line).reverse.find? (fun l => !damaged.contains l) = none :=
    List.find?_eq_none.2 fun i hi => by simpa using hbefore i (List.mem_range.1 (List.mem_reverse.1 hi))
  have found : (List.range h).find? (fun l => line < l && !damaged.contains l) = some k := by
    refine List.find?_range_eq_some.2 ⟨by simpa using ⟨hk, hwhole⟩, List.mem_range.2 hh, fun i hi => ?_⟩
    have either : i ≤ line ∨ i ∈ damaged := (Nat.lt_or_ge line i).symm.imp_right fun hl => hbetween i hl hi
    simpa using either
  rw [concealed, if_pos (List.contains_iff_mem.2 hline), none]
  dsimp only
  rw [found]

end Concealed

/-! ### The fetch list and the complete line (R57, R58) -/

section Fetch

variable {p : PlanWindow} {y : Nat}

theorem PlanWindow.fetchItems_nothing
    (h : p.content = .lost ∨ p.view = none ∨ ¬(p.record.y ≤ y ∧ y < p.record.y + p.record.h)) : p.fetchItems y = [] := by
  have outside (h : ¬(p.record.y ≤ y ∧ y < p.record.y + p.record.h)) :
      ¬(decide (p.record.y ≤ y) && decide (y < p.record.y + p.record.h)) = true := by
    simpa only [Bool.and_eq_true, decide_eq_true_eq] using h
  unfold PlanWindow.fetchItems
  cases hcontent : p.content with
  | lost => rfl
  | stale | normal =>
    cases hview : p.view with
    | none => rfl
    | some v =>
      obtain h | h | h := h
      · rw [hcontent] at h
        cases h
      · rw [hview] at h
        cases h
      · exact if_neg (outside h)

theorem PlanWindow.fetchItems_covered {v : FrameView} (hcontent : p.content ≠ .lost) (hview : p.view = some v)
    (hcovered : p.record.y ≤ y ∧ y < p.record.y + p.record.h) :
    let first := 2 * p.ox / 512
    p.fetchItems y = (List.range ((2 * (p.ox + p.sw - 1) + 1) / 512 + 1 - first)).map fun k =>
      ⟨p.window, p.record.lane, v.slot, concealed v.damaged v.geometry.h (p.sourceLine y), first + k,
        min 512 (2 * v.geometry.w - 512 * (first + k))⟩ := by
  intro first
  have inside : (decide (p.record.y ≤ y) && decide (y < p.record.y + p.record.h)) = true := by
    simpa only [Bool.and_eq_true, decide_eq_true_eq] using hcovered
  unfold PlanWindow.fetchItems
  rw [hview]
  cases h : p.content with
  | lost => exact absurd h hcontent
  | stale | normal => exact if_pos inside

/-- The line to be fetched next: an active line, in PICTURE, that its place does not hold complete. -/
theorem State.wanted_iff {s : State} : s.wanted s.timing.nextLine = true ↔
    s.timing.phase = .picture ∧ s.timing.nextLine < s.timing.raster.height
      ∧ ∀ pixels, s.readBuffer.place s.timing.nextLine ≠ .complete s.timing.nextLine pixels := by
  have open_ : s.completeLine s.timing.nextLine = none ↔
      ∀ pixels, s.readBuffer.place s.timing.nextLine ≠ .complete s.timing.nextLine pixels := by
    unfold State.completeLine
    cases s.readBuffer.place s.timing.nextLine with
    | empty => exact iff_of_true rfl fun _ h => LinePlace.noConfusion h
    | filling line got => exact iff_of_true rfl fun _ h => LinePlace.noConfusion h
    | complete line pixels =>
      by_cases h : line = s.timing.nextLine
      · exact iff_of_false (by rw [LinePlace.completeFor, if_pos h]; exact Option.some_ne_none _)
          fun all => all pixels (h ▸ rfl)
      · exact iff_of_true (if_neg h) fun _ heq => h (LinePlace.complete.inj heq).1
  simp only [State.wanted, Bool.and_eq_true, decide_eq_true_eq, beq_iff_eq, Option.isNone_iff_eq_none, open_, and_true,
    and_assoc]

end Fetch

/-- Settles O49: pixel by pixel, then the list of a line and when it is complete. -/
theorem outputLinesAreDrawn : Obligations.OutputLinesAreDrawn := by
  unfold Obligations.OutputLinesAreDrawn
  refine ⟨fun s got x y => ⟨fun h => ?uncovered, fun below above p hplan hcovers habove => ?covered, rfl⟩,
    fun damaged h line => ⟨concealed_whole, fun hline => ⟨fun k hk hwhole hbetween =>
      concealed_before hline hk hwhole hbetween, fun hbefore k hk hh hwhole hbetween =>
      concealed_after hline hbefore hk hh hwhole hbetween⟩⟩,
    fun p y => ⟨PlanWindow.fetchItems_nothing, fun v hcontent hview hcovered => ?fetch⟩, fun s => ?line⟩
  case uncovered =>
    exact State.pixel_uncovered fun p hp => Bool.eq_false_iff.2 fun hc => h p hp (WindowRecord.covers_iff.1 hc)
  case covered =>
    have hpixel := State.pixel_covered (got := got) hplan (WindowRecord.covers_iff.2 hcovers)
      fun k hk => Bool.eq_false_iff.2 fun hc => habove k hk (WindowRecord.covers_iff.1 hc)
    intro i j sample third blocked mark marked
    have hmarked : p.drawMarks s.comp.marksActive x y = marked := by
      funext px
      unfold PlanWindow.drawMarks marked
      cases p.record.markSet with
      | none => rfl
      | some w => 
        refine congrArg (fun f => List.foldl f px (s.comp.marksActive.get w).marks) ?_
        funext px k
        exact drawMark_eq _ _ _ _ _ _ _ _
    refine ⟨fun hlost => ?_, fun v b hview hband => ?_⟩
    · exact hpixel.trans ((PlanWindow.pixel_lost _ _ hlost).trans (PlanWindow.drawBlock_eq _ _ _ _ _))
    · intro column line held read tile mean raw luma source
      have hsource : p.sourcePixel v s.tone.active got x y = source := by
        have hcolumn : p.sourceColumn x = column := p.sourceColumn_eq x
        have hline : p.sourceLine y = line := p.sourceLine_eq y
        have hread : ∀ offset, sourceByte got p.window offset = read offset := sourceByte_eq got p.window
        have htone : Fin.ofNat 4 v.band = b := Fin.ext ((congrArg (· % 4) hband).trans (Nat.mod_eq_of_lt b.isLt))
        have hclamp : ∀ a : Int, clampInt 0 255 a = max 0 (min 255 a) := fun _ => clampInt_eq (by decide)
        simp only [PlanWindow.sourcePixel, conditionLuma, tileIndex, hcolumn, hline, hread, htone, hclamp]
        rfl
      have hdrawn : p.drawMarks s.comp.marksActive x y (p.sourcePixel v s.tone.active got x y) = marked source := by
        rw [hmarked, hsource]
      exact ⟨fun h => (hpixel.trans (PlanWindow.pixel_normal _ _ h hview)).trans hdrawn,
        fun h => (hpixel.trans (PlanWindow.pixel_stale _ _ h hview)).trans
          ((congrArg _ hdrawn).trans (PlanWindow.drawBlock_eq _ _ _ _ _))⟩
  case fetch =>
    intro j line first
    have hline : p.sourceLine y = line := p.sourceLine_eq y
    have hitems := PlanWindow.fetchItems_covered hcontent hview hcovered
    rw [hline] at hitems
    exact hitems
  case line =>
    intro k place held missing due
    have hdue : due ↔ s.wanted k = true := State.wanted_iff.symm
    have hheld : s.got k = held := rfl
    have hmissing : s.unfetched k = missing := rfl
    refine ⟨fun h hnone => ?_, fun i more h hmore => ⟨?_, ?_⟩, fun h => ⟨?_, ?_⟩⟩
    · have ends : (s.wanted k && (s.unfetched k).isEmpty) = true := by rw [hdue.1 h, hmissing, hnone]; rfl
      exact if_pos ends
    · have more : (s.wanted k && (s.unfetched k).isEmpty) = false := by rw [hmissing, hmore, List.isEmpty_cons, Bool.and_false]
      exact if_neg (Bool.eq_false_iff.1 more)
    · refine (if_pos (hdue.1 h)).trans ?_
      rw [hmissing, hmore]
      rfl
    · have idle : (s.wanted k && (s.unfetched k).isEmpty) = false := by
        rw [Bool.eq_false_iff.2 fun hw => h (hdue.2 hw), Bool.false_and]
      exact if_neg (Bool.eq_false_iff.1 idle)
    · exact if_neg fun hw => h (hdue.2 hw)

end Sys2Proof.Machine

/-! SUPPORT. The output lines: the active lines, the status line and its end (R58, R59, R140, R150, R151, R183). -/

namespace Sys2Proof.Machine

/-! ### The places of the read buffer (R58) -/

theorem ReadBuffer.place_put_other {k line : Nat} (h : k % 2 ≠ line % 2) (p : LinePlace) (b : ReadBuffer) :
    (b.put line p).place k = b.place k := by
  unfold ReadBuffer.place ReadBuffer.put
  by_cases hk : k % 2 = 0
  · rw [if_pos hk, if_pos hk, if_neg fun hl => h (hk.trans hl.symm)]
  · rw [if_neg hk, if_neg hk, if_pos (by omega)]

theorem State.fetchRequest_line {s : State} {line : Nat} {item : FetchItem}
    (h : s.fetchRequest = some (.fetch line item)) : line = s.timing.nextLine := by
  unfold State.fetchRequest at h
  dsimp only at h
  split at h
  · obtain ⟨_, _, heq⟩ := Option.map_eq_some_iff.1 h
    cases heq
    rfl
  · cases h

/-- Serving moves the place of the line to be fetched alone. -/
theorem State.place_serve {s : State} {k : Nat} (h : k % 2 ≠ s.timing.nextLine % 2) :
    s.serve.readBuffer.place k = s.readBuffer.place k := by
  have completed : s.completeNext.readBuffer.place k = s.readBuffer.place k := by
    unfold State.completeNext
    dsimp only
    split
    · exact ReadBuffer.place_put_other h _ _
    · rfl
  have hnext : s.completeNext.timing = s.timing := by rw [s.completeNext_eq]
  rw [← completed, State.serve]
  unfold State.grant
  split
  · cases hgrant : s.completeNext.nextGrant with
    | none => rfl
    | some kind =>
      cases kind with
      | fetch line item =>
        have hline := State.fetchRequest_line (State.fetchRequest_of_nextGrant hgrant)
        rw [hnext] at hline
        exact ReadBuffer.place_put_other (by rwa [hline]) _ _
      | refresh | write | read => rfl
  · rfl

theorem State.completeLine_iff {s : State} {k : Nat} {pixels : List Byte} :
    s.completeLine k = some pixels ↔ s.readBuffer.place k = .complete k pixels := by
  unfold State.completeLine
  cases s.readBuffer.place k with
  | empty | filling => exact iff_of_false nofun nofun
  | complete line bytes =>
    rw [LinePlace.completeFor, LinePlace.complete.injEq]
    by_cases h : line = k
    · rw [if_pos h, Option.some.injEq, and_iff_right h]
    · rw [if_neg h]
      exact iff_of_false nofun fun heq => h heq.1

theorem State.chan_serve (s : State) : s.serve.chan = s.chan := by rw [s.serve_eq]

theorem State.tx_serve (s : State) : s.serve.tx = s.tx := by rw [s.serve_eq]

/-- What serving leaves of a state whose fields are those of `s`. -/
theorem State.leaves_serve {s u : State} (hlanes : u.lanes = s.lanes) (hjobs : u.jobs = s.jobs) (hcomp : u.comp = s.comp)
    (htone : u.tone = s.tone) (hdram : u.dram = s.dram) (howed : u.arb.owed = s.arb.owed)
    (hready : u.arb.storeReady = s.arb.storeReady) (hpending : u.pending = s.pending) :
    u.serve.lanes = s.lanes ∧ u.serve.jobs = s.jobs ∧ u.serve.comp = s.comp ∧ u.serve.tone = s.tone
      ∧ u.serve.dram = s.dram ∧ u.serve.arb.owed = s.arb.owed ∧ u.serve.arb.storeReady = s.arb.storeReady
      ∧ u.serve.pending = s.pending := by
  rw [u.serve_eq]
  exact ⟨hlanes, hjobs, hcomp, htone, hdram, howed, hready, hpending⟩

/-! ### Active lines (R59, R140) -/

theorem State.freeBefore_eq (k : Nat) (s : State) : s.freeBefore k = { s with
    readBuffer := if k = 0 then s.readBuffer else s.readBuffer.put (k - 1) .empty } := by
  unfold State.freeBefore
  split <;> rfl

theorem ReadBuffer.place_freed (k : Nat) (b : ReadBuffer) :
    (if k = 0 then b else b.put (k - 1) .empty).place k = b.place k := by
  split
  · rfl
  · exact ReadBuffer.place_put_other (by omega) _ _

theorem State.completeLine_freeBefore (k : Nat) (s : State) : (s.freeBefore k).completeLine k = s.completeLine k := by
  rw [State.freeBefore_eq]
  exact congrArg (LinePlace.completeFor k) (s.readBuffer.place_freed k)

theorem EventFlag.mask_outputUnderrun :
    EventFlag.outputUnderrun.mask = 0x008000 ∧ ~~~EventFlag.outputUnderrun.mask = 0xFF7FFF := by decide

theorem State.underrun_eq (k : Nat) (s : State) : s.underrun k = { s with
    chan := { s.chan with
      counters := { s.chan.counters with underruns := min 4294967295 (s.chan.counters.underruns + 1) }
      flags := s.chan.flags ||| 0x008000, reported := s.chan.reported &&& 0xFF7FFF }
    readBuffer := s.readBuffer.put k .empty
    arb := { s.arb with port := s.arb.port.map fun tr => { tr with
      live := tr.live && !TransferKind.fetchesFor k tr.kind } } } := by
  have hport : (s.discardTransfer (TransferKind.fetchesFor k)) = { s with arb := { s.arb with
      port := s.arb.port.map fun tr => { tr with live := tr.live && !TransferKind.fetchesFor k tr.kind } } } := by
    simp only [State.discardTransfer, Transfer.discard_eq]
    rfl
  obtain ⟨hmask, _⟩ := EventFlag.mask_outputUnderrun
  unfold State.underrun
  rw [hport]
  simp only [State.raise, State.modChan, CommandChannel.raise, hmask]
  rfl

section Begin

variable {s : State} {k : Nat} (hk : s.timing.nextLine = k)

include hk

theorem State.beginLine_complete {pixels : List Byte} (h : s.completeLine k = some pixels) : s.beginLine = { s with
    timing := { s.timing with nextLine := k + 1 }, tx := ⟨.activeLine pixels, pixels⟩
    readBuffer := if k = 0 then s.readBuffer else s.readBuffer.put (k - 1) .empty } := by
  subst hk
  unfold State.beginLine
  dsimp only
  rw [State.completeLine_freeBefore, h, State.freeBefore_eq]
  rfl

theorem State.beginLine_underrun (h : s.completeLine k = none) :
    let instead := if k = 0 then blackPixels s.timing.raster.width else s.tx.lastLine
    s.beginLine = { s with
      timing := { s.timing with nextLine := k + 1 }, tx := ⟨.activeLine instead, instead⟩
      chan := (s.underrun k).chan, arb := (s.underrun k).arb
      readBuffer := (if k = 0 then s.readBuffer else s.readBuffer.put (k - 1) .empty).put k .empty } := by
  subst hk
  unfold State.beginLine
  dsimp only
  rw [State.completeLine_freeBefore, h, State.freeBefore_eq]
  rfl

end Begin

/-! ### The status line (R150, R151, R183) -/

/-- A number of one byte that may be none, as a byte. -/
theorem optByte1_byte (b : Option Byte) : optByte1 (b.map (·.toNat)) = [b.getD 255] := by
  cases b with
  | none => rfl
  | some b => exact byte1_toNat b

theorem optByte1_lane (n : Option Lane) : optByte1 (optLane n) = [(n.map fourByte).getD 255] := by
  cases n <;> rfl

theorem TimingMode.bytes_eq (t : TimingMode) : byte1 t.code ++ byte1 t.fixedLane = match t with
    | .auto => [0, 0]
    | .fixed n => [1, fourByte n]
    | .free => [2, 0] := by
  cases t <;> rfl

theorem State.freeBefore_height (s : State) : s.freeBefore s.timing.raster.height =
    { s with readBuffer := { s.readBuffer with place1 := .empty } } := by
  unfold State.freeBefore
  cases s.timing.raster <;> rfl

/-- Settles O50. -/
theorem outputLinesComplete : Obligations.OutputLinesComplete := by
  unfold Obligations.OutputLinesComplete
  refine ⟨fun m s => ?active, fun m s hreset => ?status⟩
  case active =>
    intro k raster place emptied freed begun hreset hphase hk hdue
    have hraster : raster = (s.timing.raster.width, s.timing.raster.height, s.timing.raster.lineTicks) := by
      unfold raster
      cases s.timing.raster <;> rfl
    rw [hraster] at hk hdue
    have event : (s.advance m).timing.activeLineDue (s.advance m).now = true := by
      refine Bool.and_eq_true_iff.2 ⟨Bool.and_eq_true_iff.2 ⟨?_, decide_eq_true hk⟩, decide_eq_true hdue⟩
      exact beq_iff_eq.2 hphase
    have hexec : exec (.activeLineBegin m) s = .next (s.advance m).beginLine.serve :=
      congrArg Host.Outcome.next (State.onEvent_of_due hreset event _)
    refine ⟨_, hexec, ?_⟩
    have hother : k % 2 ≠ (k + 1) % 2 := by omega
    cases hline : (s.advance m).completeLine k with
    | some pixels =>
      rw [State.beginLine_complete rfl hline]
      have hplace : place s.readBuffer = .complete k pixels := State.completeLine_iff.1 hline
      refine ⟨State.timing_serve _, fun p hp => ?_, fun hnot => absurd hplace (hnot pixels),
        State.leaves_serve rfl rfl rfl rfl rfl rfl rfl rfl⟩
      obtain rfl : pixels = p := (LinePlace.complete.inj (hplace.symm.trans hp)).2
      exact ⟨State.tx_serve _, (State.place_serve hother).trans ((s.readBuffer.place_freed k).trans hplace),
        State.chan_serve _, rfl⟩
    | none =>
      have hplace : ∀ pixels, place s.readBuffer ≠ .complete k pixels := fun p hp => by
        have held := State.completeLine_iff.2 (show (s.advance m).readBuffer.place k = _ from hp)
        rw [hline] at held
        cases held
      have hinstead : (if k = 0 then blackPixels (s.advance m).timing.raster.width else (s.advance m).tx.lastLine)
          = if k = 0 then (List.replicate raster.1 [(16 : Byte), 128]).flatten else s.tx.lastLine := by
        rw [hraster]
        rfl
      have hchan := congrArg State.chan (State.underrun_eq k (s.advance m))
      have hcut : (fun tr : Transfer => { tr with live := tr.live && !TransferKind.fetchesFor k tr.kind })
          = fun tr => { tr with live := tr.live && (match tr.kind with | .fetch line _ => line != k | _ => true) } := by
        funext tr
        rcases tr with ⟨_ | _ | _ | _, _, _⟩ <;> rfl
      have harb := (congrArg State.arb (State.underrun_eq k (s.advance m))).trans
        (congrArg (fun f => { s.arb with port := s.arb.port.map f }) hcut)
      have hbegin := State.beginLine_underrun (s := s.advance m) (k := k) rfl hline
      dsimp only at hbegin
      rw [hinstead, hchan, harb] at hbegin
      rw [hbegin]
      refine ⟨State.timing_serve _, fun p hp => absurd hp (hplace p), fun _ => ⟨State.tx_serve _,
        (State.place_serve hother).trans (ReadBuffer.place_put_same k _ _), State.chan_serve _, ?_⟩,
        State.leaves_serve rfl rfl rfl rfl rfl rfl rfl rfl⟩
      rw [State.chan_serve]
      rfl
  case status =>
    intro raster c t record checked sent
    have hraster : raster = (s.timing.raster.width, s.timing.raster.height, s.timing.raster.lineTicks) := by
      unfold raster
      cases s.timing.raster <;> rfl
    refine ⟨fun hphase hlines hdue => ?_, fun hphase hdue => ?_⟩
    · rw [hraster] at hlines hdue
      have event : (s.advance m).timing.statusLineDue (s.advance m).now = true := by
        refine Bool.and_eq_true_iff.2 ⟨Bool.and_eq_true_iff.2 ⟨?_, decide_eq_true hlines⟩, decide_eq_true hdue⟩
        exact beq_iff_eq.2 hphase
      refine congrArg Host.Outcome.next ((State.onEvent_of_due hreset event _).trans ?_)
      have hrecord : (s.advance m).statusRecord (s.advance m).chan.placed.length = record := by
        rw [State.statusRecord, optByte1_byte, optByte1_lane, List.append_assoc _ (byte1 (s.advance m).timing.mode.code),
          TimingMode.bytes_eq, CommandChannel.placed, List.length_take]
        rfl
      have hline : (s.advance m).statusLine = sent ++ (blackPixels s.timing.raster.width).take (2 * s.timing.raster.width - sent.length) := by
        rw [State.statusLine, hrecord]
        rfl
      have hheight := State.freeBefore_height ((({ s.advance m with
        chan := { c with reported := c.reported ||| c.flags, notices := c.notices.drop 4 }
        tx := { s.tx with video := .statusLine (s.advance m).statusLine } } : State)))
      have hbegun : (s.advance m).beginStatusLine = (State.modTiming (fun t => { t with phase := .statusLine })
          ({ s.advance m with
            chan := { c with reported := c.reported ||| c.flags, notices := c.notices.drop 4 }
            tx := { s.tx with video := .statusLine (s.advance m).statusLine }
            readBuffer := { s.readBuffer with place1 := .empty } } : State)).bringExecution :=
        congrArg (fun u : State => (u.modTiming fun t => { t with phase := .statusLine }).bringExecution) hheight
      have hlength : (c.notices.drop 4).length = c.notices.length - 4 := List.length_drop
      rw [hbegun, hline, hraster, ← hlength]
      rfl
    · rw [hraster] at hdue
      have event : (s.advance m).timing.statusLineOver (s.advance m).now = true :=
        Bool.and_eq_true_iff.2 ⟨beq_iff_eq.2 hphase, decide_eq_true hdue⟩
      exact congrArg Host.Outcome.next (State.onEvent_of_due hreset event _)

end Sys2Proof.Machine

/-! SUPPORT. The starts of an output frame, and the packet that brings the master's offset line (R141 to R144). -/

namespace Sys2Proof.Machine

/-! ### Forced and timed starts (R143, R144) -/

section Starts

variable {m : Moment} {s : State} {due : Nat}

theorem exec_outputTimerExpiry (hreset : s.resetAsserted = false) (hphase : s.timing.phase = .blanking)
    (hdue : due ≤ max s.now m.tick) (hwatch : s.timing.watch = some (.timer due)) :
    exec (.outputTimerExpiry m) s = .next ((s.advance m).startFrame none).serve := by
  have event : (s.advance m).timing.timerExpired (s.advance m).now = true := by
    show Timing.timerExpired (max s.now m.tick) s.timing = true
    rw [Timing.timerExpired, hwatch]
    exact Bool.and_eq_true_iff.2 ⟨decide_eq_true hdue, beq_iff_eq.2 hphase⟩
  exact congrArg Host.Outcome.next (State.onEvent_of_due hreset event _)

theorem exec_flywheelDeadlineExpiry (hreset : s.resetAsserted = false) (hphase : s.timing.phase = .blanking)
    (hdue : due ≤ max s.now m.tick) (hwatch : s.timing.watch = some (.deadline due)) :
    exec (.flywheelDeadlineExpiry m) s = .next (s.advance m).forceStart.serve := by
  have event : (s.advance m).timing.deadlineExpired (s.advance m).now = true := by
    show Timing.deadlineExpired (max s.now m.tick) s.timing = true
    rw [Timing.deadlineExpired, hwatch]
    exact Bool.and_eq_true_iff.2 ⟨decide_eq_true hdue, beq_iff_eq.2 hphase⟩
  exact congrArg Host.Outcome.next (State.onEvent_of_due hreset event _)

theorem State.forceStart_eq (s : State) : s.forceStart
    = ({ s with timing := { s.timing with flywheel := min 3 (s.timing.flywheel + 1) } }.startFrame
        (if 2 ≤ s.timing.flywheel then s.timing.master else none)) := by
  refine congrArg (fun d => State.startFrame d
    { s with timing := { s.timing with flywheel := min 3 (s.timing.flywheel + 1) } }) (ite_of_iff ?_ rfl rfl)
  show min 3 (s.timing.flywheel + 1) = 3 ↔ _
  omega

/-- A lane that its third forced start drops is not selected (R143, R146). -/
theorem State.candidate_ne_dropped (s : State) (n : Lane) : s.candidate (some n) ≠ some n := by
  have dropped : s.qualifies (some n) n = false := by
    rw [State.qualifies, bne_self_eq_false, Bool.and_false]
  intro h
  unfold State.candidate at h
  cases hmode : s.timing.mode with
  | auto =>
    rw [hmode] at h
    have := List.find?_some h
    rw [dropped] at this
    cases this
  | fixed k =>
    rw [hmode] at h
    dsimp only at h
    split at h
    · rename_i hq
      obtain rfl := Option.some.inj h
      rw [dropped] at hq
      cases hq
    · cases h
  | free =>
    rw [hmode] at h
    cases h

theorem State.startFrame_master (s : State) (dropped : Option Lane) :
    (s.startFrame dropped).timing.master = s.candidate dropped :=
  (congrArg Timing.master ((s.startFrame_timing dropped).trans (Timing.atFrameStart_eq _ _ _)) :)

theorem State.startFrame_lastStart (s : State) (dropped : Option Lane) :
    (s.startFrame dropped).timing.lastStart = s.now :=
  (congrArg Timing.lastStart ((s.startFrame_timing dropped).trans (Timing.atFrameStart_eq _ _ _)) :)

/-- The flywheel count stays when the master does. -/
theorem State.startFrame_flywheel {s : State} {dropped : Option Lane}
    (h : (s.startFrame dropped).timing.master = s.timing.master) :
    (s.startFrame dropped).timing.flywheel = s.timing.flywheel := by
  rw [State.startFrame_master] at h
  rw [State.startFrame_timing]
  have same : s.timing.numberFrame.takeRaster.latchSync.master = s.timing.master :=
    (congrArg Timing.master s.timing.beforeSelection_eq :)
  have kept : s.timing.numberFrame.takeRaster.latchSync.flywheel = s.timing.flywheel :=
    (congrArg Timing.flywheel s.timing.beforeSelection_eq :)
  show (s.timing.numberFrame.takeRaster.latchSync.select (s.candidate dropped)).flywheel = _
  rw [← kept]
  rw [← same] at h
  obtain ⟨-, -, heq⟩ | ⟨n, hn, hne, -⟩ | ⟨hnone, hne, -⟩ | ⟨-, -, heq⟩ :=
    s.timing.numberFrame.takeRaster.latchSync.select_cases (s.candidate dropped)
  · rw [heq]
  · exact absurd (h.symm.trans hn) hne
  · exact absurd (h.symm.trans hnone) hne
  · rw [heq]

end Starts

/-! ### The master's offset line (R142) -/

theorem Timing.takeOffsetLine_eq (now frame : Nat) (t : Timing) : t.takeOffsetLine now frame = { t with
    average := match t.offsetMark with
      | some k =>
        if (k.frame + 1) % 16 = frame then
          let period := min 16777215 (now - k.tick)
          some (match t.average with
            | some avg => ((avg : Int) + (16 * (period : Int) - avg).tdiv 8).toNat
            | none => 16 * period)
        else t.average
      | none => t.average
    offsetMark := some ⟨frame, now⟩ } := by
  unfold Timing.takeOffsetLine
  cases t.offsetMark with
  | none => rfl
  | some k =>
    cases t.average with
    | none => rfl
    | some avg =>
      simp only [foldEighth_sixteenfold]

/-- The same, by whether there is an offset mark and an average. -/
theorem Timing.takeOffsetLine_cases (now frame : Nat) (t : Timing) : t.takeOffsetLine now frame = { t with
    average := match t.offsetMark, t.average with
      | none, avg => avg
      | some k, none => if (k.frame + 1) % 16 = frame then some (16 * min 16777215 (now - k.tick)) else none
      | some k, some avg => some (if (k.frame + 1) % 16 = frame then
          ((avg : Int) + (16 * ((min 16777215 (now - k.tick) : Nat) : Int) - avg).tdiv 8).toNat else avg)
    offsetMark := some ⟨frame, now⟩ } := by
  rw [Timing.takeOffsetLine_eq]
  cases t.offsetMark with
  | none => rfl
  | some k =>
    cases t.average with
    | none => rfl
    | some avg =>
      exact congrArg (fun a => { t with average := a, offsetMark := some ⟨frame, now⟩ }) (apply_ite some ((k.frame + 1) % 16 = frame) _ _).symm

theorem State.lineToTiming_offset {n : Lane} {line : Nat} {s : State} (hmaster : s.timing.master = some n)
    (hline : line = s.timing.syncInForce) (frame : Nat) :
    let taken := s.timing.takeOffsetLine s.now frame
    s.lineToTiming n line frame = if s.timing.phase = .blanking then
        ({ s with timing := { taken with flywheel := 0 } } : State).startFrame none
      else { s with timing := taken } :=
  if_pos ⟨hmaster, hline⟩

/-- A LINE that is taken in NORMAL, as the packet that brings it leaves the lane (R7, R8, R11, R12, R46, R48, R87). -/
theorem LaneBlocks.takeLine_heardFrom {q : Packet} {g : Geometry} {l : LaneBlocks} {now : Nat} {relay : Relay}
    (hacq : l.rx.acquisition = some g) (hle : l.rx.expectedLine ≤ q.word1) (hmode : l.rx.mode = .normal) :
    let good := q.payloadOk && q.payload.length == 2 * g.w
    let lost := good && decide (2 ≤ l.store.buffer.length)
    let entered := (l.lineHurt q).take (32 - l.rx.damagedCount)
    LaneBlocks.takeLine q now (l.heardFrom relay q now) = { l with
      relay := relay, rx := (l.heardFrom relay q now).lineRx q now
      store := if good && !lost then (l.store.enterLines entered).enter q.word1 q.payload else l.store.enterLines entered
      dust := if good && !lost then l.dust.gather q.word1 q.payload else l.dust } := by
  intro good lost entered
  have hcheck : l.rx.mode ≠ .check := by rw [hmode]; nofun
  have hlost : l.loses good = lost := by
    rw [LaneBlocks.loses, hmode]
    exact congrArg (· && _) (Bool.and_true good)
  obtain ⟨hkept, -, -⟩ := LaneBlocks.fate_cases (q := q) hacq
  rw [hlost] at hkept
  by_cases h : (good && !lost) = true
  · rw [if_pos h, if_pos h]
    exact LaneBlocks.takeLine_stored (l := l.heardFrom relay q now) hle (hkept.2 h) hcheck
  · rw [if_neg h, if_neg h]
    exact LaneBlocks.takeLine_unstored (l := l.heardFrom relay q now) hle (fun hk => h (hkept.1 hk)) hcheck

/-- Settles O48. -/
theorem outputFramesStart : Obligations.OutputFramesStart := by
  unfold Obligations.OutputFramesStart
  refine ⟨fun m s due hreset hphase hdue => ⟨exec_outputTimerExpiry hreset hphase hdue, fun hwatch => ?forced⟩,
    fun n line frame s => ?offset, ?packet⟩
  case forced =>
    refine ⟨_, exec_flywheelDeadlineExpiry hreset hphase hdue hwatch, congrArg State.serve (State.forceStart_eq _),
      fun n hmaster hthird => ?_, fun hsame => ?_, ?_⟩
    all_goals rw [State.timing_serve, State.forceStart_eq]
    · have hdropped : (if 2 ≤ (s.advance m).timing.flywheel then (s.advance m).timing.master else none) = some n :=
        (if_pos hthird).trans hmaster
      rw [State.startFrame_master, hdropped]
      exact State.candidate_ne_dropped _ n
    · rw [State.timing_serve, State.forceStart_eq] at hsame
      exact State.startFrame_flywheel hsame
    · exact State.startFrame_lastStart _ _
  case offset =>
    intro average taken
    have htaken : s.timing.takeOffsetLine s.now frame = taken := s.timing.takeOffsetLine_eq s.now frame
    refine ⟨fun hmaster hline => ?_, fun h => State.lineToTiming_other fun ⟨hmaster, hline⟩ =>
      h.elim (· hmaster) (· hline)⟩
    have hstart := State.lineToTiming_offset hmaster hline frame
    dsimp only at hstart
    rw [htaken] at hstart
    exact ⟨fun hphase => hstart.trans (if_pos hphase), fun hphase => hstart.trans (if_neg hphase)⟩
  case packet =>
    intro m s n bytes q g f rx store now relay up hreset hstate hmode hparse hkind hacq hopen hnumber hle hlt hmaster hoffset
      ahead good lost period fault hurt entered listed longer seen framePeriod average taken hshort
    have hlost : (s.lane n).loses good = lost := by
      rw [LaneBlocks.loses, hmode]
      exact congrArg (· && _) (Bool.and_true good)
    obtain ⟨hkept, -, -⟩ := LaneBlocks.fate_cases (q := q) hacq
    rw [hlost] at hkept
    have hfault : (s.lane n).lineFault q now = fault := by
      have untaken : ∀ a b : Bool, ¬(a && !b) = true ↔ (!a || b) = true := by decide
      have hbad : ((s.lane n).payloadFate q != .kept) = (!good || lost) := by
        rw [Bool.eq_iff_iff, bne_iff_ne, Ne, hkept]
        exact untaken good lost
      have order : ∀ a b c d : Bool, (a || d || (b || c)) = (a || b || c || d) := by decide
      rw [LaneBlocks.lineFault, hbad]
      exact order ..
    have hhurt : (s.lane n).lineHurt q = hurt := by
      have h : (s.lane n).lineHurt q = (List.range ahead).map (rx.expectedLine + ·)
          ++ (if good && !(s.lane n).loses good then [] else [q.word1]) := LaneBlocks.lineHurt_of hacq
      rw [hlost] at h
      exact h
    have hlane := LaneBlocks.takeLine_heardFrom (now := now) (relay := relay.1) hacq hle hmode
    dsimp only at hlane
    rw [hhurt] at hlane
    have hhealth : (if fault = true then satAdd 32 rx.health 1 else rx.health - 1)
        = if fault = true then rx.health + 1 else rx.health - 1 :=
      ite_congr rfl (fun h => satAdd_health (hshort h)) fun _ => rfl
    have hrx := LaneBlocks.lineRx_heardFrom hkind hacq hle relay.1 now
    dsimp only at hrx
    have hloses : (s.lane n).loses (q.payloadOk && q.payload.length == 2 * g.w) = lost := hlost
    rw [hhurt, hfault, hhealth, hloses] at hrx
    have hlisted : store.enterLines entered = listed := LaneStore.enterLines_eq entered store
    have hstore : (if (good && !lost) = true then (store.enterLines entered).enter q.word1 q.payload
        else store.enterLines entered) = if (good && !lost) = true then { listed with buffer := match store.opening with
          | .unstored => longer.dropWhile fun b => b.tag == .current
          | _ => longer } else listed :=
      ite_congr rfl (fun _ => (LaneStore.enter_enterLines entered q.word1 q.payload store).trans
        (congrArg (fun st : LaneStore => { st with buffer := match store.opening with
          | .unstored => longer.dropWhile fun b => b.tag == FrameTag.current
          | _ => longer }) hlisted)) fun _ => hlisted
    have hseen : (s.heardFrom m n q).modLane n (LaneBlocks.takeLine q now) = seen := by
      refine (State.heardFrom_modLane m n q _ s).trans (congrArg (State.offerAll relay.2) (State.modLane_congr ?_))
      rw [hrx, hstore] at hlane
      exact hlane
    have hexec := exec_cameraPacket_line hreset hstate (by rw [hmode]; nofun) hparse hkind hacq hopen hnumber hle hlt
      fun h => hshort (hfault ▸ h)
    have htiming : seen.timing = s.timing := (congrArg State.timing (State.offerAll_eq relay.2 _) :)
    have hnow : seen.now = now := (congrArg State.now (State.offerAll_eq relay.2 _) :)
    have htaken : seen.timing.takeOffsetLine seen.now q.number = taken := by
      rw [htiming, hnow]
      exact s.timing.takeOffsetLine_cases now q.number
    have hstart := State.lineToTiming_offset (s := seen) (htiming ▸ hmaster) (htiming ▸ hoffset) q.number
    dsimp only at hstart
    rw [htaken, htiming] at hstart
    refine hexec.trans (congrArg Host.Outcome.next ?_)
    rw [hseen, hstart]
    exact apply_ite State.serve _ _ _

end Sys2Proof.Machine

/-! SUPPORT. The completions of the three kinds of data transfer: a lane write, a fetch, a conditioning read (R41, R48,
R49, R58, R60, R66). -/

namespace Sys2Proof.Machine

/-! ### The events -/

/-- A data transfer that completes: nothing when its data no longer counts, a fault beyond the DRAM (log 18). -/
theorem inDram_cases {addr bytes : Nat} {live : Bool} (faulty whole discarded : Result) :
    (live = false → (if !live then discarded else if inDram addr bytes then whole else faulty) = discarded)
    ∧ (live = true → 33554432 < addr + bytes →
      (if !live then discarded else if inDram addr bytes then whole else faulty) = faulty)
    ∧ (live = true → addr + bytes ≤ 33554432 →
      (if !live then discarded else if inDram addr bytes then whole else faulty) = whole) := by
  refine ⟨fun h => if_pos (by rw [h]; rfl), fun h hout => ?_, fun h hin => ?_⟩
  all_goals refine (if_neg (by rw [h]; exact Bool.false_ne_true)).trans ?_
  · exact if_neg fun hin => Nat.not_le.2 hout (of_decide_eq_true hin)
  · exact if_pos (decide_eq_true hin)

section Events

variable {m : Moment} {s : State} {due : Nat} {live : Bool}

theorem exec_laneWriteComplete {n : Lane} {slot : Fin 4} {line k : Nat} {data : List Byte}
    (hport : s.arb.port = some ⟨.write n slot line k data, due, live⟩) (hdue : due ≤ max s.now m.tick) :
    exec (.laneWriteComplete m) s = if !live then .next (s.advance m).freePort.serve
      else if inDram (segmentAddress n slot line k) data.length then
        .next ((s.advance m).freePort.finishWrite n (segmentAddress n slot line k) data).serve
      else .fault .dramAddress := by
  simp only [exec, execLaneWriteComplete, State.completed_of_due hport hdue]

theorem exec_compositorFetchComplete {line : Nat} {f : FetchItem} (hport : s.arb.port = some ⟨.fetch line f, due, live⟩)
    (hdue : due ≤ max s.now m.tick) :
    exec (.compositorFetchComplete m) s = if !live then .next (s.advance m).freePort.serve
      else if inDram (segmentAddress f.lane f.slot f.line f.segment) f.bytes then
        .next ((s.advance m).freePort.finishFetch line f
          (Memory.readRun (segmentAddress f.lane f.slot f.line f.segment) f.bytes s.dram)).serve
      else .fault .dramAddress := by
  simp only [exec, execCompositorFetchComplete, State.completed_of_due hport hdue]
  rfl

theorem exec_conditioningReadComplete {n : Lane} {slot : Fin 4} {line k length : Nat}
    (hport : s.arb.port = some ⟨.read n slot line k length, due, live⟩) (hdue : due ≤ max s.now m.tick) :
    exec (.conditioningReadComplete m) s = if !live then .next (s.advance m).freePort.serve
      else if inDram (segmentAddress n slot line k) length then
        .next ((s.advance m).freePort.takeRead (Memory.readRun (segmentAddress n slot line k) length s.dram)).serve
      else .fault .dramAddress := by
  simp only [exec, execConditioningReadComplete, State.completed_of_due hport hdue]
  rfl

end Events

/-! ### The head line after a segment (R48) -/

section Head

variable {st : LaneStore} {b : BufferedLine} {rest : List BufferedLine}

theorem LaneStore.segmentWritten_more (h : st.buffer = b :: rest) (hmore : 512 * (b.written + 1) < b.payload.length) :
    st.segmentWritten = { st with buffer := { b with written := b.written + 1 } :: rest } := by
  rw [LaneStore.segmentWritten, h]
  refine if_neg ?_
  simp only [BufferedLine.segments, ceilDiv]
  omega

theorem LaneStore.segmentWritten_last (h : st.buffer = b :: rest) (hlast : b.payload.length ≤ 512 * (b.written + 1))
    (hopening : st.opening ≠ .unstored) : st.segmentWritten = { st with buffer := rest } := by
  have whole : b.segments ≤ b.written + 1 := by
    simp only [BufferedLine.segments, ceilDiv]
    omega
  rw [LaneStore.segmentWritten, h]
  refine (if_pos whole).trans ?_
  rw [LaneStore.trimUnstored]
  cases hcase : st.opening with
  | unstored => exact absurd hcase hopening
  | closed | stored | deferred => rfl

end Head

/-! ### A commit that waits, and one that is made (R49) -/

section Commit

variable {n : Lane} {s : State}

theorem State.commitIfDrained_waiting
    (h : (s.lane n).store.pendingCommit = none ∨ ∃ c ∈ (s.lane n).store.buffer, c.tag = .committing) :
    s.commitIfDrained n = s := by
  unfold State.commitIfDrained
  cases hpending : (s.lane n).store.pendingCommit with
  | none => rfl
  | some p =>
    obtain ⟨c, hc, htag⟩ := h.resolve_left (by rw [hpending]; nofun)
    have waits : (s.lane n).store.buffer.any (BufferedLine.of .committing) = true :=
      List.any_eq_true.2 ⟨c, hc, by rw [BufferedLine.of, htag]; rfl⟩
    exact if_neg (by rw [LaneStore.drained, waits]; exact Bool.false_ne_true)

theorem State.commitIfDrained_drained {p : PendingCommit} (h : (s.lane n).store.pendingCommit = some p)
    (hdrained : ∀ c ∈ (s.lane n).store.buffer, c.tag = .current) : s.commitIfDrained n = s.commit n p := by
  have drained : (s.lane n).store.buffer.any (BufferedLine.of .committing) = false :=
    List.any_eq_false.2 fun c hc => by rw [BufferedLine.of, hdrained c hc]; decide
  rw [State.commitIfDrained, h]
  exact if_pos (by rw [LaneStore.drained, drained]; rfl)

end Commit

end Sys2Proof.Machine

/-! SUPPORT. The completion of a lane write: the bytes it stores, the line and the commit (R41, R48, R49). -/

namespace Sys2Proof.Machine

theorem State.dram_finishWrite (n : Lane) (addr : Nat) (data : List Byte) (s : State) :
    (s.finishWrite n addr data).serve.dram = Memory.writeRun addr data s.dram := by
  have root := (keepsAll_root _).serve ((keepsAll_root _).commitIfDrained n
    (s := { s with dram := Memory.writeRun addr data s.dram }.modStore n LaneStore.segmentWritten) rfl)
  exact congrArg Root.dram root

/-- The lane's blocks after the commit of a frame that does not go to conditioning, with no opening behind it (R49). -/
def LaneBlocks.freeCommit (slot : Fin 4) (l : LaneBlocks) : LaneBlocks :=
  { l with
    store := { l.store with ring := l.store.ring.set slot none, pendingCommit := none }
    dust := l.dust.dropClosed }

/-- A commit of a frame opened in ACQUIRING, with no opening behind it, while a job runs or none waits (R49). -/
theorem State.commit_unfit {n : Lane} {s : State} {slot : Fin 4} (damaged dmax : Nat)
    (hopening : (s.lane n).store.opening = .closed) (hrun : ∀ j ∈ s.jobs.head?, j.run.isSome = true) :
    s.commit n ⟨slot, damaged, dmax, .acquiring⟩ = s.modLane n (LaneBlocks.freeCommit slot) := by
  have committed : s.commit n ⟨slot, damaged, dmax, .acquiring⟩ = (((s.modStore n fun st =>
      { st with pendingCommit := none }).modStore n (LaneStore.free slot)).modDust n Dust.dropClosed).modStore n
        LaneStore.performDeferred := State.startJobs_of_running hrun
  have performed : LaneStore.performDeferred (LaneStore.free slot { (s.lane n).store with pendingCommit := none })
      = LaneStore.free slot { (s.lane n).store with pendingCommit := none } := by
    have closed : (LaneStore.free slot { (s.lane n).store with pendingCommit := none }).opening = .closed := hopening
    rw [LaneStore.performDeferred, closed]
  rw [committed]
  simp only [State.modStore, State.modDust, State.modLane_modLane]
  exact State.modLane_congr (congrArg (fun st => { s.lane n with store := st, dust := (s.lane n).dust.dropClosed }) performed)

/-- Settles O42. -/
theorem laneWriteCompletes : Obligations.LaneWriteCompletes := by
  unfold Obligations.LaneWriteCompletes
  intro m s n slot line k data due live hport hdue address freed store others
  obtain ⟨hdiscarded, hfault, hwhole⟩ := inDram_cases (addr := address) (bytes := data.length) (live := live)
    (.fault .dramAddress) (.next ((s.advance m).freePort.finishWrite n address data).serve)
    (.next (s.advance m).freePort.serve)
  have hexec := exec_laneWriteComplete hport hdue
  refine ⟨fun h => hexec.trans (hdiscarded h), fun h hout => hexec.trans (hfault h hout), fun h hin =>
    ⟨_, hexec.trans (hwhole h hin), ?_⟩, fun b rest h hin hbuffer => ?_⟩
  · rw [State.dram_finishWrite]
    refine ⟨fun i hi => ?_, fun a ha => Memory.read_writeRun_out address data s.dram ha⟩
    rw [Memory.read_writeRun_in address data _ hi, List.getElem?_eq_getElem hi, ← List.getElem_eq_getD]
  · let written : State := { freed with dram := Memory.writeRun address data s.dram }
    have frame (f : LaneBlocks → LaneBlocks) (hf : ∀ l, (f l).test = l.test ∧ (f l).rx = l.rx ∧ (f l).relay = l.relay) :
        others (written.modLane n f).serve ∧ (written.modLane n f).serve.jobs = s.jobs
          ∧ ((written.modLane n f).serve.lane n).store = (f (s.lane n)).store := by
      have served := (written.modLane n f).serve_eq
      have hlane (i : Lane) : (written.modLane n f).serve.lane i = (written.modLane n f).lane i :=
        (congrArg (·.lane i) served :)
      have hhere : (written.modLane n f).serve.lane n = f (s.lane n) := (hlane n).trans (State.lane_modLane_same n f written)
      have hother (i : Lane) (hi : i ≠ n) : (written.modLane n f).serve.lane i = s.lane i :=
        (hlane i).trans (State.lane_modLane_other f written hi)
      refine ⟨⟨fun i hi => congrArg LaneBlocks.store (hother i hi), fun i => ?_, (congrArg State.timing served :),
        (congrArg State.comp served :), (congrArg State.tx served :), (congrArg State.tone served :),
        (congrArg (·.chan.apartReports) served :), (congrArg State.pending served :), (congrArg (·.arb.owed) served :)⟩,
        (congrArg State.jobs served :), congrArg LaneBlocks.store hhere⟩
      obtain ⟨htest, hrx, hrelay⟩ := hf (s.lane n)
      by_cases hi : i = n
      · rw [hi, hhere]
        exact ⟨htest, congrArg Receiver.judged hrx, hrelay⟩
      · rw [hother i hi]
        exact ⟨rfl, rfl, rfl⟩
    have hstore : ((written.modStore n LaneStore.segmentWritten).lane n).store = store.segmentWritten :=
      congrArg LaneBlocks.store (State.lane_modLane_same n _ written)
    refine ⟨fun hmore hwaits => ?_, fun hlast hwaits hopening => ?_, fun damaged dmax hlast hrest hopening hpending hrun => ?_⟩
    · have hseg := LaneStore.segmentWritten_more hbuffer hmore
      have waiting : (written.modStore n LaneStore.segmentWritten).commitIfDrained n
          = written.modStore n LaneStore.segmentWritten := by
        refine State.commitIfDrained_waiting ?_
        rw [hstore, hseg]
        refine hwaits.imp_right fun ⟨c, hc, htag⟩ => ?_
        obtain rfl | hc := List.mem_cons.1 hc
        · exact ⟨_, List.mem_cons_self, htag⟩
        · exact ⟨c, List.mem_cons_of_mem _ hc, htag⟩
      obtain ⟨hothers, -, hhere⟩ := frame (fun l => { l with store := l.store.segmentWritten }) fun _ => ⟨rfl, rfl, rfl⟩
      refine ⟨(written.modStore n LaneStore.segmentWritten).serve, (hexec.trans (hwhole h hin)).trans
        (congrArg (fun u : State => Host.Outcome.next u.serve) waiting), hothers, hhere.trans hseg⟩
    · have hseg := LaneStore.segmentWritten_last hbuffer hlast hopening
      have waiting : (written.modStore n LaneStore.segmentWritten).commitIfDrained n
          = written.modStore n LaneStore.segmentWritten := by
        refine State.commitIfDrained_waiting ?_
        rw [hstore, hseg]
        exact hwaits
      obtain ⟨hothers, hjobs, hhere⟩ := frame (fun l => { l with store := l.store.segmentWritten }) fun _ => ⟨rfl, rfl, rfl⟩
      exact ⟨(written.modStore n LaneStore.segmentWritten).serve, (hexec.trans (hwhole h hin)).trans
        (congrArg (fun u : State => Host.Outcome.next u.serve) waiting), hothers, hjobs, hhere.trans hseg⟩
    · have hseg := LaneStore.segmentWritten_last hbuffer hlast (by rw [hopening]; nofun)
      have committed : (written.modStore n LaneStore.segmentWritten).commitIfDrained n
          = written.modLane n fun l => ({ l with store := l.store.segmentWritten }).freeCommit slot := by
        have hcommit := State.commitIfDrained_drained (s := written.modStore n LaneStore.segmentWritten) (n := n)
          (p := ⟨slot, damaged, dmax, .acquiring⟩) (by rw [hstore, hseg]; exact hpending)
          (by rw [hstore, hseg, hrest]; nofun)
        refine hcommit.trans ((State.commit_unfit (n := n)
          (s := written.modStore n LaneStore.segmentWritten) damaged dmax (by rw [hstore, hseg]; exact hopening) hrun).trans ?_)
        exact State.modLane_modLane n _ _ written
      obtain ⟨hothers, hjobs, hhere⟩ := frame
        (fun l => ({ l with store := l.store.segmentWritten }).freeCommit slot) fun _ => ⟨rfl, rfl, rfl⟩
      refine ⟨_, (hexec.trans (hwhole h hin)).trans
        (congrArg (fun u : State => Host.Outcome.next u.serve) committed), hothers, hjobs, hhere.trans ?_⟩
      rw [← hrest]
      exact congrArg (fun st : LaneStore => { st with ring := st.ring.set slot none, pendingCommit := none }) hseg

end Sys2Proof.Machine

/-! SUPPORT. The close and the commit of a frame: its slot, its job, the deferred opening (R47, R49 to R51, R63, R88). -/

namespace Sys2Proof.Machine

/-! ### The deferred opening (R47) -/

theorem LaneStore.performDeferred_eq (st : LaneStore) : st.performDeferred = match st.opening with
    | .deferred number g damaged =>
      match ([0, 1, 2, 3] : List (Fin 4)).find? fun i => (st.ring.get i).isNone with
      | some i => { st with
        opening := .stored i, ring := st.ring.set i (some ⟨.filling, ⟨number, g, damaged, none⟩⟩) }
      | none => { st with opening := .unstored, buffer := st.buffer.dropWhile fun b => b.tag == .current }
    | _ => st := by
  unfold LaneStore.performDeferred
  cases st.opening with
  | unstored | closed | stored => rfl
  | deferred number g damaged =>
    have lowest : st.lowestFree = ([0, 1, 2, 3] : List (Fin 4)).find? fun i => (st.ring.get i).isNone := rfl
    dsimp only
    rw [LaneStore.give, lowest]
    cases ([0, 1, 2, 3] : List (Fin 4)).find? fun i => (st.ring.get i).isNone <;> rfl

/-- The lane's blocks after a commit, before the engine starts what it can. -/
def LaneBlocks.afterCommit (ring : Four (Option HeldSlot)) (dust : Dust) (counters : LaneCounters) (l : LaneBlocks) :
    LaneBlocks :=
  { l with
    rx := { l.rx with counters := counters }, dust := dust
    store := LaneStore.performDeferred { l.store with pendingCommit := none, ring := ring } }

/-! ### The commit (R49, R50) -/

section Commit

variable {n : Lane} {p : PendingCommit} {s : State}

/-- The state after a commit, before the engine starts what it can. -/
def State.committed (n : Lane) (ring : Four (Option HeldSlot)) (dust : Dust) (counters : LaneCounters) (jobs : List Job)
    (s : State) : State :=
  { s.modLane n (LaneBlocks.afterCommit ring dust counters) with jobs := jobs }

theorem State.commit_of_acquiring (hopened : p.openedIn = .acquiring) : s.commit n p
    = (s.committed n ((s.lane n).store.ring.set p.slot none) (s.lane n).dust.dropClosed (s.lane n).rx.counters
        s.jobs).startJobs := by
  unfold State.commit
  rw [hopened]
  dsimp only
  simp only [State.modStore, State.modDust, State.modLane_modLane]
  exact congrArg State.startJobs (State.modLane_congr rfl)

theorem State.commit_of_damaged (hopened : p.openedIn = .locked) (hdamaged : p.dmax < p.damaged) : s.commit n p
    = (s.committed n ((s.lane n).store.ring.set p.slot none) (s.lane n).dust.dropClosed
        { (s.lane n).rx.counters with framesDiscarded := count (s.lane n).rx.counters.framesDiscarded 1 } s.jobs).startJobs := by
  unfold State.commit
  rw [hopened]
  dsimp only
  rw [if_pos hdamaged]
  simp only [State.modStore, State.modDust, State.countDiscarded, State.modCounters, State.modRx, State.modLane_modLane]
  exact congrArg State.startJobs (State.modLane_congr rfl)

theorem State.modLane_withJobs (n : Lane) (f g : LaneBlocks → LaneBlocks) (jobs : List Job) (s : State) :
    ({ s.modLane n f with jobs := jobs } : State).modLane n g = { s.modLane n fun l => g (f l) with jobs := jobs } :=
  congrArg (fun u : State => { u with jobs := jobs }) (State.modLane_modLane n f g s)

section Fit

variable (hopened : p.openedIn = .locked) (hfit : p.damaged ≤ p.dmax)

include hopened hfit

theorem State.commit_of_fit : s.commit n p
    = (((s.modStore n fun st => { st with pendingCommit := none }).enqueue n p.slot).modStore n
        LaneStore.performDeferred).startJobs := by
  unfold State.commit
  rw [hopened]
  dsimp only
  rw [if_neg (Nat.not_lt.2 hfit)]

theorem State.commit_first (hown : s.laneJob n = none) : s.commit n p
    = (s.committed n ((s.lane n).store.ring.modify p.slot (Option.map fun h => { h with role := .conditioning }))
        (s.lane n).dust.promoteClosed (s.lane n).rx.counters
        (s.jobs ++ [⟨n, p.slot, ((s.lane n).store.record p.slot).elim 0 (·.number), none⟩])).startJobs := by
  have hown' : (s.modStore n fun st => { st with pendingCommit := none }).laneJob n = none := hown
  rw [State.commit_of_fit hopened hfit, State.enqueue, hown']
  dsimp only
  rw [State.lane_modStore_same]
  simp only [State.modStore, State.modDust, State.modLane_modLane, State.modLane_withJobs]
  exact congrArg (fun u : State => State.startJobs { u with jobs := _ }) (State.modLane_congr rfl)

theorem State.commit_replaces {j : Job} (hown : s.laneJob n = some j) (hqueued : j.run.isSome = false) : s.commit n p
    = (s.committed n (((s.lane n).store.ring.set j.slot none).modify p.slot
          (Option.map fun h => { h with role := .conditioning }))
        (s.lane n).dust.promoteClosed
        { (s.lane n).rx.counters with framesSkipped := count (s.lane n).rx.counters.framesSkipped 1 }
        (s.jobs.map fun k => if k.lane = n then ⟨n, p.slot, ((s.lane n).store.record p.slot).elim 0 (·.number), none⟩
          else k)).startJobs := by
  have hown' : (s.modStore n fun st => { st with pendingCommit := none }).laneJob n = some j := hown
  rw [State.commit_of_fit hopened hfit, State.enqueue, hown']
  dsimp only
  rw [State.lane_modStore_same, if_neg (by rw [hqueued]; exact Bool.false_ne_true)]
  simp only [State.modStore, State.modDust, State.countSkipped, State.modCounters, State.modRx, State.modLane_modLane,
    State.modLane_withJobs]
  exact congrArg (fun u : State => State.startJobs { u with jobs := _ }) (State.modLane_congr rfl)

theorem State.commit_skips {j : Job} (hown : s.laneJob n = some j) (hrun : j.run.isSome = true) : s.commit n p
    = (s.committed n ((s.lane n).store.ring.set p.slot none) (s.lane n).dust.dropClosed
        { (s.lane n).rx.counters with framesSkipped := count (s.lane n).rx.counters.framesSkipped 1 } s.jobs).startJobs := by
  have hown' : (s.modStore n fun st => { st with pendingCommit := none }).laneJob n = some j := hown
  rw [State.commit_of_fit hopened hfit, State.enqueue, hown']
  dsimp only
  rw [if_pos hrun]
  simp only [State.modStore, State.modDust, State.countSkipped, State.modCounters, State.modRx, State.modLane_modLane]
  exact congrArg State.startJobs (State.modLane_congr rfl)

end Fit

end Commit

end Sys2Proof.Machine

/-! SUPPORT. The commit as R49 and R50 state it, the close, and the commit that a last line brings. -/

namespace Sys2Proof.Machine

/-! ### The close (R49, R51) -/

section Close

variable {n : Lane} {s : State} (damaged dmax : Nat) (openedIn : OpenedIn)

theorem State.storeClose_stored {slot : Fin 4} (hopening : (s.lane n).store.opening = .stored slot) :
    let p : PendingCommit := ⟨slot, damaged, dmax, openedIn⟩
    let u := s.modLane n fun l => { l with
      store := { (s.lane n).store with
        pendingCommit := some p, opening := .closed
        buffer := (s.lane n).store.buffer.map fun b => { b with tag := .committing } }
      dust := { l.dust with closedSet := l.dust.gathering, gathering := none } }
    s.storeClose n damaged dmax openedIn = if (s.lane n).store.buffer = [] then u.commit n p else u := by
  intro p u
  have marked : (s.modDust n Dust.closeGathering).modStore n (LaneStore.markPending p) = u :=
    (State.modLane_modLane n _ _ s).trans (State.modLane_congr rfl)
  have hstore : (u.lane n).store = LaneStore.markPending p (s.lane n).store :=
    congrArg LaneBlocks.store (State.lane_modLane_same n _ s)
  have closed : s.storeClose n damaged dmax openedIn = u.commitIfDrained n := by
    rw [State.storeClose, hopening, ← marked]
  rw [closed]
  split
  · rename_i hempty
    refine State.commitIfDrained_drained (by rw [hstore]; rfl) ?_
    rw [hstore, LaneStore.markPending, hempty]
    nofun
  · rename_i hlines
    obtain ⟨b, rest, hb⟩ := List.exists_cons_of_ne_nil hlines
    refine State.commitIfDrained_waiting (.inr ⟨{ b with tag := .committing }, ?_, rfl⟩)
    rw [hstore, LaneStore.markPending, hb]
    exact List.mem_cons_self

theorem State.storeClose_closed (hopening : (s.lane n).store.opening = .closed) :
    s.storeClose n damaged dmax openedIn = s := by
  rw [State.storeClose, hopening]

theorem State.storeClose_unstored
    (hopening : (s.lane n).store.opening = .unstored ∨ ∃ number g list, (s.lane n).store.opening = .deferred number g list) :
    let cut := fun tr : Transfer => ((s.lane n).store.buffer.head?.any fun b => b.tag == .current) && tr.kind.writesLane n
    s.storeClose n damaged dmax openedIn = { s with
      arb := { s.arb with port := s.arb.port.map fun tr => { tr with live := tr.live && !cut tr } }
      lanes := s.lanes.modify n fun l => { l with
        store := { (s.lane n).store with
          opening := .closed, buffer := (s.lane n).store.buffer.filter fun b => b.tag != .current }
        dust := { l.dust with gathering := none }
        rx := { l.rx with counters := { l.rx.counters with
          framesDiscarded := if openedIn = .locked then min 4294967295 (l.rx.counters.framesDiscarded + 1)
            else l.rx.counters.framesDiscarded } } } } := by
  intro cut
  have closed : s.storeClose n damaged dmax openedIn = s.closeUnstored n openedIn := by
    rw [State.storeClose]
    obtain h | ⟨number, g, list, h⟩ := hopening <;> rw [h]
  have cleared := State.modLane_modLane n
    (fun l => { l with store := LaneStore.dropLines .current { l.store with opening := .closed } })
    (fun l => { l with dust := l.dust.dropGathering }) (s.discardHead n)
  rw [closed]
  cases openedIn with
  | acquiring =>
    refine cleared.trans ?_
    rw [State.discardHead_eq]
    exact State.modLane_congr (s := s.modArb _) rfl
  | locked =>
    refine (congrArg (State.countDiscarded n) cleared).trans ((State.modLane_modLane n _ _ _).trans ?_)
    rw [State.discardHead_eq]
    exact State.modLane_congr (s := s.modArb _) rfl

end Close

/-- Settles O43. -/
theorem commitsMakeJobs : Obligations.CommitsMakeJobs := by
  unfold Obligations.CommitsMakeJobs
  refine ⟨fun n p s => ?commit, fun n damaged dmax openedIn s => ⟨fun slot hopening =>
    State.storeClose_stored damaged dmax openedIn hopening, State.storeClose_closed damaged dmax openedIn,
    fun hopening => ?unstored⟩, ?lastLine⟩
  case commit =>
    intro store dust own fit taken freed ring job up u
    let counters : LaneCounters := { (s.lane n).rx.counters with
      framesDiscarded := if p.openedIn = .locked ∧ p.dmax < p.damaged then up (s.lane n).rx.counters.framesDiscarded
        else (s.lane n).rx.counters.framesDiscarded
      framesSkipped := if fit ∧ own.isSome = true then up (s.lane n).rx.counters.framesSkipped
        else (s.lane n).rx.counters.framesSkipped }
    have hu : u = s.committed n ring (if taken then dust.promoteClosed else dust.dropClosed) counters
        (if taken then if own.isSome = true then s.jobs.map fun k => if k.lane = n then job else k else s.jobs ++ [job]
          else s.jobs) := by
      have hstore := LaneStore.performDeferred_eq { store with pendingCommit := none, ring := ring }
      unfold u State.committed State.modLane
      refine congrArg (fun lanes => ({ s with lanes := lanes, jobs := _ } : State)) (Four.modify_congr ?_)
      exact congrArg (fun st => ({ s.lane n with rx := _, dust := _, store := st } : LaneBlocks)) hstore.symm
    have hcounters {a b : Nat} (ha : (if p.openedIn = .locked ∧ p.dmax < p.damaged then
          up (s.lane n).rx.counters.framesDiscarded else (s.lane n).rx.counters.framesDiscarded) = a)
        (hb : (if fit ∧ own.isSome = true then up (s.lane n).rx.counters.framesSkipped
          else (s.lane n).rx.counters.framesSkipped) = b) :
        counters = { (s.lane n).rx.counters with framesDiscarded := a, framesSkipped := b } :=
      congr_both (fun a b => { (s.lane n).rx.counters with framesDiscarded := a, framesSkipped := b }) ha hb
    have hnumber : ((s.lane n).store.record p.slot).elim 0 (·.number) = job.number := Option.elim_map _
    have hfreeing (h : ¬taken) : ring = store.ring.set p.slot none := if_neg h
    have hopened : p.openedIn = .acquiring ∨ p.openedIn = .locked := by
      cases p.openedIn
      · exact .inl rfl
      · exact .inr rfl
    rw [hu]
    rcases hopened with hopened | hopened
    case inl =>
      have hfit : ¬fit := fun h => OpenedIn.noConfusion (hopened.symm.trans h.1)
      have htaken : ¬taken := fun h => hfit h.1
      rw [State.commit_of_acquiring hopened, hfreeing htaken, if_neg htaken, if_neg htaken,
        hcounters (if_neg fun h => OpenedIn.noConfusion (hopened.symm.trans h.1)) (if_neg fun h => hfit h.1)]
    case inr =>
      by_cases hdamaged : p.dmax < p.damaged
      · have hfit : ¬fit := fun h => Nat.not_le.2 hdamaged h.2
        have htaken : ¬taken := fun h => hfit h.1
        rw [State.commit_of_damaged hopened hdamaged, hfreeing htaken, if_neg htaken, if_neg htaken,
          hcounters (if_pos ⟨hopened, hdamaged⟩) (if_neg fun h => hfit h.1)]
        rfl
      · have hle : p.damaged ≤ p.dmax := Nat.not_lt.1 hdamaged
        have hfit : fit := ⟨hopened, hle⟩
        have hkeeps : ¬(p.openedIn = .locked ∧ p.dmax < p.damaged) := fun h => hdamaged h.2
        cases hown : s.laneJob n with
        | none =>
          have hnone : own = none := hown
          have htaken : taken := ⟨hfit, by rw [hnone]; rfl⟩
          have hring : ring = store.ring.modify p.slot (Option.map fun h => { h with role := .conditioning }) := by
            refine (if_pos htaken).trans (congrArg (fun r => Four.modify r p.slot _) ?_)
            unfold freed
            rw [hnone]
          have hkept : ¬(own.isSome = true) := by rw [hnone]; exact Bool.false_ne_true
          rw [State.commit_first hopened hle hown, hring, if_pos htaken, if_pos htaken, if_neg hkept,
            hcounters (if_neg hkeeps) (if_neg fun h => hkept h.2), hnumber]
        | some j =>
          have hsome : own = some j := hown
          have hskips : own.isSome = true := by rw [hsome]; rfl
          cases hrun : j.run.isSome with
          | true =>
            have htaken : ¬taken := fun h => by
              have hidle := h.2
              rw [hsome] at hidle
              exact Bool.false_ne_true (hidle.symm.trans hrun)
            rw [State.commit_skips hopened hle hown hrun, hfreeing htaken, if_neg htaken, if_neg htaken,
              hcounters (if_neg hkeeps) (if_pos ⟨hfit, hskips⟩)]
            rfl
          | false =>
            have htaken : taken := ⟨hfit, by rw [hsome]; exact hrun⟩
            have hring : ring = (store.ring.set j.slot none).modify p.slot
                (Option.map fun h => { h with role := .conditioning }) := by
              refine (if_pos htaken).trans (congrArg (fun r => Four.modify r p.slot _) ?_)
              unfold freed
              rw [hsome]
            rw [State.commit_replaces hopened hle hown hrun, hring, if_pos htaken, if_pos htaken, if_pos hskips,
              hcounters (if_neg hkeeps) (if_pos ⟨hfit, hskips⟩), hnumber]
            rfl
  case unstored =>
    intro cut
    have hcut : (fun tr : Transfer => { tr with live := tr.live && !(((s.lane n).store.buffer.head?.any
        fun b => b.tag == .current) && tr.kind.writesLane n) }) = fun tr => { tr with live := tr.live && !cut tr } := by
      funext tr
      rcases tr with ⟨_ | _ | _ | _, _, _⟩ <;> rfl
    refine (State.storeClose_unstored damaged dmax openedIn hopening).trans ?_
    dsimp only
    rw [hcut]
  case lastLine =>
    intro m s n slot line k data due b rest p hport hdue hin hbuffer hlast hcurrent hpending hopening
    let address := segmentAddress n slot line k
    obtain ⟨-, -, hwhole⟩ := inDram_cases (addr := address) (bytes := data.length) (live := true)
      (.fault .dramAddress) (.next ((s.advance m).freePort.finishWrite n address data).serve)
      (.next (s.advance m).freePort.serve)
    have hseg := LaneStore.segmentWritten_last hbuffer hlast hopening
    let written : State := { (s.advance m).freePort with dram := Memory.writeRun address data s.dram }
    have hleft : written.modStore n LaneStore.segmentWritten
        = written.modLane n fun l => { l with store := { l.store with buffer := rest } } :=
      State.modLane_congr (congrArg (fun st => { s.lane n with store := st }) hseg)
    have hstore : ((written.modStore n LaneStore.segmentWritten).lane n).store = { (s.lane n).store with buffer := rest } := by
      rw [hleft, State.lane_modLane_same]
      rfl
    have hcommit := State.commitIfDrained_drained (s := written.modStore n LaneStore.segmentWritten) (n := n) (p := p)
      (by rw [hstore]; exact hpending) (by rw [hstore]; exact hcurrent)
    refine ⟨_, (exec_laneWriteComplete hport hdue).trans (hwhole rfl hin), ?_⟩
    rw [State.dram_finishWrite]
    exact congrArg State.serve (hcommit.trans (congrArg (State.commit n p) hleft))

end Sys2Proof.Machine

/-! SUPPORT. The completions of a fetch and of a conditioning read (R58, R60, R66). -/

namespace Sys2Proof.Machine

theorem State.finishFetch_held {line : Nat} {item : FetchItem} {got : List Fetched} {s : State} (data : List Byte)
    (h : s.readBuffer.place line = .filling line got) : s.finishFetch line item data = { s with
      readBuffer := s.readBuffer.put line (.filling line (got ++ [⟨item.window, item.segment, data⟩])) } := by
  rw [State.finishFetch, h]
  exact if_pos rfl

/-- A running job has an anchor to search exactly when it names one. -/
theorem RunningJob.searching_of_current {r : RunningJob} {i : Nat} {a : Anchor} (h : r.current = some (i, a)) :
    r.searching = true := by
  unfold RunningJob.current at h
  cases hfind : r.verdicts.findIdx? (· == .toSearch) with
  | none =>
    rw [hfind] at h
    cases h
  | some k =>
    obtain ⟨hk, heq, -⟩ := List.findIdx?_eq_some_iff_getElem.1 hfind
    exact List.any_eq_true.2 ⟨_, List.getElem_mem hk, heq⟩

/-- A segment that is not the anchor's last waits for the next (R66, R74). -/
theorem State.takeRead_more {s : State} {j : Job} {rest : List Job} {run : RunningJob} {i : Nat} {a : Anchor}
    (data : List Byte) (hjobs : s.jobs = j :: rest) (hrun : j.run = some run) (hcurrent : run.current = some (i, a))
    (hmore : run.got.length + 1 < 32 + 2 * run.settings.sy) :
    s.takeRead data = { s with jobs := { j with run := some { run with got := run.got ++ [data] } } :: rest } := by
  have taken (current reference : List Nat) : run.take data current reference = { run with got := run.got ++ [data] } := by
    rw [RunningJob.take, hcurrent]
    refine if_pos ?_
    rw [List.length_append]
    exact hmore
  have searching : ({ run with got := run.got ++ [data] } : RunningJob).searching = true :=
    RunningJob.searching_of_current (r := run) hcurrent
  rw [State.takeRead, hjobs]
  dsimp only
  rw [hrun]
  dsimp only
  rw [taken]
  exact if_pos searching

/-- Settles O44. -/
theorem portReadsComplete : Obligations.PortReadsComplete := by
  unfold Obligations.PortReadsComplete
  intro m s due live hdue freed address bytes
  refine ⟨fun line f hport => ?fetch, fun n slot line k length hport => ?read⟩
  case fetch =>
    intro from_
    obtain ⟨hdiscarded, hfault, hwhole⟩ := inDram_cases (addr := from_) (bytes := f.bytes) (live := live)
      (.fault .dramAddress) (.next ((s.advance m).freePort.finishFetch line f (Memory.readRun from_ f.bytes s.dram)).serve)
      (.next (s.advance m).freePort.serve)
    have hexec := exec_compositorFetchComplete hport hdue
    refine ⟨fun h => hexec.trans (hdiscarded h), fun h hout => hexec.trans (hfault h hout), fun h hin got hplace => ?_⟩
    intro held t
    have hfetched := State.finishFetch_held (s := (s.advance m).freePort) (item := f) (bytes from_ f.bytes) hplace
    refine ⟨(hexec.trans (hwhole h hin)).trans (congrArg (fun u : State => Host.Outcome.next u.serve) ?_),
      (congrArg Root.dram (State.root_serve _) :)⟩
    rw [Memory.readRun_eq]
    exact hfetched
  case read =>
    intro from_
    obtain ⟨hdiscarded, hfault, hwhole⟩ := inDram_cases (addr := from_) (bytes := length) (live := live)
      (.fault .dramAddress) (.next ((s.advance m).freePort.takeRead (Memory.readRun from_ length s.dram)).serve)
      (.next (s.advance m).freePort.serve)
    have hexec := exec_conditioningReadComplete hport hdue
    refine ⟨fun h => hexec.trans (hdiscarded h), fun h hout => hexec.trans (hfault h hout), fun h hin =>
      ⟨_, hexec.trans (hwhole h hin), ?_, ?_, ?_⟩, fun h hin j rest run i a hjobs hrun hcurrent hmore => ?_⟩
    · exact (congrArg Root.dram (State.root_serve _) :).trans (congrArg Root.dram (State.root_takeRead _ _) :)
    · exact (State.timing_serve _).trans ((keeps_timing _).takeRead _ rfl)
    · exact (State.pending_serve _).trans (State.pending_takeRead _ _)
    · have htaken := State.takeRead_more (s := (s.advance m).freePort) (bytes from_ length) hjobs hrun hcurrent hmore
      refine (hexec.trans (hwhole h hin)).trans (congrArg (fun u : State => Host.Outcome.next u.serve) ?_)
      rw [Memory.readRun_eq]
      exact htaken

end Sys2Proof.Machine

/-! SUPPORT. The search of an anchor: SAD, tie-break and contrast (R74 to R77). -/

namespace Sys2Proof.Machine

/-! ### Rows of luma (R74, R75) -/

theorem map_take_drop {α β : Type} {l : List α} {a n : Nat} (d : α) (f : α → β) (h : a + n ≤ l.length) :
    ((l.drop a).take n).map f = (List.range n).map fun i => f (l.getD (a + i) d) := by
  refine List.ext_getElem (by simp; omega) fun i hi hi' => ?_
  have hin : a + i < l.length := by
    simp at hi'
    omega
  simp [List.getElem?_eq_getElem hin]

theorem rowSad_map (f g : Nat → Nat) (n : Nat) : rowSad ((List.range n).map f) ((List.range n).map g)
    = ((List.range n).map fun i => ((f i : Int) - g i).natAbs).sum := by
  simp only [rowSad, List.zipWith_map, List.zipWith_self, absDiff_eq]

theorem patchRows_eq (col : Nat) {got : List (List Byte)} (hgot : 16 ≤ got.length) : patchRows col got =
    (List.range 16).map fun y => lumaRun (got.getD y []) (64 * (col % 4) + 24) 16 := by
  have rows := map_take_drop (l := got) (a := 0) (n := 16) [] (fun seg => lumaRun seg (64 * (col % 4) + 24) 16)
    (by omega)
  simp only [List.drop_zero, Nat.zero_add] at rows
  exact rows

/-- The SAD of a candidate within the window that has been read, pixel by pixel. -/
theorem candidateSad_eq {col sy : Nat} {got : List (List Byte)} {dx dy : Int} (hgot : 32 + 2 * sy ≤ got.length)
    (hdy : dy.natAbs ≤ sy) :
    let luma := fun (row x : Nat) => (((got.getD row []).getD (2 * x) 0).toNat : Int)
    let left := 64 * (col % 4) + 24
    candidateSad col sy got dx dy = ((List.range 16).map fun y => ((List.range 16).map fun x =>
      (luma y (left + x) - luma (16 + ((sy : Int) - dy).toNat + y) (((left : Int) - dx).toNat + x)).natAbs).sum).sum := by
  intro luma left
  have block : blockRows col sy got dx dy = (List.range 16).map fun y =>
      lumaRun (got.getD (16 + ((sy : Int) - dy).toNat + y) []) ((left : Int) - dx).toNat 16 := by
    rw [blockRows, List.drop_drop]
    exact map_take_drop [] (fun seg => lumaRun seg ((left : Int) - dx).toNat 16) (by omega)
  rw [candidateSad, patchRows_eq col (by omega), block, List.zipWith_map, List.zipWith_self]
  simp only [lumaRun, rowSad_map]
  rfl

theorem contrastOf_eq {col : Nat} {got : List (List Byte)} (hgot : 16 ≤ got.length) :
    let luma := fun (row x : Nat) => (((got.getD row []).getD (2 * x) 0).toNat : Int)
    let left := 64 * (col % 4) + 24
    contrastOf (patchRows col got) = ((List.range 16).map fun y => ((List.range 15).map fun x =>
      (luma y (left + x + 1) - luma y (left + x)).natAbs).sum).sum := by
  intro luma left
  have row (seg : List Byte) : rowSad ((lumaRun seg left 16).drop 1) ((lumaRun seg left 16).take 15)
      = ((List.range 15).map fun x => ((lumaAt seg (left + x + 1) : Int) - lumaAt seg (left + x)).natAbs).sum := by
    have later : (lumaRun seg left 16).drop 1 = (List.range 15).map fun x => lumaAt seg (left + x + 1) := by
      rw [lumaRun, List.range_succ_eq_map, List.map_cons, List.drop_succ_cons, List.drop_zero, List.map_map]
      rfl
    have earlier : (lumaRun seg left 16).take 15 = (List.range 15).map fun x => lumaAt seg (left + x) := by
      rw [lumaRun, List.range_succ, List.map_append]
      exact List.take_left' (by rw [List.length_map, List.length_range])
    rw [later, earlier, rowSad_map]
  rw [contrastOf, patchRows_eq col hgot, List.map_map]
  exact congrArg List.sum (List.map_congr_left fun y _ => row (got.getD y []))

/-! ### The candidates and the best of them (R75, R76) -/

theorem mem_offsets {r : Nat} {d : Int} : d ∈ offsets r ↔ d.natAbs ≤ r := by
  simp only [offsets, List.mem_map, List.mem_range]
  constructor
  · rintro ⟨i, hi, rfl⟩
    omega
  · intro h
    exact ⟨(d + r).toNat, by omega, by omega⟩

theorem mem_candidates {sx sy : Nat} {dx dy : Int} :
    (dx, dy) ∈ candidates sx sy ↔ dx.natAbs ≤ sx ∧ dy.natAbs ≤ sy := by
  simp only [candidates, List.mem_flatMap, List.mem_map, Prod.mk.injEq, mem_offsets]
  constructor
  · rintro ⟨y, hy, x, hx, rfl, rfl⟩
    exact ⟨hx, hy⟩
  · rintro ⟨hx, hy⟩
    exact ⟨dy, hy, dx, hx, rfl, rfl⟩

/-- What R76 compares, in its order. -/
def Scored.Before (a b : Scored) : Prop := a.sad < b.sad
    ∨ (a.sad = b.sad ∧ (a.dx.natAbs + a.dy.natAbs < b.dx.natAbs + b.dy.natAbs
      ∨ (a.dx.natAbs + a.dy.natAbs = b.dx.natAbs + b.dy.natAbs ∧ (a.dy.natAbs < b.dy.natAbs
        ∨ (a.dy.natAbs = b.dy.natAbs ∧ (a.dy < b.dy ∨ (a.dy = b.dy ∧ a.dx < b.dx)))))))

theorem Scored.better_iff {a b : Scored} : a.better b = true ↔ a.Before b := by
  unfold Scored.better Scored.Before
  repeat' split
  all_goals
    rw [decide_eq_true_eq]
    omega

theorem Scored.Before.trans {a b c : Scored} (hab : a.Before b) (hbc : b.Before c) : a.Before c := by
  unfold Scored.Before at *
  omega

theorem Scored.before_or_eq_of_not_before {a b : Scored} (h : ¬b.Before a) : a = b ∨ a.Before b := by
  by_cases hsame : a.sad = b.sad ∧ a.dx = b.dx ∧ a.dy = b.dy
  · obtain ⟨dx, dy, sad⟩ := a
    obtain ⟨rfl, rfl, rfl⟩ := hsame
    exact .inl rfl
  · refine .inr ?_
    unfold Scored.Before at *
    omega

/-- The best of a list is one of it, and every other one is worse. -/
theorem pickBest_spec (best : Scored) (l : List Scored) :
    pickBest best l ∈ best :: l ∧ ∀ c ∈ best :: l, pickBest best l = c ∨ (pickBest best l).Before c := by
  induction l generalizing best with
  | nil => exact ⟨List.mem_cons_self, fun c hc => .inl (List.mem_singleton.1 hc).symm⟩
  | cons d l ih =>
    show pickBest (if d.better best then d else best) l ∈ _
      ∧ ∀ c ∈ _, pickBest (if d.better best then d else best) l = c ∨ (pickBest (if d.better best then d else best) l).Before c
    by_cases h : d.better best = true
    · rw [if_pos h]
      obtain ⟨hmem, hmin⟩ := ih d
      refine ⟨List.mem_cons_of_mem _ hmem, fun c hc => ?_⟩
      obtain rfl | hc := List.mem_cons.1 hc
      · have hd := Scored.better_iff.1 h
        exact .inr ((hmin d List.mem_cons_self).elim (fun heq => heq.symm ▸ hd) (·.trans hd))
      · exact hmin c hc
    · rw [if_neg h]
      obtain ⟨hmem, hmin⟩ := ih best
      have hd := Scored.before_or_eq_of_not_before fun hlt => h (Scored.better_iff.2 hlt)
      refine ⟨?_, fun c hc => ?_⟩
      · obtain heq | hl := List.mem_cons.1 hmem
        · rw [heq]
          exact List.mem_cons_self
        · exact List.mem_cons_of_mem _ (List.mem_cons_of_mem _ hl)
      · obtain rfl | hc := List.mem_cons.1 hc
        · exact hmin _ List.mem_cons_self
        · obtain rfl | hc := List.mem_cons.1 hc
          · obtain rfl | hd := hd
            · exact hmin _ List.mem_cons_self
            · exact .inr ((hmin best List.mem_cons_self).elim (fun heq => heq.symm ▸ hd) (·.trans hd))
          · exact hmin c (List.mem_cons_of_mem _ hc)

/-- The search finds a candidate, with its SAD, that every other one is worse than. -/
theorem searchAnchor_best (col : Nat) (k : Stabilizer) (got : List (List Byte)) :
    let best := searchAnchor col k got
    let scored := fun dx dy => (⟨dx, dy, candidateSad col k.sy got dx dy⟩ : Scored)
    (best.dx.natAbs ≤ k.sx ∧ best.dy.natAbs ≤ k.sy) ∧ best.sad = candidateSad col k.sy got best.dx best.dy
      ∧ ∀ dx dy, dx.natAbs ≤ k.sx ∧ dy.natAbs ≤ k.sy → (dx, dy) ≠ (best.dx, best.dy) →
        (scored best.dx best.dy).Before (scored dx dy) := by
  intro best scored
  let all := (candidates k.sx k.sy).map fun c => scored c.1 c.2
  obtain ⟨hmem, hmin⟩ := pickBest_spec (scored 0 0) all
  have listed {c : Scored} (hc : c ∈ scored 0 0 :: all) :
      (c.dx.natAbs ≤ k.sx ∧ c.dy.natAbs ≤ k.sy) ∧ c = scored c.dx c.dy := by
    obtain rfl | hc := List.mem_cons.1 hc
    · exact ⟨⟨Nat.zero_le _, Nat.zero_le _⟩, rfl⟩
    · obtain ⟨⟨dx, dy⟩, hin, rfl⟩ := List.mem_map.1 hc
      exact ⟨mem_candidates.1 hin, rfl⟩
  obtain ⟨hinside, hscore⟩ := listed hmem
  refine ⟨hinside, congrArg Scored.sad hscore, fun dx dy hin hne => ?_⟩
  have hcandidate : scored dx dy ∈ scored 0 0 :: all :=
    List.mem_cons_of_mem _ (List.mem_map.2 ⟨(dx, dy), mem_candidates.2 hin, rfl⟩)
  exact hscore ▸ (hmin _ hcandidate).resolve_left fun hsame =>
    hne (Prod.ext (congrArg Scored.dx hsame).symm (congrArg Scored.dy hsame).symm)

end Sys2Proof.Machine

/-! SUPPORT. The last read of an anchor: its search, its judgement and what follows (R66, R78). -/

namespace Sys2Proof.Machine

theorem RunningJob.current_of {r : RunningJob} {i : Nat} {a : Anchor}
    (hfind : r.verdicts.findIdx? (· == .toSearch) = some i) (hanchor : r.anchors[i]? = some a) :
    r.current = some (i, a) := by
  rw [RunningJob.current, hfind]
  dsimp only
  rw [hanchor]
  rfl

theorem RunningJob.searching_iff {r : RunningJob} : r.searching = true ↔ AnchorVerdict.toSearch ∈ r.verdicts := by
  simp only [RunningJob.searching, List.any_eq_true, beq_iff_eq]
  exact ⟨fun ⟨_, hx, heq⟩ => heq ▸ hx, fun h => ⟨_, h, rfl⟩⟩

/-- An anchor's last read makes its search and its judgement (R74, R78). -/
theorem State.takeRead_last {s : State} {j : Job} {rest : List Job} {run : RunningJob} {i : Nat} {a : Anchor}
    (data : List Byte) (hjobs : s.jobs = j :: rest) (hrun : j.run = some run) (hcurrent : run.current = some (i, a))
    (hlast : 32 + 2 * run.settings.sy ≤ run.got.length + 1) :
    let store := (s.lane j.lane).store
    let damaged := fun i : Option (Fin 4) => ((i.bind store.record).map (·.damaged)).getD []
    let best := searchAnchor a.col run.settings (run.got ++ [data])
    let after : RunningJob := { run with
      got := []
      verdicts := run.verdicts.set i (.done (judgeAnchor a.row run.settings (damaged (some j.slot))
        (damaged run.reference) best) best) }
    let u : State := { s with jobs := { j with run := some after } :: rest }
    s.takeRead data = if AnchorVerdict.toSearch ∈ after.verdicts then u else u.completeJob.startJobs := by
  intro store damaged best after u
  have taken : run.take data (damaged (some j.slot)) (damaged run.reference) = after := by
    rw [RunningJob.take, hcurrent]
    refine if_neg ?_
    rw [List.length_append]
    exact Nat.not_lt.2 hlast
  rw [State.takeRead, hjobs]
  dsimp only
  rw [hrun]
  exact (congrArg (fun r : RunningJob => if r.searching then ({ s with jobs := { j with run := some r } :: rest } : State)
    else ({ s with jobs := { j with run := some r } :: rest } : State).completeJob.startJobs) taken).trans
    (ite_of_iff RunningJob.searching_iff rfl rfl)

/-- Settles O45. -/
theorem anchorsAreSearched : Obligations.AnchorsAreSearched := by
  unfold Obligations.AnchorsAreSearched
  intro m s n slot line k length due j rest run i a from_ hport hdue hin hjobs hrun hfind hanchor hlast got luma left block
    sad contrast inside store damaged hurt
  have hgot : 32 + 2 * run.settings.sy ≤ got.length := by
    unfold got
    rw [List.length_append]
    exact hlast
  have hsad (dx dy : Int) (h : inside dx dy) : candidateSad a.col run.settings.sy got dx dy = sad dx dy :=
    candidateSad_eq hgot h.2
  obtain ⟨hinside, hscore, hbest⟩ := searchAnchor_best a.col run.settings got
  refine ⟨searchAnchor a.col run.settings got, hinside, hscore.trans (hsad _ _ hinside), contrastOf_eq (by omega),
    fun dx dy h hne => ?_, ?_⟩
  · have hlt := hbest dx dy h hne
    dsimp only [Scored.Before] at hlt
    rw [← hscore, hsad dx dy h] at hlt
    exact hlt
  · intro outcome after u
    obtain ⟨-, -, hwhole⟩ := inDram_cases (addr := from_) (bytes := length) (live := true)
      (.fault .dramAddress) (.next ((s.advance m).freePort.takeRead (Memory.readRun from_ length s.dram)).serve)
      (.next (s.advance m).freePort.serve)
    have htaken := State.takeRead_last (s := (s.advance m).freePort) ((List.range length).map fun i =>
      Memory.read (from_ + i) s.dram) hjobs hrun (RunningJob.current_of hfind hanchor) hlast
    have hdamaged (i : Option (Fin 4)) : ((i.bind store.record).map (·.damaged)).getD [] = i.elim [] damaged := by
      cases i with
      | none => rfl
      | some i =>
        show (((store.ring.get i).map (·.record)).map (·.damaged)).getD [] = (store.ring.get i).elim [] (·.record.damaged)
        cases store.ring.get i <;> rfl
    have houtcome : judgeAnchor a.row run.settings (((some j.slot).bind store.record |>.map (·.damaged)).getD [])
        ((run.reference.bind store.record |>.map (·.damaged)).getD []) (searchAnchor a.col run.settings got) = outcome := by
      rw [hdamaged, hdamaged]
      refine ite_of_iff (iff_of_eq (congrArg (· = true) ?_)) rfl rfl
      unfold hurt
      rw [List.any_append, List.any_append, ← Bool.or_assoc]
      rfl
    refine ((exec_conditioningReadComplete hport hdue).trans (hwhole rfl hin)).trans
      (congrArg Host.Outcome.next ?_)
    rw [Memory.readRun_eq]
    have hjudged : ({ run with
        got := []
        verdicts := run.verdicts.set i (.done (judgeAnchor a.row run.settings
          (((some j.slot).bind store.record |>.map (·.damaged)).getD [])
          ((run.reference.bind store.record |>.map (·.damaged)).getD []) (searchAnchor a.col run.settings got))
            (searchAnchor a.col run.settings got)) } : RunningJob) = after :=
      congrArg (fun o => ({ run with
        got := [], verdicts := run.verdicts.set i (.done o (some (searchAnchor a.col run.settings got))) } : RunningJob)) houtcome
    have hended := htaken.trans (congrArg (fun r : RunningJob => if AnchorVerdict.toSearch ∈ r.verdicts then
        ({ (s.advance m).freePort with jobs := { j with run := some r } :: rest } : State)
      else ({ (s.advance m).freePort with jobs := { j with run := some r } :: rest } : State).completeJob.startJobs) hjudged)
    exact (congrArg State.serve hended).trans (apply_ite State.serve _ _ _)

end Sys2Proof.Machine

/-! SUPPORT. The start of conditioning jobs (R63, R65, R66, R72, R73, R90). -/

namespace Sys2Proof.Machine

/-! ### The reference (R45, R65) -/

theorem LaneStore.referenceSlot_eq (st : LaneStore) : st.referenceSlot = (st.slotOf .ready).or (st.slotOf .showing) := by
  unfold LaneStore.referenceSlot
  cases st.slotOf .ready <;> rfl

/-! ### The jitter state and the anchors at the start (R65, R73) -/

theorem Motion.atStart_eq (hasReference : Bool) (k : Motion) :
    let limit : Int := 16 * k.settings.jmax
    let within := fun d : Int => if hasReference = false then 0 else max (-limit) (min limit d)
    k.atStart hasReference = { k with jitterX := within k.jitterX, jitterY := within k.jitterY } := by
  intro limit within
  have hlimit : ((16 * k.settings.jmax : Nat) : Int) = limit := by push_cast; rfl
  have hclamp (d : Int) : clampInt (-limit) limit d = max (-limit) (min limit d) := clampInt_eq (by omega)
  cases hasReference with
  | false => rfl
  | true =>
    unfold Motion.atStart
    simp only [hlimit, hclamp]
    rfl

theorem anchorVerdict_eq (g : Geometry) (classes : List TileClass) (a : Anchor) : anchorVerdict g classes a =
    if a.enabled = false then .done .disabled none
    else if g.w / 64 ≤ a.col ∨ g.h / 32 ≤ a.row then .done .outside none
    else if ((classes[a.row * (g.w / 64) + a.col]?).any fun c => c.record.initialised && c.record.state == .clear) = true
      then .toSearch
    else .done .notClear none := by
  unfold anchorVerdict
  refine ite_of_iff (by rw [Bool.not_eq_true']) rfl (ite_of_iff (by rw [Bool.or_eq_true, decide_eq_true_eq, decide_eq_true_eq])
    rfl ?_)
  cases classes[a.row * (g.w / 64) + a.col]? <;> rfl

/-! ### The start of the head job (R63, R66) -/

theorem State.jobs_completeJob {s : State} {j : Job} {rest : List Job} {run : RunningJob} (hs : s.jobs = j :: rest)
    (hrun : j.run = some run) : s.completeJob.jobs = rest := by
  obtain ⟨f, hf⟩ := State.completeJob_of hs hrun
  rw [hf]
  exact (State.same_purgeEvent _ _ f).jobs

/-- The head of the queue starts; it completes in the same event when it has no anchor to search, and the next starts. -/
theorem State.startJobs_next {s : State} {j : Job} {rest : List Job} (hs : s.jobs = j :: rest) (hrun : j.run = none) :
    s.startJobs = if ((s.lane j.lane).startRun j.slot).searching then s.beginJob j
      else (s.beginJob j).completeJob.startJobs := by
  have begun : (s.beginJob j).jobs = { j with run := some ((s.lane j.lane).startRun j.slot) } :: rest := by
    show _ :: s.jobs.drop 1 = _
    rw [hs]
    rfl
  have idle : ¬j.run.isSome = true := by rw [hrun]; exact Bool.false_ne_true
  rw [State.startJobs, hs, List.length_cons, State.runJobs, hs]
  dsimp only
  rw [if_neg idle, begun]
  refine ite_of_iff Iff.rfl rfl ?_
  rw [State.startJobs, State.jobs_completeJob begun rfl]

/-- The run that a job takes at its start, from its slot's record and its statistics. -/
theorem LaneBlocks.startRun_eq {l : LaneBlocks} {slot : Fin 4} {h : HeldSlot} {set : StatSet}
    (hslot : l.store.ring.get slot = some h) (hset : l.dust.jobSet = some set) :
    let reference := if l.motion.referenceValid then (l.store.slotOf .ready).or (l.store.slotOf .showing) else none
    let classes := classify l.dust.settings set l.dust.table
    l.startRun slot = {
      anchors := l.motion.anchors, settings := l.motion.settings, dust := l.dust.settings
      asoil := l.purge.settings.asoil, frozen := l.purge.freezes, reference := reference
      classes := if l.purge.freezes then none else some classes
      verdicts := l.motion.anchors.map fun a =>
        if l.purge.freezes = true ∨ reference = none then .done .notEvaluated none
        else anchorVerdict h.record.geometry classes a
      got := [] } := by
  intro reference classes
  have hrecord : l.store.record slot = some h.record := by rw [LaneStore.record, hslot]; rfl
  have evaluated (a : Anchor) : (if (!l.purge.freezes && reference.isSome) = true then
        anchorVerdict h.record.geometry ((if l.purge.freezes then none else some classes).getD []) a
      else .done .notEvaluated none)
      = if l.purge.freezes = true ∨ reference = none then .done .notEvaluated none
        else anchorVerdict h.record.geometry classes a := by
    cases l.purge.freezes with
    | true => exact (if_neg Bool.false_ne_true).trans (if_pos (.inl rfl)).symm
    | false =>
      cases reference with
      | none => exact (if_neg Bool.false_ne_true).trans (if_pos (.inr rfl)).symm
      | some i => exact (if_pos rfl).trans (if_neg (by simp)).symm
  rw [LaneBlocks.startRun, hrecord, hset, LaneStore.referenceSlot_eq]
  exact congrArg (fun f => ({
      anchors := l.motion.anchors, settings := l.motion.settings, dust := l.dust.settings
      asoil := l.purge.settings.asoil, frozen := l.purge.freezes, reference := reference
      classes := if l.purge.freezes then none else some classes, verdicts := l.motion.anchors.map f
      got := [] } : RunningJob)) (funext evaluated)

/-- Settles O46. -/
theorem jobsStart : Obligations.JobsStart := by
  unfold Obligations.JobsStart
  refine ⟨fun s => ?started, fun s h => State.startJobs_of_running h, fun s j rest h set => ?first⟩
  case started =>
    intro j hj
    exact State.headRuns_runJobs (Nat.le_refl _) j (by rwa [List.take_one, Option.mem_toList])
  case first =>
    intro l hjobs hrun hslot hset holding reference frozen columns classes g clear judged run limit within u
    have hreference : (if l.motion.referenceValid then (l.store.slotOf .ready).or (l.store.slotOf .showing) else none)
        = reference := by
      rw [LaneStore.slotOf_eq_find, LaneStore.slotOf_eq_find]
      rfl
    have hjudged (a : Anchor) : (if l.purge.freezes = true ∨ reference = none then .done .notEvaluated none
        else anchorVerdict g classes a) = judged a := ite_of_iff Iff.rfl rfl (anchorVerdict_eq g classes a)
    have hstart : l.startRun j.slot = run := by
      have hrun := LaneBlocks.startRun_eq hslot hset
      dsimp only at hrun
      rw [hreference] at hrun
      exact hrun.trans (congrArg (fun f => ({
        anchors := l.motion.anchors, settings := l.motion.settings, dust := l.dust.settings
        asoil := l.purge.settings.asoil, frozen := frozen, reference := reference
        classes := if frozen then none else some classes, verdicts := l.motion.anchors.map f, got := [] } : RunningJob))
        (funext hjudged))
    have hwithin (d : Int) : (if reference.isSome = false then 0 else max (-limit) (min limit d)) = within d :=
      ite_of_iff (by rw [Option.isSome_eq_false_iff, Option.isNone_iff_eq_none]) rfl rfl
    have hmotion : Motion.atStart (l.startRun j.slot).reference.isSome l.motion
        = { l.motion with jitterX := within l.motion.jitterX, jitterY := within l.motion.jitterY } := by
      rw [hstart]
      exact (Motion.atStart_eq reference.isSome l.motion).trans
        (congr_both (fun x y => { l.motion with jitterX := x, jitterY := y }) (hwithin _) (hwithin _))
    have hbegin : s.beginJob j = u := by
      have hrest : s.jobs.drop 1 = rest := by rw [hjobs]; rfl
      have hlane : s.modMotion j.lane (Motion.atStart (l.startRun j.slot).reference.isSome)
          = s.modLane j.lane fun k => { k with motion := { k.motion with
            jitterX := within k.motion.jitterX, jitterY := within k.motion.jitterY } } :=
        State.modLane_congr (congrArg (fun k => { l with motion := k }) hmotion)
      exact congr_both (fun (v : State) jobs => { v with jobs := jobs }) hlane
        (congr_both (fun r more => ({ j with run := some r } : Job) :: more) hstart hrest)
    rw [State.startJobs_next hjobs hrun, hbegin]
    refine ite_of_iff ?_ rfl rfl
    rw [RunningJob.searching_iff]
    exact iff_of_eq (congrArg (fun r : RunningJob => AnchorVerdict.toSearch ∈ r.verdicts) hstart)

end Sys2Proof.Machine

/-! SUPPORT. What a job's completion computes: measurement, filter, tiles, band (R79 to R81, R97 to R99). -/

namespace Sys2Proof.Machine

/-! ### The measurement (R79) -/

theorem perm_insertSorted (x : Int) (l : List Int) : (insertSorted x l).Perm (x :: l) := by
  induction l with
  | nil => exact .refl _
  | cons y ys ih =>
    rw [insertSorted]
    split
    · exact .refl _
    · exact (ih.cons y).trans (.swap x y ys)

theorem pairwise_insertSorted (x : Int) {l : List Int} (h : l.Pairwise (· ≤ ·)) : (insertSorted x l).Pairwise (· ≤ ·) := by
  induction l with
  | nil => exact List.pairwise_singleton _ x
  | cons y ys ih =>
    obtain ⟨hy, hys⟩ := List.pairwise_cons.1 h
    rw [insertSorted]
    split
    · rename_i hxy
      exact List.pairwise_cons.2 ⟨List.forall_mem_cons.2 ⟨hxy, fun z hz => Int.le_trans hxy (hy z hz)⟩, h⟩
    · rename_i hxy
      refine List.pairwise_cons.2 ⟨fun z hz => ?_, ih hys⟩
      obtain rfl | hz := List.mem_cons.1 ((perm_insertSorted x ys).mem_iff.1 hz)
      · omega
      · exact hy z hz

/-- Both sort ascending, and a sorted list of integers is determined by its entries. -/
theorem sortInts_eq (l : List Int) : sortInts l = l.mergeSort fun a b => decide (a ≤ b) := by
  have sorted : (sortInts l).Perm l ∧ (sortInts l).Pairwise (· ≤ ·) := by
    induction l with
    | nil => exact ⟨.refl _, .nil⟩
    | cons x xs ih =>
      obtain ⟨perm, pairwise⟩ := ih
      exact ⟨(perm_insertSorted x _).trans (perm.cons x), pairwise_insertSorted x pairwise⟩
  have merged := List.pairwise_mergeSort (le := fun a b : Int => decide (a ≤ b))
    (fun a b c hab hbc => decide_eq_true (Int.le_trans (of_decide_eq_true hab) (of_decide_eq_true hbc)))
    (fun a b => by rw [Bool.or_eq_true, decide_eq_true_eq, decide_eq_true_eq]; exact Int.le_total a b) l
  exact List.Perm.eq_of_pairwise (fun a b _ _ => Int.le_antisymm) sorted.2 (merged.imp of_decide_eq_true)
    (sorted.1.trans (List.mergeSort_perm l _).symm)

theorem lowerMedian_eq (l : List Int) :
    lowerMedian l = (l.mergeSort fun a b => decide (a ≤ b)).getD ((l.length - 1) / 2) 0 := by
  rw [lowerMedian, sortInts_eq]

theorem RunningJob.measurement_eq (r : RunningJob) : r.measurement =
    if r.frozen = true ∨ r.reference = none then ⟨.void, 0, 0, 0⟩
    else
      let accepted := acceptedMeasures r.verdicts
      if r.settings.nmin ≤ accepted.length then
        ⟨.valid, accepted.length, lowerMedian (accepted.map (·.dx)), lowerMedian (accepted.map (·.dy))⟩
      else ⟨.void, accepted.length, 0, 0⟩ :=
  ite_of_iff (by rw [Bool.or_eq_true, Option.isNone_iff_eq_none]) rfl rfl

/-! ### The filter (R80, R81) -/

/-- Rounding to the nearest, halves away from 0, with the sign apart. -/
theorem roundDiv_eq_sign (x : Int) (d : Nat) : roundDiv x d = x.sign * ((2 * x.natAbs + d) / (2 * d) : Nat) := by
  unfold roundDiv
  obtain h | rfl | h := Int.lt_trichotomy x 0
  · rw [if_neg (by omega), Int.sign_eq_neg_one_of_neg h, Int.neg_one_mul, show (-x).toNat = x.natAbs by omega]
  · have half : (2 * Int.toNat 0 + d) / (2 * d) = 0 := by
      obtain rfl | hd := Nat.eq_zero_or_pos d
      · rfl
      · exact Nat.div_eq_of_lt (by simp; omega)
    rw [if_pos (Int.le_refl _), half, Int.sign_zero, Int.zero_mul]
    rfl
  · rw [if_pos (Int.le_of_lt h), Int.sign_eq_one_of_pos h, Int.one_mul, show x.toNat = x.natAbs by omega]

theorem clampInt_symm (limit : Nat) (x : Int) :
    clampInt (-(limit : Int)) limit x = max (-(limit : Int)) (min (limit : Int) x) := clampInt_eq (by omega)

theorem filterJob_eq (k : Stabilizer) (dx dy sx sy : Int) :
    let jitter := fun d shift : Int =>
      if k.enabled then max (-((16 * k.jmax : Nat) : Int)) (min ((16 * k.jmax : Nat) : Int)
        (d + 16 * shift - roundDiv ((d + 16 * shift) * k.factor) 64)) else 0
    let correction := fun (margin : Nat) (d : Int) =>
      if k.enabled then max (-(margin : Int)) (min (margin : Int) (roundDiv d 16)) else 0
    filterJob k dx dy sx sy = ⟨jitter dx sx, jitter dy sy, correction k.mx (jitter dx sx), correction k.my (jitter dy sy)⟩ := by
  intro jitter correction
  unfold filterJob jitter correction
  cases k.enabled with
  | false => rfl
  | true => simp only [filterJitter, correctionOf, clampInt_symm, if_true]

/-! ### The tiles (R97 to R99) -/

theorem DustSettings.threshold_eq (k : DustSettings) (b : Nat) : k.threshold b = [0, k.b1, k.b2].getD b k.b3 := by
  match b with
  | 0 | 1 | 2 => rfl
  | b + 3 => rfl

theorem nextBand_eq (k : DustSettings) (level band : Nat) : nextBand k level band =
    if (band < 3 ∧ k.threshold (band + 1) ≤ level) ∨ (0 < band ∧ level + 16 < k.threshold band) then bandOf k level
    else band := by
  unfold nextBand
  simp only [Bool.and_eq_true, decide_eq_true_eq]
  by_cases hup : band < 3 ∧ k.threshold (band + 1) ≤ level
  · rw [if_pos hup, if_pos (.inl hup)]
  · rw [if_neg hup]
    exact ite_of_iff (or_iff_right hup).symm rfl rfl

end Sys2Proof.Machine

/-! SUPPORT. The completion of a job: its slot, its lane's blocks and the purge (R52, R68, R110, R112, R114). -/

namespace Sys2Proof.Machine

/-! ### The slot (R52) -/

theorem LaneStore.get_complete_same {st : LaneStore} {slot : Fin 4} {h : HeldSlot} (c : Conditioned)
    (hslot : st.ring.get slot = some h) (hrole : h.role = .conditioning) :
    (st.complete slot c).ring.get slot = some ⟨.ready, { h.record with conditioned := some c }⟩ := by
  have kept : (st.freeRole .ready).ring.get slot = some h := by
    rw [LaneStore.get_freeRole, hslot]
    refine if_neg fun hready => ?_
    obtain ⟨held, hheld, hready⟩ := LaneStore.slotOf_eq_some hready
    obtain rfl := Option.some.inj (hslot.symm.trans hheld)
    exact Role.noConfusion (hrole.symm.trans hready)
  rw [LaneStore.complete, LaneStore.modRecord, Four.get_modify_same, LaneStore.move, Four.get_modify_same, kept]
  rfl

theorem LaneStore.get_complete_other {slot i : Fin 4} (c : Conditioned) (st : LaneStore) (hi : i ≠ slot) :
    (st.complete slot c).ring.get i = if st.slotOf .ready = some i then none else st.ring.get i := by
  rw [LaneStore.complete, LaneStore.modRecord, Four.get_modify_other _ _ hi, LaneStore.move,
    Four.get_modify_other _ _ hi, LaneStore.get_freeRole]

/-! ### The purge (R110, R112) -/

section Purge

variable {p : Purge} (n : Lane) (now : Nat)

theorem Purge.countSettle_eq (now : Nat) (p : Purge) : p.countSettle now =
    if p.state = .settle ∧ 1 ≤ p.settleJobs then { p with
      settleJobs := p.settleJobs + 1, state := .cooldown, settleDue := none
      cooldownDue := some (now + msTicks (1000 * p.settings.cooldown)) }
    else if p.state = .settle then { p with settleJobs := p.settleJobs + 1 }
    else p := by
  unfold Purge.countSettle
  by_cases hsettle : p.state = .settle
  · rw [if_pos hsettle, if_pos hsettle]
    exact ite_of_iff (by rw [and_iff_right hsettle]; omega) rfl rfl
  · rw [if_neg hsettle, if_neg hsettle, if_neg fun h => hsettle h.1]

/-- What counting a completion leaves. -/
theorem Purge.countSettle_kept (now : Nat) (p : Purge) : (p.countSettle now).settings = p.settings
    ∧ (p.countSettle now).consecutive = p.consecutive
    ∧ ((p.countSettle now).state = .idle ↔ p.state = .idle)
    ∧ ((p.countSettle now).state = .pulse ↔ p.state = .pulse) := by
  rw [Purge.countSettle_eq]
  by_cases hends : p.state = .settle ∧ 1 ≤ p.settleJobs
  · rw [if_pos hends]
    obtain ⟨hsettle, -⟩ := hends
    exact ⟨rfl, rfl, iff_of_false nofun (by rw [hsettle]; nofun), iff_of_false nofun (by rw [hsettle]; nofun)⟩
  · rw [if_neg hends]
    split <;> exact ⟨rfl, rfl, Iff.rfl, Iff.rfl⟩

theorem Purge.countSettle_idle (hidle : p.state = .idle) : p.countSettle now = p :=
  if_neg (by rw [hidle]; nofun)

theorem Purge.takeCompletion_frozen (video : Bool) (p : Purge) :
    p.takeCompletion n now video none = (p.countSettle now, []) := rfl

theorem Purge.takeCompletion_quiet {video : Bool} {k : Nat}
    (h : ¬(p.settings.nsoil ≤ k ∧ p.settings.auto = true ∧ p.state = .idle ∧ video = true)) :
    p.takeCompletion n now video (some k) = ({ p.countSettle now with
      lastSoiled := some k, consecutive := if k < p.settings.nsoil then 0 else p.consecutive }, []) := by
  obtain ⟨hsettings, hconsecutive, hidle, -⟩ := p.countSettle_kept now
  unfold Purge.takeCompletion
  dsimp only
  rw [hsettings, hconsecutive]
  refine if_neg fun hblows => h ?_
  simp only [Bool.and_eq_true, decide_eq_true_eq, beq_iff_eq] at hblows
  obtain ⟨⟨⟨hk, hauto⟩, hstate⟩, hvideo⟩ := hblows
  exact ⟨hk, hauto, hidle.1 hstate, hvideo⟩

theorem Purge.takeCompletion_blows {k : Nat} (hk : p.settings.nsoil ≤ k) (hauto : p.settings.auto = true)
    (hidle : p.state = .idle) : p.takeCompletion n now true (some k) = ({ p with
      state := .pulse, pulseDue := some (now + msTicks p.settings.pulse), lastSoiled := none
      consecutive := min 255 (p.consecutive + 1), autoPurges := min 4294967295 (p.autoPurges + 1) },
      [⟨.purge, none, .ok, byte1 n.val ++ [0, 0] ++ byte1 (min 255 (p.consecutive + 1)) ++ byte2 k ++ [0]⟩]) := by
  unfold Purge.takeCompletion
  dsimp only
  rw [Purge.countSettle_idle now hidle, if_neg (Nat.not_lt.2 hk)]
  refine (if_pos ?_).trans ?_
  · simp only [Bool.and_eq_true, decide_eq_true_eq, beq_iff_eq]
    exact ⟨⟨⟨hk, hauto⟩, hidle⟩, trivial⟩
  · rfl

end Purge

/-! ### The completion (R68) -/

/-- The purge of a lane whose job completes, with its reports. -/
def LaneBlocks.completion (n : Lane) (now : Nat) (run : RunningJob) (l : LaneBlocks) : Purge × List Notice :=
  l.purge.takeCompletion n now l.rx.video
    (if run.frozen then none else some (soiledCount run.asoil (l.dust.complete run).table))

theorem LaneBlocks.video_completeRun (number : Nat) (slot : Fin 4) (run : RunningJob) (l : LaneBlocks) :
    (l.completeRun number slot run).rx.video = l.rx.video := by
  unfold LaneBlocks.completeRun
  dsimp only
  split <;> rfl

theorem State.completeJob_eq {s : State} {j : Job} {rest : List Job} {run : RunningJob} (hs : s.jobs = j :: rest)
    (hrun : j.run = some run) :
    let ended := (s.lane j.lane).completion j.lane s.now run
    s.completeJob = State.offerAll ended.2 { s with
      jobs := rest
      lanes := s.lanes.modify j.lane fun l => { l.completeRun j.number j.slot run with purge := ended.1 } } := by
  intro ended
  let u : State := { s.modLane j.lane (LaneBlocks.completeRun j.number j.slot run) with jobs := rest }
  have hlane : u.lane j.lane = (s.lane j.lane).completeRun j.number j.slot run :=
    State.lane_modLane_same j.lane _ s
  have hended : Purge.takeCompletion j.lane u.now (u.lane j.lane).rx.video
      (if run.frozen then none else some (soiledCount run.asoil (u.lane j.lane).dust.table)) (u.lane j.lane).purge = ended := by
    rw [hlane, LaneBlocks.video_completeRun]
    rfl
  have hevent : s.completeJob = u.purgeEvent j.lane (Purge.takeCompletion j.lane u.now (u.lane j.lane).rx.video
      (if run.frozen then none else some (soiledCount run.asoil (u.lane j.lane).dust.table))) := by
    rw [State.completeJob, hs]
    dsimp only
    rw [hrun]
  rw [hevent, State.purgeEvent_eq, hended]
  exact congrArg (fun v : State => State.offerAll ended.2 { v with jobs := rest })
    (State.modLane_modLane j.lane _ (fun l => { l with purge := ended.1 }) s)

end Sys2Proof.Machine

/-! SUPPORT. The completion of a job, part by part (R52, R68, R82, R97 to R101, R110 to R114). -/

namespace Sys2Proof.Machine

theorem LaneBlocks.counters_completeRun (number : Nat) (slot : Fin 4) (run : RunningJob) (l : LaneBlocks) :
    (l.completeRun number slot run).rx = { l.rx with counters := { l.rx.counters with
      framesDropped := if (l.store.slotOf .ready).isSome then min 4294967295 (l.rx.counters.framesDropped + 1)
        else l.rx.counters.framesDropped } } := by
  unfold LaneBlocks.completeRun
  cases (l.store.slotOf .ready).isSome <;> rfl

theorem RunningJob.anchorResults_eq (run : RunningJob) : List.zipWith anchorResult run.anchors run.verdicts =
    List.zipWith (fun (a : Anchor) (v : AnchorVerdict) => match v with
      | .done outcome found => (⟨a.col, a.row, outcome, found⟩ : AnchorResult)
      | .toSearch => ⟨a.col, a.row, .notEvaluated, none⟩) run.anchors run.verdicts := by
  refine congrArg (fun f => List.zipWith f run.anchors run.verdicts) (funext fun a => funext fun v => ?_)
  cases v <;> rfl

theorem acceptedMeasures_eq (verdicts : List AnchorVerdict) : acceptedMeasures verdicts =
    verdicts.filterMap fun v => match v with
      | .done .accepted found => found
      | _ => none := by
  refine congrArg (fun f => List.filterMap f verdicts) (funext fun v => ?_)
  rcases v with _ | ⟨_ | _, _⟩ <;> rfl

theorem Dust.complete_classified {run : RunningJob} {classes : List TileClass} (h : run.classes = some classes) (d : Dust) :
    let table := classes.map TileClass.settled
    d.complete run = { d with
      jobSet := none, table := table, level := dustLevel table
      band := nextBand run.dust (dustLevel table) d.band } := by
  intro table
  rw [Dust.complete, h]
  rfl

/-- Settles O47. -/
theorem jobCompletes : Obligations.JobCompletes := by
  unfold Obligations.JobCompletes
  intro s j rest run hjobs hrun n l t up m k round within jitter jitterX jitterY corrX corrY done anchors p ended counted
    soiled consecutive blows
  have hcomplete := State.completeJob_eq hjobs hrun
  let fate := l.completion n s.now run
  have ht : t = State.offerAll fate.2 { s with
      jobs := rest
      lanes := s.lanes.modify n fun l => { l.completeRun j.number j.slot run with purge := fate.1 } } := hcomplete
  have hoffered := ht.trans (State.offerAll_eq _ _)
  have hhere : t.lane n = { l.completeRun j.number j.slot run with purge := fate.1 } :=
    (congrArg (·.lane n) hoffered :).trans (State.lane_modLane_same n _ s)
  have hother (i : Lane) (hi : i ≠ n) : t.lane i = s.lane i :=
    (congrArg (·.lane i) hoffered :).trans (State.lane_modLane_other _ s hi)
  have hchan : t.chan = s.chan.takeReports fate.2 := (congrArg State.chan hoffered :)
  have hdust : (t.lane n).dust = l.dust.complete run := congrArg LaneBlocks.dust hhere
  have hpurge : (t.lane n).purge = fate.1 := congrArg LaneBlocks.purge hhere
  have hm : run.measurement = m := by
    have h := run.measurement_eq
    simp only [acceptedMeasures_eq, lowerMedian_eq] at h
    exact h
  have hround : ∀ x d, roundDiv x d = round x d := roundDiv_eq_sign
  have hf : filterJob k l.motion.jitterX l.motion.jitterY m.shiftX m.shiftY = ⟨jitterX, jitterY, corrX, corrY⟩ := by
    have h := filterJob_eq k l.motion.jitterX l.motion.jitterY m.shiftX m.shiftY
    simp only [hround] at h
    exact h
  have hdone : conditionedRecord m ⟨jitterX, jitterY, corrX, corrY⟩ (l.dust.complete run) run.frozen = done := by
    rw [← hdust]
    rfl
  have hcounted : p.countSettle s.now = counted := Purge.countSettle_eq s.now p
  have hsoiled : soiledCount run.asoil (l.dust.complete run).table = soiled := by
    rw [← hdust]
    rfl
  have hfrozenFate (h : run.frozen = true) : fate = (counted, []) := by
    unfold fate
    rw [LaneBlocks.completion, if_pos h, Purge.takeCompletion_frozen, hcounted]
  have hvideo : l.rx.video = true ↔ l.rx.state = .locked ∧ l.rx.mode = .normal := Receiver.video_iff
  have hopen (h : run.frozen = false) : fate = p.takeCompletion n s.now l.rx.video (some soiled) := by
    unfold fate
    rw [LaneBlocks.completion, if_neg (by rw [h]; exact Bool.false_ne_true), hsoiled]
  have hquietFate (h : run.frozen = false) (hstays : ¬blows) :
      fate = ({ counted with lastSoiled := some soiled, consecutive := consecutive }, []) := by
    rw [hopen h, Purge.takeCompletion_quiet n s.now fun ⟨hk, hauto, hidle, hv⟩ =>
      hstays ⟨h, hk, hauto, hidle, hvideo.1 hv⟩, hcounted]
  have hblowsFate (h : blows) := by
    obtain ⟨hfrozen, hk, hauto, hidle, hlocked⟩ := h
    have heq := hopen hfrozen
    rw [hvideo.2 hlocked, Purge.takeCompletion_blows n s.now hk hauto hidle] at heq
    exact heq
  refine ⟨(congrArg State.jobs hoffered :), fun h hslot hrole => ?slot, ?rx, ?motion, fun hnone => ?frozenDust,
    fun classes hclasses => ?dust, fun hfrozen => ?frozen, fun hfrozen hstays => ?quiet, fun hblows => ?blows, ?line,
    hother, (congrArg LaneBlocks.relay hhere :), (congrArg LaneBlocks.test hhere :), (congrArg State.timing hoffered :),
    (congrArg State.comp hoffered :), (congrArg State.dram hoffered :), (congrArg State.arb hoffered :),
    (congrArg State.pending hoffered :), ?apart⟩
  case slot =>
    have hstore : (t.lane n).store = l.store.complete j.slot done := by
      refine (congrArg LaneBlocks.store hhere).trans ?_
      show LaneStore.complete j.slot (conditionedRecord run.measurement (filterJob k l.motion.jitterX l.motion.jitterY
        run.measurement.shiftX run.measurement.shiftY) (l.dust.complete run) run.frozen) l.store = _
      rw [hm, hf, hdone]
    rw [hstore]
    exact ⟨LaneStore.get_complete_same done hslot hrole, fun i hi => LaneStore.get_complete_other done l.store hi⟩
  case rx => exact (congrArg LaneBlocks.rx hhere).trans (LaneBlocks.counters_completeRun j.number j.slot run l)
  case motion =>
    refine (congrArg LaneBlocks.motion hhere).trans ?_
    show ({ l.motion with
      jitterX := (filterJob k l.motion.jitterX l.motion.jitterY run.measurement.shiftX run.measurement.shiftY).jitterX
      jitterY := (filterJob k l.motion.jitterX l.motion.jitterY run.measurement.shiftX run.measurement.shiftY).jitterY
      referenceValid := true
      summary := some (run.summary j.number run.measurement
        (filterJob k l.motion.jitterX l.motion.jitterY run.measurement.shiftX run.measurement.shiftY))
      counters := l.motion.counters.completed run.frozen run.measurement.result } : Motion) = _
    rw [hm, hf]
    exact congrArg (fun a => ({ l.motion with
      jitterX := jitterX, jitterY := jitterY, referenceValid := true
      summary := some ⟨j.number, run.frozen, run.reference.isSome, run.settings.enabled, m.result, m.accepted, m.shiftX,
        m.shiftY, jitterX, jitterY, corrX, corrY, a⟩
      counters := l.motion.counters.completed run.frozen m.result } : Motion)) run.anchorResults_eq
  case frozenDust =>
    rw [hdust, Dust.complete, hnone]
    rfl
  case dust =>
    intro table level bound moves highest
    have hbound : ∀ b, run.dust.threshold b = bound b := run.dust.threshold_eq
    have hband := nextBand_eq run.dust level l.dust.band
    simp only [hbound] at hband
    rw [hdust]
    exact (Dust.complete_classified hclasses l.dust).trans (congrArg (fun b => { l.dust with
      jobSet := none, table := table, level := level, band := b }) hband)
  case frozen =>
    have hfate : fate = (counted, []) := hfrozenFate hfrozen
    rw [hpurge, hchan, hfate]
    exact ⟨rfl, CommandChannel.takeReports_nil _⟩
  case quiet =>
    rw [hpurge, hchan, hquietFate hfrozen hstays]
    exact ⟨rfl, CommandChannel.takeReports_nil _⟩
  case blows =>
    rw [hpurge, hchan, hblowsFate hblows, State.offer_eq]
    exact ⟨rfl, rfl⟩
  case line =>
    rw [State.purgeLine_iff, hpurge]
    obtain ⟨-, -, -, hpulse⟩ := p.countSettle_kept s.now
    rw [hcounted] at hpulse
    cases hfrozen : run.frozen with
    | true =>
      rw [hfrozenFate hfrozen]
      exact hpulse.trans (or_iff_right fun h => Bool.noConfusion (hfrozen.symm.trans h.1)).symm
    | false =>
      by_cases hblows : blows
      · rw [hblowsFate hblows]
        exact iff_of_true rfl (.inl hblows)
      · rw [hquietFate hfrozen hblows]
        exact hpulse.trans (or_iff_right hblows).symm
  case apart =>
    rw [hchan]
    exact CommandChannel.apartReports_takeReports _ _

end Sys2Proof.Machine
